-- ==== Sys2Proof/Word.lean ====
section
/-! DEFINITION. The word types of the part and the fixed-size table its blocks keep their records in. -/

namespace Sys2Proof

/-- A byte of the link or of the clip store. -/
abbrev Byte := BitVec 8

/-- A moment on the part's millisecond clock, which wraps modulo 2^32 (00 section 4.1). -/
abbrev Clock := BitVec 32

/-- A fixed number of like records, numbered from 0: seats, boxes, slots, voices, channels. -/
structure Table (α : Type) (n : Nat) where
  /-- The records in number order. -/
  list : List α
  /-- There are exactly `n` of them. -/
  size : list.length = n
deriving DecidableEq, Repr

namespace Table
variable {α β : Type} {n : Nat}

/-- The table with the same record everywhere. -/
def fill (n : Nat) (a : α) : Table α n := ⟨List.replicate n a, List.length_replicate⟩

/-- The table whose record `i` is `f i`. -/
def ofFn (f : Fin n → α) : Table α n := ⟨List.ofFn f, List.length_ofFn⟩

/-- Record `i`. -/
def get (t : Table α n) (i : Fin n) : α := t.list[i.val]'(by rw [t.size]; exact i.isLt)

/-- The table with record `i` replaced. -/
def set (t : Table α n) (i : Fin n) (a : α) : Table α n :=
  ⟨t.list.set i.val a, by rw [List.length_set, t.size]⟩

/-- The table with record `i` changed by `f`. -/
def modify (t : Table α n) (i : Fin n) (f : α → α) : Table α n := t.set i (f (t.get i))

/-- The table with every record changed by `f`. -/
def map (f : α → β) (t : Table α n) : Table β n :=
  ⟨t.list.map f, by rw [List.length_map, t.size]⟩

/-- Whether some record satisfies `p`. -/
def any (t : Table α n) (p : α → Bool) : Bool := t.list.any p

/-- Whether every record satisfies `p`. -/
def all (t : Table α n) (p : α → Bool) : Bool := t.list.all p

/-- The lowest number whose record satisfies `p`. -/
def lowest (t : Table α n) (p : α → Bool) : Option (Fin n) :=
  (List.finRange n).find? fun i => p (t.get i)

end Table

/-- The milliseconds from `since` to `now`, modulo 2^32. -/
def elapsed (now since : Clock) : Nat := (now - since).toNat

end Sys2Proof
end

