-- ==== Sys2Proof/Syntax.lean ====
section
/-! DEFINITION. The commands: one constructor of `Instr` for each row of spec/opcode_table.json, with its operands.
Fields of a request are plain numbers, since the chapters give their ranges and the requests check them; a field that can
hold a code of no meaning has a constructor for that (log 22). -/

namespace Sys2Proof

/-- The four announcement classes (05 section 5.1). -/
inductive AnnClass where
  | warning | live | stop | notice
deriving DecidableEq, Repr

/-- The buttons of a seat (03 section 3.4). -/
inductive Button where
  | langUp | langDown | volUp | volDown
deriving DecidableEq, Repr

/-- One press of a poll reply: the seat position in the box, and the button. -/
structure Press where
  position : Fin 4
  button : Button
deriving DecidableEq, Repr

/-- A reply as it comes off the seat ring (R42). -/
structure PollReply where
  /-- The box the reply names. -/
  box : Fin 16
  /-- Whether it passes its ring check. -/
  checked : Bool
  /-- The plug states of the four seat positions. -/
  plugs : Table Bool 4
  /-- The box's sequence bit. -/
  sequence : Bool
  /-- The latched presses in order. -/
  presses : List Press
deriving DecidableEq, Repr

/-- The fields of SET_SEAT; an absent field is `none` (03 section 3.5.1). -/
structure SeatFields where
  chosen : Option Nat
  volume : Option Nat
  cap : Option Nat
  muted : Option Bool
  /-- `some none` is a present follow of none. -/
  follow : Option (Option Nat)
deriving DecidableEq, Repr

/-- The condition of SEAT_APPLY (03 Table 3-3). -/
inductive SeatCondition where
  | always | plugged | listening
  | onSlot (s : Nat)
  | following
  | unknown
deriving DecidableEq, Repr

/-- The chosen slot, volume or cap action of SEAT_APPLY. -/
inductive SeatAction where
  | keep
  | set (v : Nat)
  | default
  | unknown
deriving DecidableEq, Repr

/-- The muted action of SEAT_APPLY. -/
inductive MuteAction where
  | keep
  | set (muted : Bool)
  | unknown
deriving DecidableEq, Repr

/-- The follow action of SEAT_APPLY. -/
inductive FollowAction where
  | keep | none | leader | unknown
deriving DecidableEq, Repr

/-- The fields of SEAT_APPLY (03 Table 3-3). -/
structure SeatApply where
  first : Nat
  last : Nat
  condition : SeatCondition
  invert : Bool
  chosen : SeatAction
  volume : SeatAction
  cap : SeatAction
  muted : MuteAction
  follow : FollowAction
deriving DecidableEq, Repr

/-- The zone field of SET_ZONE. -/
inductive ZoneField where
  | upper | lower | unknown
deriving DecidableEq, Repr

/-- The commands of spec/opcode_table.json, in the table's order. `tag` is a request's tag (10 section 10.1.1); `failed`
says that the store reports a read failed (R112, R126). -/
inductive Instr where
  /-- POWER_ON (R181). -/
  | powerOn
  /-- STARTUP_PAGE_ARRIVAL (R181). -/
  | startupPageArrival (failed : Bool)
  /-- ODOMETER_PULSE (R1); `micros` is the time within the millisecond, 0..999 (log 10). -/
  | odometerPulse (micros : Nat)
  /-- SPEED_WINDOW (R6). -/
  | speedWindow
  /-- POSITION_REPORT (R19). -/
  | positionReport
  /-- FIX_SOFT (R11); `known` is clear for a FIX whose mode is neither SOFT nor HARD (R9, log 22). -/
  | fixSoft (tag : Byte) (known : Bool) (chainage : Nat) (stamp : BitVec 32)
  /-- FIX_HARD (R13). -/
  | fixHard (tag : Byte) (chainage : Nat) (stamp : BitVec 32)
  /-- DETOUR_BEGIN (R14). -/
  | detourBegin (tag : Byte)
  /-- DETOUR_END (R15). -/
  | detourEnd (tag : Byte)
  /-- GET_POSITION (R18). -/
  | getPosition (tag : Byte)
  /-- SELECT_ROUTE (R22). -/
  | selectRoute (tag : Byte) (route : Nat)
  /-- ROUTE_PAGE_ARRIVAL (R25). -/
  | routePageArrival (failed : Bool)
  /-- GET_CUES (R38). -/
  | getCues (tag : Byte) (first last : Nat)
  /-- FORCE_CUE (R34). -/
  | forceCue (tag : Byte) (cue : Nat)
  /-- POLL (R41). -/
  | poll (box : Fin 16)
  /-- MISSED_REPLY (R43). -/
  | missedReply (box : Fin 16)
  /-- POLL_REPLY (R42, R44). -/
  | pollReply (reply : PollReply)
  /-- SET_SEAT (R51, R52). -/
  | setSeat (tag : Byte) (seat : Nat) (fields : SeatFields)
  /-- SEAT_APPLY (R53, R54). -/
  | seatApply (tag : Byte) (fields : SeatApply)
  /-- GET_SEATS (R55). -/
  | getSeats (tag : Byte) (first last : Nat)
  /-- LISTENERS_HOLD_END (R58). -/
  | listenersHoldEnd
  /-- STREAM_DELAY_END (R67). -/
  | streamDelayEnd (slot : Fin 12)
  /-- SEGMENT_TIME_END (R71). -/
  | segmentTimeEnd (slot : Fin 12)
  /-- GET_STREAMS (R77). -/
  | getStreams (tag : Byte)
  /-- ANNOUNCE (R83); `cls` is `none` for a code that is none of the four classes. -/
  | announce (tag : Byte) (cls : Option AnnClass) (clipSet : Nat) (maxWait : Option Nat)
  /-- NOTICE_MAX_WAIT (R91). -/
  | noticeMaxWait
  /-- PTT_PRESS (R96, R185, R186). -/
  | pttPress
  /-- PTT_RELEASE (R97). -/
  | pttRelease
  /-- HANG_TIMER_EXPIRY (R97). -/
  | hangTimerExpiry
  /-- CANCEL_ANNOUNCE (R98). -/
  | cancelAnnounce (tag : Byte) (ticket : Nat)
  /-- GET_ANNOUNCEMENTS (R102). -/
  | getAnnouncements (tag : Byte)
  /-- SET_PRECEDENCE (R101). -/
  | setPrecedence (tag : Byte) (code : Nat)
  /-- VOICE_PAGE_ARRIVAL (R109). -/
  | voicePageArrival (voice : Fin 16) (failed : Bool)
  /-- VOICE_PAGE_DUE (R110, R111). -/
  | voicePageDue (voice : Fin 16)
  /-- FADE_END (R111). -/
  | fadeEnd (voice : Fin 16)
  /-- WRITE_BEGIN (R118). -/
  | writeBegin
  /-- CLEAR_STORE_FAULTS (R114). -/
  | clearStoreFaults (tag : Byte)
  /-- ENTER_SERVICE (R124). -/
  | enterService (tag : Byte)
  /-- LEAVE_SERVICE (R124). -/
  | leaveService (tag : Byte)
  /-- STORE_READ (R126). -/
  | storeRead (tag : Byte) (page : Nat)
  /-- STORE_READ_DATA (R126). -/
  | storeReadData (failed : Bool)
  /-- STORE_PROGRAM (R129). -/
  | storeProgram (tag : Byte) (page : Nat) (data : List Byte)
  /-- BLANK_CHECK_DATA (R129). -/
  | blankCheckData (failed : Bool)
  /-- PAGE_PROGRAM_COMPLETE (R130). -/
  | pageProgramComplete
  /-- STORE_ERASE (R131). -/
  | storeErase (tag : Byte) (sector : Nat)
  /-- SECTOR_ERASE_COMPLETE (R131). -/
  | sectorEraseComplete
  /-- RELOAD_DIRECTORY (R137). -/
  | reloadDirectory (tag : Byte)
  /-- DIRECTORY_PAGE_ARRIVAL (R137). -/
  | directoryPageArrival (failed : Bool)
  /-- RESIDENT_PAGE_ARRIVAL (R120). -/
  | residentPageArrival (failed : Bool)
  /-- LOCK_PERSISTENT (R133); `known` is clear for a SECTOR_LOCK of no known kind (log 22). -/
  | lockPersistent (tag : Byte) (known : Bool) (sector : Nat)
  /-- LOCK_PROGRAM_COMPLETE (R133). -/
  | lockProgramComplete
  /-- VOLATILE_ON (R134). -/
  | volatileOn (tag : Byte) (sector : Nat)
  /-- VOLATILE_OFF (R134). -/
  | volatileOff (tag : Byte) (sector : Nat)
  /-- LOCKDOWN (R134). -/
  | lockdown (tag : Byte) (sector : Nat)
  /-- UNLOCK_ALL (R135). -/
  | unlockAll (tag : Byte)
  /-- LOCK_ERASE_COMPLETE (R135). -/
  | lockEraseComplete
  /-- FREEZE_LOCKS (R136). -/
  | freezeLocks (tag : Byte)
  /-- GET_STORE_STATE (R139). -/
  | getStoreState (tag : Byte) (first last : Nat)
  /-- SET_ZONE (R146). -/
  | setZone (tag : Byte) (zone : Option ZoneField) (gain : Option Nat) (commentary : Option Bool)
  /-- DUCK_RAMP_ADVANCE (R149). -/
  | duckRampAdvance
  /-- OUTPUT_RAMP_ADVANCE (R150). -/
  | outputRampAdvance
  /-- SET_LIGHT (R162). -/
  | setLight (tag : Byte) (channel level ramp : Nat)
  /-- APPLY_SCENE (R160). -/
  | applyScene (tag : Byte) (scene : Nat)
  /-- CLEAR_SCENE (R161). -/
  | clearScene (tag : Byte)
  /-- SET_MASTER (R163). -/
  | setMaster (tag : Byte) (level : Nat)
  /-- GET_LIGHTS (R165). -/
  | getLights (tag : Byte)
  /-- LIGHT_RAMP_ADVANCE (R155). -/
  | lightRampAdvance (channel : Fin 16)
  /-- FLASH_PHASE_END (R158, R159). -/
  | flashPhaseEnd (channel : Fin 16)
  /-- LINK_BYTE (R167). -/
  | linkByte (byte : Byte)
  /-- LINE_ERROR_BYTE (R170). -/
  | lineErrorByte
  /-- FRAME_TIMEOUT (R170). -/
  | frameTimeout
  /-- BAD_KIND (R171). -/
  | badKind (tag kind : Byte)
  /-- FRAME_SENT (R174). -/
  | frameSent
  /-- GET_STATUS (R176); the flag is clear when absent. -/
  | getStatus (tag : Byte) (clear : Bool)
  /-- RESTART (R181). -/
  | restart (tag : Byte)
  /-- GET_SETTING (R179). -/
  | getSetting (tag : Byte) (id : Nat)
  /-- SET_SETTING (R179); the value in the widths and codes of Table 12-9. -/
  | setSetting (tag : Byte) (id : Nat) (value : List Byte)
  /-- SAVE_SETTINGS (R180). -/
  | saveSettings (tag : Byte)
  /-- SETTINGS_ERASE_COMPLETE (R180). -/
  | settingsEraseComplete
  /-- SETTINGS_SAVED (R180). -/
  | settingsSaved
  /-- STANDBY (R184). -/
  | standby (tag : Byte)
  /-- IGNITION_RISE (R183, R185, R186). -/
  | ignitionRise
  /-- IGNITION_FALL (R183). -/
  | ignitionFall
  /-- IGNITION_OFF_TIMER (R183). -/
  | ignitionOffTimer
  /-- ENTRY_PHASE_END (R185). -/
  | entryPhaseEnd
deriving DecidableEq, Repr

end Sys2Proof
end

