-- ==== Sys2Proof/Machine/State.lean ====
section
/-! DEFINITION. The state of the part as plain data, block by block (00 section 2.1), and the state right after reset.
A field's default is its value after start-up where the chapter gives one value for every start-up. -/

namespace Sys2Proof.Machine

/-! ### Settings (11 Table 11-2) -/

/-- A language tag: two capital letters, A = 0. -/
structure LanguageTag where
  first : Fin 26
  second : Fin 26
deriving DecidableEq, Repr

/-- The PWM rates of a bank (09 section 9.1). -/
inductive BankRate where
  | hz200 | hz400 | hz800 | hz1600
deriving DecidableEq, Repr

/-- The driver modes of a light channel (R152). -/
inductive DriverMode where
  | pushPull | openDrain | off
deriving DecidableEq, Repr

/-- The link rates (10 section 10.1). -/
inductive LinkRate where
  | r115200 | r230400 | r460800
deriving DecidableEq, Repr

/-- The active copy of the settings, in identifier order; the field defaults are Table 11-2's. -/
structure Settings where
  pulseLength : Nat := 41250
  pulseSpacing : Nat := 2000
  slewLimit : Nat := 30000
  rearmDistance : Nat := 150000
  maxLead : Nat := 250000
  crawlSpeed : Nat := 250
  resumeLimit : Nat := 400000
  resumeRewind : Nat := 3
  languageTags : Table (Option LanguageTag) 12 := (Table.fill 12 none).set 0 (some ⟨4, 13⟩)
  defaultSlot : Fin 12 := 0
  speakerSlot : Fin 12 := 0
  defaultVolume : Nat := 8
  warningFloor : Nat := 10
  duckDepth : Fin 16 := 4
  precedenceCode : Fin 6 := 0
  stopChime : Nat := 0
  noticeChime : Nat := 0
  warningChime : Nat := 0
  liveHang : Nat := 300
  positionPeriod : Nat := 1000
  standbyDelay : Nat := 600
  upperGain : Fin 16 := 12
  lowerGain : Fin 16 := 12
  upperCommentary : Bool := true
  lowerCommentary : Bool := true
  warningGroup : BitVec 16 := 0x000F
  stopGroup : BitVec 16 := 0x0030
  masterLevel : Nat := 4095
  bankA : BankRate := .hz400
  bankB : BankRate := .hz400
  driverModes : Table DriverMode 16 := Table.fill 16 .pushPull
  partition : Fin 16 := 3
  linkRate : LinkRate := .r230400
  residentList : Table Nat 4 := Table.fill 4 0
deriving DecidableEq, Repr

/-- The in-force values of the start-up-only settings (11 section 11.1). -/
structure InForce where
  bankA : BankRate := .hz400
  bankB : BankRate := .hz400
  driverModes : Table DriverMode 16 := Table.fill 16 .pushPull
  partition : Fin 16 := 3
  linkRate : LinkRate := .r230400
  residentList : Table Nat 4 := Table.fill 4 0
deriving DecidableEq, Repr

/-! ### Position tracker (01 Table 1-1) -/

inductive TrackerState where
  | unplaced | placed | detour
deriving DecidableEq, Repr

/-- The position tracker; the defaults are R20's. -/
structure Tracker where
  state : TrackerState := .unplaced
  chainage : Nat := 0
  residue : Nat := 0
  correction : Int := 0
  travel : BitVec 32 := 0
  travelResidue : Nat := 0
  stamp : BitVec 32 := 0
  lastPulse : Option (BitVec 32) := none
  windowCount : Nat := 0
  speed : Nat := 0
  detour : Nat := 0
  detourResidue : Nat := 0
  noise : Nat := 0
  reportTimer : Option Clock := none
deriving DecidableEq, Repr

/-- The fields of GET_POSITION and POSITION (R18). -/
structure PositionView where
  state : TrackerState
  chainage : Nat
  residue : Nat
  correction : Int
  travel : BitVec 32
  stamp : BitVec 32
  speed : Nat
  stationary : Bool
  detour : Nat
  noise : Nat
  clock : Clock
deriving DecidableEq, Repr

/-! ### Cue engine (02 Tables 2-1 to 2-3) -/

inductive RouteState where
  | none | loading | ready
deriving DecidableEq, Repr

/-- Consecutive pages of the store. -/
structure Extent where
  first : Nat
  count : Nat
deriving DecidableEq, Repr

inductive CueKind where
  | commentary | stop | warning | scene | quietOn | quietOff
deriving DecidableEq, Repr

inductive CueState where
  | armed | fired | skipped
deriving DecidableEq, Repr

structure Cue where
  anchor : Nat
  kind : CueKind
  mark : Nat
  late : Nat
  ref : Option Nat
  state : CueState := .armed
deriving DecidableEq, Repr

structure ClipSetEntry where
  slot : Fin 12
  long : Nat
  short : Option Nat
  mark : Option Nat
deriving DecidableEq, Repr

abbrev ClipSet := List ClipSetEntry

structure SceneEntry where
  channel : Fin 16
  level : Nat
  ramp : Nat
deriving DecidableEq, Repr

abbrev Scene := List SceneEntry

/-- A PRESENT entry of the route directory cache. -/
structure RouteEntry where
  route : Nat
  extent : Extent
deriving DecidableEq, Repr

/-- A route load: its number (log 25), the index of the page it waits for, and the stream received so far (R189). -/
structure Load where
  serial : Nat
  next : Nat
  stream : List Byte
deriving DecidableEq, Repr

/-- The cue engine; the defaults are R40's. The three counts of the route record are the lengths of its tables. -/
structure CueEngine where
  routeState : RouteState := .none
  routeNumber : Nat := 0
  extent : Option Extent := none
  mask : BitVec 12 := 0
  cues : List Cue := []
  clipSets : List ClipSet := []
  scenes : List Scene := []
  load : Option Load := none
  loadSerial : Nat := 0
  directory : List RouteEntry := []
deriving DecidableEq, Repr

/-- The records of a route program that a FORMAT fault can name (R26). -/
inductive RecordKind where
  | header | cue | clipSet | scene
deriving DecidableEq, Repr

/-- The reasons of ROUTE_FAILED (R39). -/
inductive RouteFailure where
  | superseded
  | check (page : Nat)
  | format (record : RecordKind) (index : Nat)
deriving DecidableEq, Repr

/-- The events of CUE_EVENT (R39). -/
inductive CueEvent where
  | fired | noContent | skipped | warningMissed
  | rearmed (count : Nat)
deriving DecidableEq, Repr

/-! ### Seat table and ring (03 Tables 3-1, 3-2) -/

structure SeatBox where
  present : Bool := false
  missed : Nat := 0
  lastSequence : Option Bool := none
deriving DecidableEq, Repr

structure Seat where
  plugged : Bool := false
  chosen : Fin 12
  volume : Nat
  cap : Nat := 15
  muted : Bool := false
  follow : Option (Fin 64) := none
  served : Option (Fin 12)
  effective : Nat
deriving DecidableEq, Repr

/-- A poll as sent on the ring (R41); ring slot 15 is silence. -/
structure Poll where
  box : Fin 16
  slots : Table Nat 4
  volumes : Table Nat 4
  ack : Bool
deriving DecidableEq, Repr

/-- The seat table; the defaults are R60's. -/
structure SeatTable where
  boxes : Table SeatBox 16 := Table.fill 16 {}
  seats : Table Seat 64
  enabled : Table Bool 12
  counts : Table Nat 12 := Table.fill 12 0
  reported : Table Nat 12 := Table.fill 12 0
  lastReport : Option Clock := none
  reportPending : Bool := false
  warningActive : Bool := false
  awaiting : Option (Fin 16) := none
  lastPoll : Option Poll := none
deriving DecidableEq, Repr

/-- A seat as SET_SEAT and GET_SEATS show it (R52, R55). -/
structure SeatView where
  number : Fin 64
  seat : Seat
  boxPresent : Bool
deriving DecidableEq, Repr

/-! ### Commentary engine (04 Tables 4-1, 4-2, 4-4) -/

inductive EngineState where
  | idle | running | suspended
deriving DecidableEq, Repr

inductive StreamState where
  | off | quiet | delay | waitVoice | playing
deriving DecidableEq, Repr

inductive Variant where
  | long | short
deriving DecidableEq, Repr

/-- A stream's share of one firing. `start` is the intended start while the segment is the next one. -/
structure Segment where
  firing : Nat
  cue : Nat
  clip : Nat
  variant : Variant
  pages : Nat
  start : Clock
deriving DecidableEq, Repr

structure Stream where
  state : StreamState
  current : Option Segment := none
  next : Option Segment := none
  voice : Option (Fin 16) := none
  demand : Bool
deriving DecidableEq, Repr

/-- An entry of the cue list (R66); `id` is the model's own number of the firing (log 25). -/
structure Firing where
  id : Nat
  cue : Nat
  started : Bool
  segments : Nat
deriving DecidableEq, Repr

structure PendingFiring where
  cue : Nat
  clipSet : ClipSet
  mark : Nat
deriving DecidableEq, Repr

structure SuspendEntry where
  slot : Fin 12
  segment : Segment
  page : Nat
  next : Option Segment
deriving DecidableEq, Repr

structure SuspendRecord where
  travel : BitVec 32
  entries : List SuspendEntry
deriving DecidableEq, Repr

/-- The commentary engine; the defaults are R80's. -/
structure Commentary where
  state : EngineState := .idle
  streams : Table Stream 12
  cueList : List Firing := []
  pendingFiring : Option PendingFiring := none
  suspend : Option SuspendRecord := none
  nextFiring : Nat := 0
deriving DecidableEq, Repr

inductive DropCause where
  | replaced | disabled | stale | stopped
deriving DecidableEq, Repr

/-- The events of COMMENTARY_EVENT (R78). -/
inductive CommentaryEvent where
  | started | ended
  | dropped (cause : DropCause)
deriving DecidableEq, Repr

/-! ### Announcement engine (05 Table 5-1) -/

inductive Source where
  | cue | link | ptt
deriving DecidableEq, Repr

inductive Expiry where
  | never
  | chainage (limit : Nat)
  | wait (limit : Nat)
deriving DecidableEq, Repr

inductive Phase where
  | queued | chime | playing | hang
deriving DecidableEq, Repr

inductive SlotMap where
  | own (voice : Fin 16)
  | fallback | none
deriving DecidableEq, Repr

/-- An announcement entry. `voices` are its fan-out voices that still play (R94). -/
structure Entry where
  ticket : Nat := 0
  cls : AnnClass
  source : Source
  clipSet : Option Nat
  clips : List (Fin 12 × Nat)
  route : Option Nat
  cue : Option Nat
  expiry : Expiry
  admitted : Clock
  order : BitVec 32 := 0
  phase : Phase := .queued
  map : Option (Table SlotMap 12) := none
  speakerVoice : Option (Fin 16) := none
  chimeVoice : Option (Fin 16) := none
  restart : Bool := false
  voices : List (Fin 16) := []
deriving DecidableEq, Repr

/-- The announcement engine; the defaults are R104's. The stack is listed from its top. -/
structure Announcements where
  queue : List Entry := []
  active : Option Entry := none
  stack : List Entry := []
  code : Fin 6 := 0
  ticketCounter : Nat := 0
  admissionCounter : BitVec 32 := 0
  pressed : Bool := false
  hangTimer : Option Clock := none
deriving DecidableEq, Repr

inductive AnnOutcome where
  | completed | cancelled | expired | evicted | lost | withdrawn
deriving DecidableEq, Repr

/-- The events of ANNOUNCE_EVENT (R103). -/
inductive AnnEvent where
  | started (ticket : Nat) (restart : Bool)
  | ended (ticket : Nat) (outcome : AnnOutcome)
  | dropped
  | degraded (ticket : Nat) (slots : Nat)
deriving DecidableEq, Repr

/-- An entry as GET_ANNOUNCEMENTS shows it in the queue and the stack (R102). -/
structure EntryView where
  ticket : Nat
  cls : AnnClass
  source : Source
  clipSet : Option Nat
  cue : Option Nat
  expiry : Expiry
  admitted : Clock
deriving DecidableEq, Repr

/-- The active entry as GET_ANNOUNCEMENTS shows it; `hang` is the hang timer's expiry time (R102). -/
structure ActiveView where
  entry : EntryView
  phase : Phase
  restart : Bool
  speakerVoice : Option (Fin 16)
  chimeVoice : Option (Fin 16)
  map : Option (Table SlotMap 12)
  hang : Option Clock
deriving DecidableEq, Repr

/-! ### Voice engine and read port (06 Table 6-1) -/

inductive VoiceState where
  | free | priming | playing | stopping
deriving DecidableEq, Repr

inductive Role where
  | speaker
  | slot (s : Fin 12)
deriving DecidableEq, Repr

inductive Owner where
  | stream (s : Fin 12)
  | announcement (ticket : Nat) (role : Role)
  | chime (ticket : Nat)
deriving DecidableEq, Repr

/-- A checked page: the bytes of a good one, or the silent page that replaces a failing one (R112). -/
inductive Page where
  | silent
  | audio (bytes : List Byte)
deriving DecidableEq, Repr

/-- A voice record. The last six fields are the model's own: the start page, the clip and start page of a start that waits
on a reload (R106), the moment the next page is due (R110), the samples of the page in output not yet output, and the number
of the start, which tells the reads of an earlier start from this one's (R109). -/
structure Voice where
  state : VoiceState := .free
  owner : Option Owner := none
  clip : Option Nat := none
  firstPage : Nat := 0
  pageCount : Nat := 0
  nextFetch : Nat := 0
  nextPlay : Nat := 0
  queue : List Page := []
  outstanding : Bool := false
  hold : Int := 0
  fade : Nat := 0
  underruns : Nat := 0
  starved : Nat := 0
  startPage : Nat := 0
  waiting : Option (Nat × Nat) := none
  due : Option Clock := none
  sounding : List Int := []
  serial : Nat := 0
deriving DecidableEq, Repr

inductive Requester where
  | announcement
  | stream (s : Fin 12)
deriving DecidableEq, Repr

inductive PageFault where
  | check | identity | unreadable
deriving DecidableEq, Repr

/-- The first-fault record, and the fields of STORE_FAULT (R113). -/
structure FaultRecord where
  page : Nat
  clip : Nat
  index : Nat
  kind : PageFault
  clock : Clock
deriving DecidableEq, Repr

/-- A resident buffer: `need` is the number of pages it is to hold (R107). -/
structure Resident where
  clip : Nat
  first : Nat
  need : Nat
  pages : List Page := []
deriving DecidableEq, Repr

structure VoiceEngine where
  voices : Table Voice 16 := Table.fill 16 {}
  requests : List Requester := []
  integrity : Nat := 0
  firstFault : Option FaultRecord := none
  residents : List Resident := []
deriving DecidableEq, Repr

/-- What a read at the port is for. -/
inductive ReadUse where
  | voice (v : Fin 16) (serial index : Nat)
  | route (serial index : Nat)
  | routeDirectory (index : Nat)
  | clipDirectory (index : Nat)
  | resident (buffer index : Nat)
  | lockMap (index : Nat)
  | storeRead (tag : Byte)
  | blankCheck (tag : Byte) (data : List Byte)
deriving DecidableEq, Repr

structure PortRead where
  page : Nat
  use : ReadUse
deriving DecidableEq, Repr

/-- The read port: the read being served and the waiting reads of the two classes of R118. -/
structure Port where
  serving : Option PortRead := none
  fetches : List PortRead := []
  second : List PortRead := []
deriving DecidableEq, Repr

/-! ### Clip store controller (07 Table 7-1) -/

inductive Mode where
  | run | service
deriving DecidableEq, Repr

/-- A present clip of the clip directory cache. -/
structure ClipEntry where
  clip : Nat
  first : Nat
  count : Nat
deriving DecidableEq, Repr

inductive WritePhase where
  | waiting | running | suspended
deriving DecidableEq, Repr

/-- The kinds of R127, each with what the write carries: the data, the tag of the request that its completion answers, the
sector a LOCK_PROGRAM locks, the snapshot of a SETTINGS_SAVE and whether its erase is done (R180). -/
inductive WriteKind where
  | pageProgram (data : List Byte) (tag : Byte)
  | sectorErase
  | lockProgram (target : Nat) (tag : Byte)
  | lockErase
  | settingsSave (record : List Byte) (erased : Bool)
deriving DecidableEq, Repr

/-- The name of a write's kind. -/
inductive WriteName where
  | pageProgram | sectorErase | lockProgram | lockErase | settingsSave
deriving DecidableEq, Repr

structure WriteRecord where
  kind : WriteKind
  sector : Nat
  page : Option Nat
  phase : WritePhase
deriving DecidableEq, Repr

/-- The directory pages a reload has taken so far. -/
structure Reload where
  routes : List RouteEntry := []
  clips : List ClipEntry := []
  rejected : Nat := 0
deriving DecidableEq, Repr

/-- The bytes of the clip store: (address, byte) with addresses strictly rising and no 0xFF listed (log 6). -/
abbrev Memory := List Host.Cell

/-- The controller and the store behind it; the defaults are R140's over an erased store. A flag per sector is the rising
list of the sectors that have it. -/
structure Store where
  mode : Mode := .run
  motionPending : Bool := false
  clips : List ClipEntry := []
  rejected : Nat := 0
  reload : Option Reload := none
  write : Option WriteRecord := none
  locked : List Nat := []
  lockFaults : Table Bool 4 := Table.fill 4 false
  volatileLocks : List Nat := []
  lockdowns : List Nat := []
  freeze : Bool := false
  cells : Memory := []
  interrupted : List Nat := []
deriving DecidableEq, Repr

/-! ### Mixer (08 Table 8-1) -/

inductive DestKind where
  | commentary
  | announcement (cls : AnnClass)
  | chime (cls : AnnClass)
deriving DecidableEq, Repr

structure Destination where
  kind : DestKind
  slots : List (Fin 12)
  zone : Bool
deriving DecidableEq, Repr

/-- A ramp of a factor (R149). -/
structure Ramp where
  start : Nat
  target : Nat
  length : Nat
  position : Nat := 0
  startTime : Clock
deriving DecidableEq, Repr

structure Zone where
  gain : Fin 16
  commentary : Bool
deriving DecidableEq, Repr

/-- The mixer; the defaults are R151's. -/
structure Mixer where
  destinations : Table (Option Destination) 16 := Table.fill 16 none
  microphone : Bool := false
  upper : Zone
  lower : Zone
  quiet : Bool := false
  need : Bool
  sounding : Bool := false
  duck : Nat := 32767
  duckRamp : Option Ramp := none
  output : Nat := 32767
  outputRamp : Option Ramp := none
deriving DecidableEq, Repr

/-! ### Light controller (09 Tables 9-1, 9-2) -/

inductive AnnounceClass where
  | warning | stop | none
deriving DecidableEq, Repr

/-- An active announce layer; a flash has its phase, the phase's start time and the finishing flag. -/
inductive Layer where
  | steady
  | flash (on : Bool) (since : Clock) (finishing : Bool)
deriving DecidableEq, Repr

structure Channel where
  base : Nat := 0
  scene : Option Nat := none
  announce : Option Layer := none
  output : Nat := 0
  ramp : Option Ramp := none
  duty : Nat := 0
deriving DecidableEq, Repr

/-- The light controller; the defaults are R166's. -/
structure Lights where
  master : Nat
  /-- The group masks in force, which a written setting becomes at the next change of class (R163). -/
  warningGroup : BitVec 16
  stopGroup : BitVec 16
  cls : AnnounceClass := .none
  blank : Bool := false
  channels : Table Channel 16 := Table.fill 16 {}
deriving DecidableEq, Repr

/-- A channel as GET_LIGHTS and SET_LIGHT show it (R162, R165): with its driver mode and its winning layer
(0 base, 1 scene, 2 announce). -/
structure ChannelView where
  channel : Channel
  mode : DriverMode
  winner : Fin 3
deriving DecidableEq, Repr

/-! ### Settings and power (11 Table 11-1) -/

inductive StartKind where
  | powerOn | restart | wake
deriving DecidableEq, Repr

/-- AWAKE, ENTERING and STANDBY, and the model's name for a start-up in progress. -/
inductive PowerState where
  | awake | entering | standby | starting
deriving DecidableEq, Repr

inductive EntryCause where
  | request | timer
deriving DecidableEq, Repr

inductive WakeCause where
  | ignition | ptt | link
deriving DecidableEq, Repr

structure Latches where
  ignition : Bool := false
  ptt : Bool := false
  link : Bool := false
deriving DecidableEq, Repr

/-- Settings and power; `faults` are the faults that the loading sequence has found so far, reported after STARTED (R182). -/
structure Power where
  kind : StartKind := .powerOn
  defaulted : Bool := true
  state : PowerState := .awake
  faults : List FaultRecord := []
  offTimer : Option Clock := none
  phaseEnd : Option Clock := none
  phaseOver : Bool := false
  cause : EntryCause := .request
  latches : Latches := {}
  ignition : Bool := true
  pttLine : Bool := false
deriving DecidableEq, Repr

/-! ### Message link (10 Tables 10-1, 10-2, 10-4, 10-5) -/

inductive ResultCode where
  | ok | accepted | badKind | badLength | range | wrongState | notFound | sectorProtected | inUse | queueFull
  | stale | outOfWindow | linkBusy | storeBusy | notStationary | frozen | lockedDown | linkDepth
  | notErased | busy | wakePending | merged
deriving DecidableEq, Repr

/-- The receiver state with the frame in progress (R167). -/
inductive Receiver where
  | hunt
  | length (received : List Byte)
  | frame (length : Nat) (received : List Byte)
deriving DecidableEq, Repr

/-- A request of the input queue; `taken` once its execution has begun (R171). -/
structure QueuedRequest where
  kind : Byte
  tag : Byte
  body : List Byte
  taken : Bool := false
deriving DecidableEq, Repr

/-- The link counters of Table 10-5. -/
structure Counters where
  goodFrames : BitVec 32 := 0
  reportsSent : BitVec 32 := 0
  noiseBytes : Nat := 0
  lengthErrors : Nat := 0
  crcErrors : Nat := 0
  timeouts : Nat := 0
  lineErrors : Nat := 0
  busyRefusals : Nat := 0
  busyUnanswered : Nat := 0
  reportsLost : Nat := 0
deriving DecidableEq, Repr

/-- A cue as GET_CUES shows it (R38). -/
structure CueView where
  number : Nat
  cue : Cue
  trigger : Nat
deriving DecidableEq, Repr

/-- A write record as the replies show it (R139, R176). -/
structure WriteView where
  kind : WriteName
  sector : Nat
  page : Option Nat
  phase : WritePhase
deriving DecidableEq, Repr

/-- A voice as GET_STORE_STATE shows it (R139). -/
structure VoiceView where
  state : VoiceState
  owner : Option Owner
  clip : Option Nat
  nextPlay : Nat
  pageCount : Nat
  queued : Nat
  underruns : Nat
deriving DecidableEq, Repr

/-- The reply of GET_STORE_STATE (R139). -/
structure StoreView where
  mode : Mode
  motionPending : Bool
  partition : Nat
  routeArea : Nat × Nat
  clipArea : Nat × Nat
  clipCount : Nat
  rejected : Nat
  reloading : Bool
  write : Option WriteView
  freeze : Bool
  lockFaults : Table Bool 4
  /-- For each sector of the range: map entry LOCKED, volatile lock, lockdown. -/
  sectors : List (Bool × Bool × Bool)
  integrity : Nat
  firstFault : Option FaultRecord
  voices : List VoiceView
deriving DecidableEq, Repr

/-- The reply of GET_STATUS (R176). -/
structure StatusView where
  kind : StartKind
  clock : Clock
  mode : Mode
  reloading : Bool
  routeState : RouteState
  routeNumber : Nat
  tracker : TrackerState
  engine : EngineState
  active : Option (Nat × AnnClass × Phase)
  queued : Nat
  stacked : Nat
  write : Option WriteName
  integrity : Nat
  presentBoxes : Nat
  requests : Nat
  reports : Nat
  counters : Counters
deriving DecidableEq, Repr

/-- The fields a reply carries after its result code (R172); for most of them the spec gives no byte layout (log 27). -/
inductive ReplyData where
  | none
  | fix (projected : Nat) (error : Int)
  | detour (distance : Nat)
  | position (view : PositionView)
  | cues (route : Nat) (mask : BitVec 12) (cueCount setCount sceneCount : Nat) (cues : List CueView)
  | seat (view : SeatView)
  | seatCount (changed : Nat)
  | seats (seats : List SeatView) (enabled : Table Bool 12) (counts : Table Nat 12)
  | streams (engine : EngineState) (streams : Table Stream 12) (counts : Table Nat 12)
      (positions : Table (Option Nat) 12) (cueList : List Firing) (pendingCue : Option Nat) (suspend : Option SuspendRecord)
  | ticket (ticket : Nat)
  | announcements (code ticketCounter : Nat) (pressed : Bool) (active : Option ActiveView) (queue stack : List EntryView)
  | storePage (bytes : Option (List Byte))
  | storeState (view : StoreView)
  | zones (upper lower : Zone) (quiet need sounding : Bool) (duck : Nat)
  | light (view : ChannelView)
  | lights (master : Nat) (cls : AnnounceClass) (blank : Bool) (warningGroup stopGroup : BitVec 16)
      (bankA bankB : BankRate) (channels : List ChannelView)
  | status (view : StatusView)
  | setting (id : Byte) (active : List Byte) (inForce : Option (List Byte))
deriving DecidableEq, Repr

/-- A reply; `order` is the place in which it was formed, `byLink` marks the link's own LINK_BUSY (R173, R174). -/
structure Reply where
  kind : Byte
  tag : Byte
  code : ResultCode
  data : ReplyData := .none
  order : Nat
  byLink : Bool := false
deriving DecidableEq, Repr

/-- The reports of 10 Table 10-4 with the fields their chapters give. -/
inductive Report where
  | started (kind : StartKind) (defaulted : Bool) (latches : Latches) (clips routes : Nat) (clock : Clock)
  | position (view : PositionView)
  | routeReady (route cueCount setCount sceneCount : Nat) (mask : BitVec 12)
  | routeFailed (route : Nat) (reason : RouteFailure)
  | cueEvent (event : CueEvent) (cue : Nat) (kind : CueKind) (forced : Bool) (chainage : Nat) (clock : Clock)
  | announceEvent (event : AnnEvent) (cls : AnnClass) (source : Source) (cue : Option Nat) (clock : Clock)
  | boxEvent (box : Fin 16) (found : Option (Table Bool 4)) (clock : Clock)
  | listeners (counts : Table Nat 12) (clock : Clock)
  | commentaryEvent (event : CommentaryEvent) (cue : Nat) (clock : Clock)
  | storeDone (lockErase : Bool) (sector : Nat) (clock : Clock)
  | storeFault (fault : FaultRecord)
  | directoryReady (clips rejected routes : Nat) (clock : Clock)
  | serviceLeft (speed : Nat) (clock : Clock)
  | settingsSaved (clock : Clock)
  | standbyAborted (wake : WakeCause) (cause : EntryCause) (clock : Clock)
deriving DecidableEq, Repr

/-- A frame on its way out. -/
inductive OutFrame where
  | reply (r : Reply)
  | report (r : Report)
deriving DecidableEq, Repr

/-- The message link; the defaults are R178's. -/
structure Link where
  receiver : Receiver := .hunt
  lastByte : Clock := 0
  input : List QueuedRequest := []
  busy : List Reply := []
  replies : List Reply := []
  reports : List Report := []
  sending : Option OutFrame := none
  counters : Counters := {}
  formed : Nat := 0
deriving DecidableEq, Repr

/-! ### The whole part -/

/-- The state of the part. -/
structure State where
  /-- The commands that wait, first in, first out. -/
  pending : List Instr := []
  clock : Clock := 0
  pulseTimer : BitVec 32 := 0
  /-- A 250 ms multiple has been reached and its SPEED_WINDOW not yet taken (R6). -/
  windowDue : Bool := false
  /-- This millisecond's poll has not been sent yet (R41, log 9). -/
  pollDue : Bool := true
  /-- The number of free values used so far (log 3, log 7). -/
  freeSerial : Nat := 0
  tracker : Tracker := {}
  cues : CueEngine := {}
  seats : SeatTable
  comm : Commentary
  ann : Announcements := {}
  voices : VoiceEngine := {}
  port : Port := {}
  store : Store := {}
  mixer : Mixer
  lights : Lights
  link : Link := {}
  power : Power := {}
  settings : Settings := {}
  inForce : InForce := {}
deriving DecidableEq, Repr

/-- No command of this part ends in a fault: a refused request is answered by a result code (R172) and nothing else stops. -/
inductive Fault where
deriving DecidableEq, Repr

/-- Why a command has no meaning here. -/
inductive Refusal where
  /-- Raised by `exec` alone, for a command not modelled yet; safe: the machine stops. -/
  | notModelled (mnemonic : String)
deriving DecidableEq, Repr

/-- What a command answers. -/
abbrev Result := Host.Outcome State Fault Refusal

/-- The part right after reset: a POWER_ON start-up completed over an erased store, whose settings are the defaults and whose
directories and lock map are empty (R20, R40, R60, R80, R104, R121, R140, R151, R166, R178, R182, log 1). -/
def State.reset : State where
  tracker := { reportTimer := some 1000 }
  seats :=
    { seats := Table.fill 64 { chosen := 0, volume := 8, served := some 0, effective := 8 }
      enabled := (Table.fill 12 false).set 0 true }
  comm :=
    { streams := (Table.fill 12 { state := .off, demand := false }).set 0 { state := .quiet, demand := true } }
  mixer :=
    { upper := { gain := 12, commentary := true }, lower := { gain := 12, commentary := true }, need := true }
  lights := { master := 4095, warningGroup := 0x000F, stopGroup := 0x0030 }
  link := { sending := some (.report (.started .powerOn true {} 0 0 0)) }

end Sys2Proof.Machine
end

