-- ==== Sys2Proof/Config.lean ====
section
/-! DEFINITION. The free values: what the spec leaves open and the machine goes on with. None has a body, so nothing can be
proved of one. -/

namespace Sys2Proof.Config

/-- The order of events that fall due at one moment, which the spec leaves open rule by rule (R6, R65, R149, R155, R159,
R183, R185 ...): where the event goes among those already placed. DESIGN CHOICE (log 3). -/
opaque eventOrder : Nat → Nat → Nat

/-- A byte of a page read while its sector is being erased (R112, R119): `serial` tells the reads apart, `offset` is the place
in the page. DESIGN CHOICE (log 7). -/
opaque partlyErased : (serial offset : Nat) → BitVec 8

/-- Whether the store reports the settings page unreadable when a start-up reads it (R181); `serial` tells the reads apart.
DESIGN CHOICE (log 8). -/
opaque settingsReadFails : (serial : Nat) → Bool

/-- Whether a request kind whose field widths the spec does not give admits a body of this length (R171).
DESIGN CHOICE (log 5). -/
opaque admitsLength : (kind length : Nat) → Bool

/-- The command that a request body spells, for the kinds whose body layout the spec does not give (R171).
DESIGN CHOICE (log 5). -/
opaque readBody : (kind tag : Byte) → List Byte → Option Instr

/-- The bytes of a reply's fields after its result code, where the spec names the fields and gives no layout (R172).
DESIGN CHOICE (log 27). -/
opaque replyFields : Machine.ReplyData → List Byte

/-- The bytes of a report's fields (R175, Table 10-4), whose layouts the spec does not give. DESIGN CHOICE (log 27). -/
opaque reportFields : Machine.Report → List Byte

end Sys2Proof.Config
end

