-- ==== Sys2Proof/Machine/Bytes.lean ====
section
/-! DEFINITION. Bytes, fields, the CRC-16 and clock arithmetic: the helpers under every layout and every timer. -/

namespace Sys2Proof.Machine

/-- The number that bytes spell, most significant first (12, opening). -/
def beNat (bytes : List Byte) : Nat := bytes.foldl (fun n b => n * 256 + b.toNat) 0

/-- The `size` bytes from `offset` on, as a number. -/
def field (bytes : List Byte) (offset size : Nat) : Nat := beNat ((bytes.drop offset).take size)

/-- `n` in `width` bytes, most significant first. -/
def beBytes : (width n : Nat) → List Byte
  | 0, _ => []
  | w + 1, n => BitVec.ofNat 8 (n / 256 ^ w) :: beBytes w n

/-- The value of a 16-bit field in two's complement. -/
def signed16 (n : Nat) : Int := if n < 32768 then (n : Int) else (n : Int) - 65536

/-- One bit into the CRC register (R187). -/
def crcBit (r : BitVec 16) (b : Bool) : BitVec 16 :=
  if r.msb == b then r <<< 1 else (r <<< 1) ^^^ 0x1021#16

/-- One byte into the CRC register, most significant bit first (R187). -/
def crcByte (r : BitVec 16) (b : Byte) : BitVec 16 :=
  [7, 6, 5, 4, 3, 2, 1, 0].foldl (fun r i => crcBit r (b.getLsbD i)) r

/-- The CRC-16 of R187: generator 0x1021, start 0xFFFF, no inversion. -/
def crc16 (bytes : List Byte) : BitVec 16 := bytes.foldl crcByte 0xFFFF

/-- Whether the clock has reached the moment `t`: differences of time are taken modulo 2^32, and a moment up to 2^31 behind
counts as reached (log 16). -/
def reached (now t : Clock) : Bool := decide (elapsed now t < 2 ^ 31)

/-- The moment `ms` milliseconds after `t`. -/
def after (t : Clock) (ms : Nat) : Clock := t + BitVec.ofNat 32 ms

/-- The later of two moments. -/
def later (a b : Clock) : Clock := if reached a b then a else b

/-- A count that saturates at 65,535. -/
def bump (n : Nat) : Nat := min (n + 1) 65535

/-- The top of the chainage range (00 section 4.1). -/
def maxChainage : Nat := 999999999

/-- `x` with its magnitude limited to `limit`. -/
def clampInt (x : Int) (limit : Nat) : Int := max (-(limit : Int)) (min x limit)

/-- A rising list of sectors with `x` added. -/
def setAdd : List Nat → Nat → List Nat
  | [], x => [x]
  | y :: rest, x => if x < y then x :: y :: rest else if x = y then y :: rest else y :: setAdd rest x

/-- A rising list of sectors with `x` taken out. -/
def setRemove (l : List Nat) (x : Nat) : List Nat := l.filter (· ≠ x)

end Sys2Proof.Machine
end

