-- ==== Sys2Proof/WellFormed.lean ====
section
/-! DEFINITION. Which commands can be sent at all. A request's fields are not restricted here: an out-of-range field is
refused by the part itself, with a result code. -/

namespace Sys2Proof

/-- The request kinds of 10 Table 10-3. -/
def requestKinds : List Nat :=
  [0x01, 0x02, 0x03, 0x04, 0x05, 0x06, 0x10, 0x11, 0x12, 0x13, 0x14, 0x15, 0x16, 0x18, 0x19, 0x1A, 0x1B,
   0x20, 0x21, 0x22, 0x23, 0x24, 0x28, 0x29, 0x2A, 0x2B, 0x2C,
   0x30, 0x31, 0x32, 0x33, 0x34, 0x35, 0x36, 0x37, 0x38, 0x39, 0x3A]

/-- A pulse falls within its millisecond, a page carries 512 bytes (R129), and BAD_KIND is for kinds outside Table 10-3
(R171). Every other command is well formed. -/
def Instr.wellFormed : Instr → Bool
  | .odometerPulse micros => decide (micros < 1000)
  | .storeProgram _ _ data => decide (data.length = 512)
  | .badKind _ kind => !(requestKinds.contains kind.toNat)
  | _ => true

end Sys2Proof
end

