-- ==== Sys2Proof/Machine/Ops.lean ====
section
/-! DEFINITION. The named operations every family uses: the clip store's bytes, the report queue, replies and the
transmitter, and the taking of a request. -/

namespace Sys2Proof.Machine

/-! ### The clip store's bytes (log 6) -/

/-- What an unlisted address reads as: an erased byte. -/
def erasedByte : Byte := 0xFF

/-- The byte at an address. -/
def Memory.read : Memory → Nat → Byte
  | [], _ => erasedByte
  | c :: rest, a => if c.1 = a then c.2 else Memory.read rest a

/-- The store with one byte replaced, in canonical form. -/
def Memory.write : Memory → Nat → Byte → Memory
  | [], a, b => if b = erasedByte then [] else [(a, b)]
  | c :: rest, a, b =>
    if a < c.1 then (if b = erasedByte then c :: rest else (a, b) :: c :: rest)
    else if a = c.1 then (if b = erasedByte then rest else (a, b) :: rest)
    else c :: Memory.write rest a b

/-- `n` bytes from address `a` on, of a store in canonical form. -/
def Memory.readRun (m : Memory) (a : Nat) : Nat → List Byte
  | 0 => []
  | n + 1 =>
    match m.dropWhile (fun c => c.1 < a) with
    | [] => erasedByte :: Memory.readRun [] (a + 1) n
    | c :: rest =>
      if c.1 = a then c.2 :: Memory.readRun rest (a + 1) n
      else erasedByte :: Memory.readRun (c :: rest) (a + 1) n

/-- Programming turns bits from 1 to 0 only (07, opening): the bytes at `a` on become their and with the data. -/
def Memory.program (m : Memory) (a : Nat) : List Byte → Memory
  | [] => m
  | d :: ds => Memory.program (m.write a (m.read a &&& d)) (a + 1) ds

/-- The bytes of one sector: 512 pages of 512 bytes (00 section 4.1). -/
def sectorBytes : Nat := 262144

/-- Erasing a sector sets every byte of it to 0xFF (07, opening). -/
def Memory.eraseSector (m : Memory) (sector : Nat) : Memory :=
  m.filter fun c => decide (c.1 / sectorBytes ≠ sector)

/-- The canonical form: addresses strictly rising, below 2^29, and no erased byte listed. -/
def Memory.wf : Memory → Bool
  | [] => true
  | [c] => decide (c.1 < 2 ^ 29) && decide (c.2 ≠ erasedByte)
  | c :: d :: rest => decide (c.1 < d.1) && decide (c.2 ≠ erasedByte) && Memory.wf (d :: rest)

/-- The sector of an absolute page. -/
def sectorOf (page : Nat) : Nat := page / 512

/-- Whether a sector is one whose erase has begun and not completed (R119, R138). -/
def Store.erasing (st : Store) (sector : Nat) : Bool :=
  match st.write with
  | none => false
  | some w =>
    decide (w.sector = sector) && decide (w.phase ≠ .waiting) &&
      (match w.kind with
       | .sectorErase | .lockErase => true
       | .settingsSave _ erased => !erased
       | _ => false)

/-- A page as the store returns it to a read: `none` when the store reports it unreadable (`failed`, or an interrupted
sector, R138), free bytes while its sector is being erased (R112), its bytes otherwise. The state counts the free value. -/
def State.readPage (s : State) (page : Nat) (failed : Bool) : Option (List Byte) × State :=
  if failed || s.store.interrupted.contains (sectorOf page) then (none, s)
  else if s.store.erasing (sectorOf page) then
    (some ((List.range 512).map (Config.partlyErased s.freeSerial)), { s with freeSerial := s.freeSerial + 1 })
  else (some (s.store.cells.readRun (page * 512) 512), s)

/-! ### Reports, replies and the transmitter (10) -/

/-- Whether a report is a POSITION report. -/
def Report.isPosition : Report → Bool
  | .position _ => true
  | _ => false

/-- A report joins the tail of the report queue; a full queue gives up its oldest POSITION report, or the new report is
discarded (R175). -/
def Link.report (l : Link) (r : Report) : Link :=
  if l.reports.length < 16 then { l with reports := l.reports ++ [r] }
  else
    { l with
      reports := if l.reports.any Report.isPosition then l.reports.eraseP Report.isPosition ++ [r] else l.reports
      counters := { l.counters with reportsLost := bump l.counters.reportsLost } }

/-- Hands a report to the link. -/
def State.report (s : State) (r : Report) : State := { s with link := s.link.report r }

/-- The reply kind of a request kind (R172). -/
def replyKind (kind : Byte) : Byte := if kind.toNat < 0x80 then kind + 0x80 else 0xFF

/-- A formed reply joins the reply list (R171). -/
def Link.reply (l : Link) (kind tag : Byte) (code : ResultCode) (data : ReplyData) : Link :=
  { l with
    replies := l.replies ++ [{ kind := replyKind kind, tag := tag, code := code, data := data, order := l.formed }]
    formed := l.formed + 1 }

/-- Forms a reply; a refusal carries the result code alone (R172). -/
def State.reply (s : State) (kind : Nat) (tag : Byte) (code : ResultCode) (data : ReplyData := .none) : State :=
  { s with link := s.link.reply (BitVec.ofNat 8 kind) tag code data }

/-- An idle transmitter takes the oldest waiting reply of the busy list and the reply list together, then the report at the
head of the report queue (R174). -/
def Link.kick (l : Link) : Link :=
  match l.sending with
  | some _ => l
  | none =>
    match l.busy, l.replies with
    | b :: bs, r :: rs =>
      if b.order < r.order then { l with sending := some (.reply b), busy := bs }
      else { l with sending := some (.reply r), replies := rs }
    | b :: bs, [] => { l with sending := some (.reply b), busy := bs }
    | [], r :: rs => { l with sending := some (.reply r), replies := rs }
    | [], [] =>
      match l.reports with
      | p :: ps => { l with sending := some (.report p), reports := ps }
      | [] => l

/-- The end of an event that concerns the link alone: the transmitter looks for work, here and not earlier in the event
(log 41). -/
def State.kick (s : State) : State := { s with link := s.link.kick }

/-- The values of Table 10-2. -/
def ResultCode.value : ResultCode → Nat
  | .ok => 0 | .accepted => 1 | .badKind => 2 | .badLength => 3 | .range => 4 | .wrongState => 5 | .notFound => 6
  | .sectorProtected => 7 | .inUse => 8 | .queueFull => 9 | .stale => 10 | .outOfWindow => 11 | .linkBusy => 12
  | .storeBusy => 13 | .notStationary => 14 | .frozen => 15 | .lockedDown => 16 | .linkDepth => 17 | .notErased => 18
  | .busy => 19 | .wakePending => 20 | .merged => 21

/-! ### When the part runs, and the taking of a request -/

/-- Whether the blocks run: in STANDBY and during a start-up they do not (R181, R186, log 18). -/
def State.running (s : State) : Bool :=
  match s.power.state with
  | .awake | .entering => true
  | .standby | .starting => false

/-- The request at the head of the queue that has not been taken, if it is this one, becomes taken (R171, log 4). -/
def takeFirst (kind tag : Byte) : List QueuedRequest → List QueuedRequest
  | [] => []
  | q :: qs =>
    if q.taken then q :: takeFirst kind tag qs
    else if q.kind = kind ∧ q.tag = tag then { q with taken := true } :: qs
    else q :: qs

/-- The first request of the input queue not yet taken. -/
def Link.nextRequest (l : Link) : Option QueuedRequest := l.input.find? fun q => !q.taken

/-- The request kinds without fields (R171): their bodies are empty. -/
def emptyKinds : List Nat := [0x02, 0x03, 0x06, 0x11, 0x12, 0x13, 0x1B, 0x22, 0x2A, 0x2C, 0x30, 0x31, 0x35, 0x37, 0x38, 0x3A]

/-- The widths of Table 12-9 by identifier; `none` for an unknown one. -/
def settingWidth (id : Nat) : Option Nat :=
  if id ∈ [1, 3, 4, 5, 7] then some 4
  else if id ∈ [2, 6, 17, 18, 19, 20, 21, 22, 23, 24, 25] then some 2
  else if id ∈ [8, 10, 11, 12, 13, 14, 15, 27, 28] then some 1
  else if id = 9 then some 24
  else if id = 16 then some 6
  else if id = 26 then some 16
  else if id = 29 then some 8
  else none

/-- Whether a kind admits a body (R171, log 5, log 23): no field, no byte; GET_SETTING an identifier; SET_SETTING an
identifier and the width of its setting; STORE_PROGRAM more than its 512 bytes of data; the other kinds as their open layouts
have it, but never an empty body where a field is not optional. -/
def admits (kind : Nat) (body : List Byte) : Bool :=
  if kind ∈ emptyKinds then body.isEmpty
  else if kind = 0x01 then body.isEmpty || Config.admitsLength kind body.length
  else if kind = 0x04 then decide (body.length = 1)
  else if kind = 0x05 then
    match body with
    | [] => false
    | id :: value =>
      match settingWidth id.toNat with
      | some w => decide (value.length = w)
      | none => true
  else if kind = 0x24 then Config.admitsLength kind body.length
  else if kind = 0x33 then decide (512 < body.length) && Config.admitsLength kind body.length
  else !body.isEmpty && Config.admitsLength kind body.length

/-! ### One request at a time (R171) -/

/-- Whether a read at the port is one that a reply waits for. -/
def ReadUse.owesReply : ReadUse → Bool
  | .storeRead _ | .blankCheck _ _ => true
  | _ => false

/-- Whether a write is one that a reply waits for. -/
def WriteKind.owesReply : WriteKind → Bool
  | .pageProgram _ _ | .lockProgram _ _ => true
  | _ => false

/-- Whether a request taken earlier has not formed its reply yet (R171). -/
def State.replyOwed (s : State) : Bool :=
  (s.port.serving.any fun r : PortRead => r.use.owesReply) || (s.port.second.any fun r : PortRead => r.use.owesReply) ||
    s.store.write.any fun w : WriteRecord => w.kind.owesReply

/-- Whether it is the turn of a request of this kind and tag: the blocks run, the request before it has formed its reply, and
no other request is before it in the input queue (R171, log 4). -/
def State.turnOf (s : State) (kind tag : Byte) : Bool :=
  s.running && !s.replyOwed && s.link.nextRequest.all fun q => decide (q.kind = kind) && decide (q.tag = tag)

/-- The taking of a request of this kind and tag by its owning block (R171, log 4): out of its turn there is none; a queued
frame of it becomes taken, and is answered BAD_LENGTH if its body length does not suit; otherwise the owner acts. -/
def State.request (s : State) (kind : Nat) (tag : Byte) (owner : State → State) : State :=
  if s.turnOf (BitVec.ofNat 8 kind) tag then
    let taken := { s with link := { s.link with input := takeFirst (BitVec.ofNat 8 kind) tag s.link.input } }
    match s.link.nextRequest with
    | some q =>
      if admits kind q.body = false then (taken.reply kind tag .badLength).kick else owner taken
    | none => owner taken
  else s

end Sys2Proof.Machine
end

