-- ==== Sys2Proof/Machine/Frames.lean ====
section
/-! DEFINITION. The bytes of the frames the part sends (12 Table 12-1): the kinds of Table 10-4, the bodies as far as the spec
lays them out, and the check. -/

namespace Sys2Proof.Machine

/-- The start byte. -/
def startByte : Byte := 0xA5

/-- A frame from its start byte to its last check byte (Table 12-1): the CRC-16 covers length, kind, tag and body (R187). -/
def frameBytes (kind tag : Byte) (body : List Byte) : List Byte :=
  let covered := beBytes 2 (body.length + 2) ++ kind :: tag :: body
  startByte :: covered ++ beBytes 2 (crc16 covered).toNat

/-- The kind codes of Table 10-4. -/
def Report.kind : Report → Byte
  | .started _ _ _ _ _ _ => 0x40
  | .position _ => 0x41
  | .routeReady _ _ _ _ _ => 0x42
  | .routeFailed _ _ => 0x43
  | .cueEvent _ _ _ _ _ _ => 0x44
  | .announceEvent _ _ _ _ _ => 0x45
  | .boxEvent _ _ _ => 0x46
  | .listeners _ _ => 0x47
  | .commentaryEvent _ _ _ => 0x48
  | .storeDone _ _ _ => 0x49
  | .storeFault _ => 0x4A
  | .directoryReady _ _ _ _ => 0x4B
  | .serviceLeft _ _ => 0x4C
  | .settingsSaved _ => 0x4D
  | .standbyAborted _ _ _ => 0x4E

/-- The fields of a reply in bytes: none, or setting values after their identifier in the widths of Table 12-9; the other
replies' fields have no layout in the spec (log 27). -/
def ReplyData.bytes : ReplyData → List Byte
  | .none => []
  | .setting id active inForce => id :: active ++ inForce.getD []
  | data => Config.replyFields data

/-- A reply's body: the result code in one byte, then the fields (R172, Table 12-1). -/
def Reply.body (r : Reply) : List Byte := BitVec.ofNat 8 r.code.value :: r.data.bytes

/-- A frame on its way out, in bytes: a reply under its kind and tag (R172), a report under its kind and tag 0 (R175). -/
def OutFrame.bytes : OutFrame → List Byte
  | .reply r => frameBytes r.kind r.tag r.body
  | .report r => frameBytes r.kind 0 (Config.reportFields r)

/-- What the transmitter sends: the bytes of the frame it holds, from start byte to check without a gap; nothing when it is
idle (R174). -/
def Link.lineBytes (l : Link) : List Byte := l.sending.elim [] OutFrame.bytes

end Sys2Proof.Machine
end

