-- ==== Sys2Proof/Machine/Position.lean ====
section
/-! DEFINITION. What the tracker's state says to the other blocks: the stationary test, leads, triggers and the fit check. -/

namespace Sys2Proof.Machine

/-- The bus is stationary while the speed is less than the crawl speed (R7). -/
def State.stationary (s : State) : Bool := decide (s.tracker.speed < s.settings.crawlSpeed)

/-- The lead of a mark (R8). -/
def State.lead (s : State) (mark : Nat) : Nat :=
  if s.stationary then 0 else min (s.tracker.speed * mark / 1000) s.settings.maxLead

/-- The trigger of a cue: its anchor minus its lead, floored at 0 (R29). -/
def State.trigger (s : State) (c : Cue) : Nat := c.anchor - s.lead c.mark

/-- The triggers of the ARMED STOP cues that lie above the chainage (R37). -/
def State.stopTriggers (s : State) : List Nat :=
  ((s.cues.cues.filter fun c => decide (c.state = .armed) && decide (c.kind = .stop)).map s.trigger).filter
    (s.tracker.chainage < ·)

/-- The fit result: the remaining time in ms, `none` for the unbounded result (R37). -/
def State.fitResult (s : State) : Option Nat :=
  if s.tracker.state ≠ .placed ∨ s.stationary = true ∨ s.tracker.speed = 0 then none
  else
    match s.stopTriggers.min? with
    | none => none
    | some t => some (min ((t - s.tracker.chainage) * 1000 / s.tracker.speed) 4294967294)

/-- The fields of GET_POSITION and POSITION, read at one moment (R18, R19). -/
def State.positionView (s : State) : PositionView :=
  { state := s.tracker.state, chainage := s.tracker.chainage, residue := s.tracker.residue
    correction := s.tracker.correction, travel := s.tracker.travel, stamp := s.tracker.stamp, speed := s.tracker.speed
    stationary := s.stationary, detour := s.tracker.detour, noise := s.tracker.noise, clock := s.clock }

end Sys2Proof.Machine
end

