-- ==== Sys2Proof/Machine/SettingsCodec.lean ====
section
/-! DEFINITION. Setting values in the widths and codes of 12 Table 12-9, and the stored-settings record (12 section 12.6). -/

namespace Sys2Proof.Machine

/-- Language tag `i` of a tags value: `none` when it is neither empty nor two capital letters (R179). -/
def readTag (v : List Byte) (i : Nat) : Option (Option LanguageTag) :=
  let a := field v (2 * i) 1
  let b := field v (2 * i + 1) 1
  if a = 0 ∧ b = 0 then some none
  else if h : (65 ≤ a ∧ a < 91) ∧ (65 ≤ b ∧ b < 91) then some (some ⟨⟨a - 65, by omega⟩, ⟨b - 65, by omega⟩⟩)
  else none

/-- The bytes of a tag. -/
def tagBytes : Option LanguageTag → List Byte
  | none => [0, 0]
  | some t => [BitVec.ofNat 8 (t.first.val + 65), BitVec.ofNat 8 (t.second.val + 65)]

def BankRate.ofCode : Nat → Option BankRate
  | 0 => some .hz200 | 1 => some .hz400 | 2 => some .hz800 | 3 => some .hz1600 | _ => none

def BankRate.code : BankRate → Nat
  | .hz200 => 0 | .hz400 => 1 | .hz800 => 2 | .hz1600 => 3

def DriverMode.ofCode : Nat → Option DriverMode
  | 0 => some .pushPull | 1 => some .openDrain | 2 => some .off | _ => none

def DriverMode.code : DriverMode → Nat
  | .pushPull => 0 | .openDrain => 1 | .off => 2

def LinkRate.ofCode : Nat → Option LinkRate
  | 0 => some .r115200 | 1 => some .r230400 | 2 => some .r460800 | _ => none

def LinkRate.code : LinkRate → Nat
  | .r115200 => 0 | .r230400 => 1 | .r460800 => 2

def boolOfCode : Nat → Option Bool
  | 0 => some false | 1 => some true | _ => none

/-- `n` if it lies in the range. -/
def inRange (n lo hi : Nat) : Option Nat := if lo ≤ n ∧ n ≤ hi then some n else none

/-- A number as an index below `k`. -/
def asFin (k n : Nat) : Option (Fin k) := if h : n < k then some ⟨n, h⟩ else none

/-- The settings with setting `id` written from its bytes; `none` when a part lies outside the range of Table 11-2. -/
def Settings.write (g : Settings) (id : Nat) (v : List Byte) : Option Settings :=
  let n := beNat v
  match id with
  | 1 => (inRange n 1000 999999).map fun x => { g with pulseLength := x }
  | 2 => (inRange n 100 20000).map fun x => { g with pulseSpacing := x }
  | 3 => (inRange n 0 100000).map fun x => { g with slewLimit := x }
  | 4 => (inRange n 10000 1000000).map fun x => { g with rearmDistance := x }
  | 5 => (inRange n 0 500000).map fun x => { g with maxLead := x }
  | 6 => (inRange n 0 2000).map fun x => { g with crawlSpeed := x }
  | 7 => (inRange n 0 2000000).map fun x => { g with resumeLimit := x }
  | 8 => (inRange n 0 15).map fun x => { g with resumeRewind := x }
  | 9 =>
    if (List.range 12).all fun i => (readTag v i).isSome then
      some { g with languageTags := Table.ofFn fun i => (readTag v i.val).getD none }
    else none
  | 10 => (asFin 12 n).map fun x => { g with defaultSlot := x }
  | 11 => (asFin 12 n).map fun x => { g with speakerSlot := x }
  | 12 => (inRange n 0 15).map fun x => { g with defaultVolume := x }
  | 13 => (inRange n 0 15).map fun x => { g with warningFloor := x }
  | 14 => (asFin 16 n).map fun x => { g with duckDepth := x }
  | 15 => (asFin 6 n).map fun x => { g with precedenceCode := x }
  | 16 =>
    if field v 0 2 ≤ 4095 ∧ field v 2 2 ≤ 4095 ∧ field v 4 2 ≤ 4095 then
      some { g with stopChime := field v 0 2, noticeChime := field v 2 2, warningChime := field v 4 2 }
    else none
  | 17 => (inRange n 0 2000).map fun x => { g with liveHang := x }
  | 18 => if n = 0 ∨ (100 ≤ n ∧ n ≤ 10000) then some { g with positionPeriod := n } else none
  | 19 => (inRange n 0 3600).map fun x => { g with standbyDelay := x }
  | 20 =>
    match asFin 16 (field v 0 1), asFin 16 (field v 1 1) with
    | some u, some l => some { g with upperGain := u, lowerGain := l }
    | _, _ => none
  | 21 =>
    match boolOfCode (field v 0 1), boolOfCode (field v 1 1) with
    | some u, some l => some { g with upperCommentary := u, lowerCommentary := l }
    | _, _ => none
  | 22 => some { g with warningGroup := BitVec.ofNat 16 n }
  | 23 => some { g with stopGroup := BitVec.ofNat 16 n }
  | 24 => (inRange n 0 4095).map fun x => { g with masterLevel := x }
  | 25 =>
    match BankRate.ofCode (field v 0 1), BankRate.ofCode (field v 1 1) with
    | some a, some b => some { g with bankA := a, bankB := b }
    | _, _ => none
  | 26 =>
    if (List.range 16).all fun i => (DriverMode.ofCode (field v i 1)).isSome then
      some { g with driverModes := Table.ofFn fun i => (DriverMode.ofCode (field v i.val 1)).getD .off }
    else none
  | 27 => (asFin 16 n).map fun x => { g with partition := x }
  | 28 => (LinkRate.ofCode n).map fun x => { g with linkRate := x }
  | 29 =>
    if (List.range 4).all fun i => field v (2 * i) 2 ≤ 4095 then
      some { g with residentList := Table.ofFn fun i => field v (2 * i.val) 2 }
    else none
  | _ => none

/-- The bytes of setting `id`; empty for an unknown identifier. -/
def Settings.read (g : Settings) (id : Nat) : List Byte :=
  match id with
  | 1 => beBytes 4 g.pulseLength
  | 2 => beBytes 2 g.pulseSpacing
  | 3 => beBytes 4 g.slewLimit
  | 4 => beBytes 4 g.rearmDistance
  | 5 => beBytes 4 g.maxLead
  | 6 => beBytes 2 g.crawlSpeed
  | 7 => beBytes 4 g.resumeLimit
  | 8 => beBytes 1 g.resumeRewind
  | 9 => g.languageTags.list.flatMap tagBytes
  | 10 => beBytes 1 g.defaultSlot
  | 11 => beBytes 1 g.speakerSlot
  | 12 => beBytes 1 g.defaultVolume
  | 13 => beBytes 1 g.warningFloor
  | 14 => beBytes 1 g.duckDepth
  | 15 => beBytes 1 g.precedenceCode
  | 16 => beBytes 2 g.stopChime ++ beBytes 2 g.noticeChime ++ beBytes 2 g.warningChime
  | 17 => beBytes 2 g.liveHang
  | 18 => beBytes 2 g.positionPeriod
  | 19 => beBytes 2 g.standbyDelay
  | 20 => beBytes 1 g.upperGain ++ beBytes 1 g.lowerGain
  | 21 => beBytes 1 g.upperCommentary.toNat ++ beBytes 1 g.lowerCommentary.toNat
  | 22 => beBytes 2 g.warningGroup.toNat
  | 23 => beBytes 2 g.stopGroup.toNat
  | 24 => beBytes 2 g.masterLevel
  | 25 => beBytes 1 g.bankA.code ++ beBytes 1 g.bankB.code
  | 26 => g.driverModes.list.flatMap fun m => beBytes 1 m.code
  | 27 => beBytes 1 g.partition
  | 28 => beBytes 1 g.linkRate.code
  | 29 => g.residentList.list.flatMap (beBytes 2)
  | _ => []

/-- The five start-up-only settings (11 section 11.1). -/
def startUpOnly (id : Nat) : Bool := decide (25 ≤ id ∧ id ≤ 29)

/-- The in-force values as settings, to be read in the same encoding. -/
def InForce.asSettings (f : InForce) : Settings :=
  { bankA := f.bankA, bankB := f.bankB, driverModes := f.driverModes, partition := f.partition, linkRate := f.linkRate
    residentList := f.residentList }

/-- The in-force values that a start-up takes from the active settings (R181). -/
def Settings.inForce (g : Settings) : InForce :=
  { bankA := g.bankA, bankB := g.bankB, driverModes := g.driverModes, partition := g.partition, linkRate := g.linkRate
    residentList := g.residentList }

/-- The identifiers in order. -/
def settingIds : List Nat := (List.range 29).map (· + 1)

/-- Writes the settings of `ids` one after another from consecutive bytes; `none` when one decodes outside its range. -/
def Settings.writeAll (g : Settings) : List Nat → List Byte → Option Settings
  | [], _ => some g
  | id :: ids, bytes =>
    let w := (settingWidth id).getD 0
    match g.write id (bytes.take w) with
    | none => none
    | some g' => Settings.writeAll g' ids (bytes.drop w)

/-- The 512 bytes of the stored-settings record (12 section 12.6): marker, fields, fill, CRC. -/
def Settings.record (g : Settings) : List Byte :=
  let fields := beBytes 2 0x5E11 ++ settingIds.flatMap g.read
  let body := fields ++ List.replicate (510 - fields.length) 0
  body ++ beBytes 2 (crc16 body).toNat

/-- The settings of a stored record, `none` when it fails its check (R181, 12 section 12.6). -/
def Settings.ofRecord (page : List Byte) : Option Settings :=
  if field page 0 2 = 0x5E11 ∧ field page 510 2 = (crc16 (page.take 510)).toNat then
    Settings.writeAll {} settingIds (page.drop 2)
  else none

end Sys2Proof.Machine
end

