-- ==== Sys2Proof/Machine/Layouts.lean ====
section
/-! DEFINITION. The record layouts of chapter 12: pages, directories and route programs. -/

namespace Sys2Proof.Machine

/-! ### Pages (12 section 12.2) -/

/-- The check of a page with a trailer: its CRC-16, then its identity number and page index (R25, R112). -/
def pageFault (page : List Byte) (identity index : Nat) : Option PageFault :=
  if field page 510 2 ≠ (crc16 (page.take 510)).toNat then some .check
  else if field page 506 2 ≠ identity ∨ field page 508 2 ≠ index then some .identity
  else none

/-- What is wrong with a page as read: `none` for the bytes means the store reported it unreadable (R112). -/
def readFault (page : Option (List Byte)) (identity index : Nat) : Option PageFault :=
  match page with
  | none => some .unreadable
  | some bytes => pageFault bytes identity index

/-! ### The areas of the store (R122) -/

/-- The first page after the route area of partition `n`; the area begins at page 512. -/
def routeAreaEnd (n : Nat) : Nat := 512 * (16 * n + 17)

/-- The directory sector of partition `n`. -/
def directorySector (n : Nat) : Nat := 16 * n + 17

/-- The first page of the clip area after its directory sector. -/
def clipPagesBegin (n : Nat) : Nat := 512 * (16 * n + 18)

/-- The first page after the clip area. -/
def clipPagesEnd : Nat := 512 * 2047

/-- Whether an extent has a page and lies wholly inside pages `lo` to `hi - 1`. -/
def Extent.inside (e : Extent) (lo hi : Nat) : Bool := decide (1 ≤ e.count ∧ lo ≤ e.first ∧ e.first + e.count ≤ hi)

/-! ### Directories (12 sections 12.3, 12.4) -/

/-- The PRESENT routes of route directory page `index` (R21). -/
def routesOfPage (partition : Nat) (page : Option (List Byte)) (index : Nat) : List RouteEntry :=
  match page with
  | none => []
  | some bytes =>
    if pageFault bytes 0 index ≠ none then []
    else
      (List.range 32).filterMap fun k =>
        let e : Extent := { first := field bytes (k * 12 + 2) 4, count := field bytes (k * 12 + 6) 4 }
        if index * 32 + k ≠ 0 ∧ field bytes (k * 12) 1 = 0x5A ∧ e.inside 512 (routeAreaEnd partition) then
          some { route := index * 32 + k, extent := e }
        else none

/-- Whether clip directory record `k` of a page marks its clip present; record 0 of page 0 is ignored (12 section 12.3). -/
def clipMarked (bytes : List Byte) (index k : Nat) : Bool :=
  decide (index * 16 + k ≠ 0 ∧ field bytes (k * 32) 1 = 0x5A)

/-- The clip of record `k` of a page if it passes every test of R123. -/
def clipOfRecord (partition : Nat) (bytes : List Byte) (index k : Nat) : Option ClipEntry :=
  let e : Extent := { first := field bytes (k * 32 + 2) 4, count := field bytes (k * 32 + 6) 2 }
  if clipMarked bytes index k ∧ field bytes (k * 32 + 30) 2 = (crc16 ((bytes.drop (k * 32)).take 30)).toNat ∧
      e.inside (clipPagesBegin partition) clipPagesEnd then
    some { clip := index * 16 + k, first := e.first, count := e.count }
  else none

/-- The present clips of clip directory page `index`, and the number of its rejected records (R123). -/
def clipsOfPage (partition : Nat) (page : Option (List Byte)) (index : Nat) : List ClipEntry × Nat :=
  match page with
  | none => ([], 0)
  | some bytes =>
    ((List.range 16).filterMap (clipOfRecord partition bytes index),
     ((List.range 16).filter fun k => clipMarked bytes index k && (clipOfRecord partition bytes index k).isNone).length)

/-- What a clip directory page gives whose sector is under erase: its records come out absent (R137), so every record that
marks a clip present is a rejected one (R123, log 7). -/
def clipsOfErasedPage (page : Option (List Byte)) (index : Nat) : List ClipEntry × Nat :=
  match page with
  | none => ([], 0)
  | some bytes => ([], ((List.range 16).filter (clipMarked bytes index)).length)

/-! ### Route programs (R26, R189) -/

/-- The outcome of reading records from a stream: a value and the rest of the stream, a record that runs past the bytes
there are, or a record that breaks a rule of R26. -/
inductive Scan (α : Type) where
  | done (value : α) (rest : List Byte)
  | short (record : RecordKind) (index : Nat)
  | bad (record : RecordKind) (index : Nat)

def CueKind.ofCode : Nat → Option CueKind
  | 1 => some .commentary | 2 => some .stop | 3 => some .warning
  | 4 => some .scene | 5 => some .quietOn | 6 => some .quietOff | _ => none

/-- The cue of a 12-byte entry (Table 12-7), `none` when it breaks a rule of R26; `floor` is the anchor before it. -/
def cueOfEntry (floor : Nat) (bytes : List Byte) : Option Cue :=
  match CueKind.ofCode (field bytes 4 1) with
  | none => none
  | some kind =>
    let anchor := field bytes 0 4
    let presence := field bytes 9 1
    if anchor ≤ maxChainage ∧ floor ≤ anchor ∧ presence ≤ 1 then
      some
        { anchor := anchor, kind := kind, mark := field bytes 5 2, late := field bytes 7 2
          ref := if presence = 1 then some (field bytes 10 2) else none }
    else none

/-- Reads `left` cue entries, the next of which is number `index`. -/
def scanCues (floor : Nat) : (left index : Nat) → List Byte → Scan (List Cue)
  | 0, _, bytes => .done [] bytes
  | left + 1, index, bytes =>
    if bytes.length < 12 then .short .cue index
    else
      match cueOfEntry floor bytes with
      | none => .bad .cue index
      | some c =>
        match scanCues c.anchor left (index + 1) (bytes.drop 12) with
        | .done cs rest => .done (c :: cs) rest
        | .short r i => .short r i
        | .bad r i => .bad r i

/-- Entry `i` of a clip-set record (Table 12-8): a slot above 11 or a long clip of 0 gives `none`. -/
def clipSetEntry (bytes : List Byte) (i : Nat) : Option ClipSetEntry :=
  match asFin 12 (field bytes (1 + 8 * i) 1) with
  | none => none
  | some slot =>
    let long := field bytes (3 + 8 * i) 2
    let short := field bytes (5 + 8 * i) 2
    if long = 0 then none
    else
      some
        { slot := slot, long := long, short := if short = 0 then none else some short
          mark := if field bytes (2 + 8 * i) 1 % 2 = 1 then some (field bytes (7 + 8 * i) 2) else none }

/-- The clip set of a record of `n` entries, `none` when it breaks a rule of R26. -/
def clipSetOfRecord (bytes : List Byte) (n : Nat) : Option ClipSet :=
  let entries := (List.range n).filterMap (clipSetEntry bytes)
  if entries.length = n ∧ (entries.map ClipSetEntry.slot).Nodup then some entries else none

/-- Reads `left` clip-set records, the next of which is number `index`; a bad count is found as soon as its byte has arrived
(DEDUCED, log 35). -/
def scanClipSets : (left index : Nat) → List Byte → Scan (List ClipSet)
  | 0, _, bytes => .done [] bytes
  | left + 1, index, bytes =>
    let n := field bytes 0 1
    if bytes.length < 1 then .short .clipSet index
    else if n = 0 ∨ n > 12 then .bad .clipSet index
    else if bytes.length < 1 + 8 * n then .short .clipSet index
    else
      match clipSetOfRecord bytes n with
      | none => .bad .clipSet index
      | some c =>
        match scanClipSets left (index + 1) (bytes.drop (1 + 8 * n)) with
        | .done cs rest => .done (c :: cs) rest
        | .short r i => .short r i
        | .bad r i => .bad r i

/-- Entry `i` of a scene record (Table 12-8). -/
def sceneEntry (bytes : List Byte) (i : Nat) : Option SceneEntry :=
  match asFin 16 (field bytes (1 + 5 * i) 1) with
  | none => none
  | some channel =>
    let level := field bytes (2 + 5 * i) 2
    if level > 4095 then none else some { channel := channel, level := level, ramp := field bytes (4 + 5 * i) 2 }

/-- The scene of a record of `n` entries, `none` when it breaks a rule of R26. -/
def sceneOfRecord (bytes : List Byte) (n : Nat) : Option Scene :=
  let entries := (List.range n).filterMap (sceneEntry bytes)
  if entries.length = n ∧ (entries.map SceneEntry.channel).Nodup then some entries else none

/-- Reads `left` scene records, the next of which is number `index`; a bad count is found as soon as its byte has arrived
(DEDUCED, log 35). -/
def scanScenes : (left index : Nat) → List Byte → Scan (List Scene)
  | 0, _, bytes => .done [] bytes
  | left + 1, index, bytes =>
    let n := field bytes 0 1
    if bytes.length < 1 then .short .scene index
    else if n = 0 ∨ n > 16 then .bad .scene index
    else if bytes.length < 1 + 5 * n then .short .scene index
    else
      match sceneOfRecord bytes n with
      | none => .bad .scene index
      | some c =>
        match scanScenes left (index + 1) (bytes.drop (1 + 5 * n)) with
        | .done cs rest => .done (c :: cs) rest
        | .short r i => .short r i
        | .bad r i => .bad r i

/-- The records of a whole route program. -/
structure RouteProgram where
  mask : BitVec 12
  cues : List Cue
  clipSets : List ClipSet
  scenes : List Scene

/-- Reads a route program from the stream received so far (R26, R189): the header, the cues, the clip sets, the scenes. A fault
of the header is reported with index 0: the spec numbers cues, clip sets and scenes and gives the one header no index (DESIGN
CHOICE, log 39). -/
def scanRoute (route pages : Nat) (bytes : List Byte) : Scan RouteProgram :=
  let cueCount := field bytes 8 2
  let setCount := field bytes 10 2
  let sceneCount := field bytes 12 1
  if bytes.length < 16 then .short .header 0
  else if field bytes 0 2 ≠ route ∨ field bytes 2 4 ≠ pages ∨ cueCount > 512 ∨ setCount > 1024 ∨ sceneCount > 32 then
    .bad .header 0
  else
    match scanCues 0 cueCount 0 (bytes.drop 16) with
    | .short r i => .short r i
    | .bad r i => .bad r i
    | .done cues rest =>
      match scanClipSets setCount 0 rest with
      | .short r i => .short r i
      | .bad r i => .bad r i
      | .done sets rest =>
        match scanScenes sceneCount 0 rest with
        | .short r i => .short r i
        | .bad r i => .bad r i
        | .done scenes rest =>
          .done { mask := BitVec.ofNat 12 (field bytes 6 2), cues := cues, clipSets := sets, scenes := scenes } rest

/-! ### The audio decoder (R188) -/

/-- The fixed step table: entry 0 is 7, and each entry e is followed by e + floor(e/8) + 1. -/
def stepEntry : Nat → Nat
  | 0 => 7
  | i + 1 => let e := stepEntry i; e + e / 8 + 1

/-- The 64 entries. -/
def stepTable : List Nat := (List.range 64).map stepEntry

/-- Limits a sample to 16 bits. -/
def saturate16 (x : Int) : Int := max (-32768) (min x 32767)

/-- One code: the next predicted sample and step index. -/
def decodeCode (sample : Int) (index code : Nat) : Int × Nat :=
  let q := stepTable.getD index 0
  let d := q / 8 + (if code / 4 % 2 = 1 then q else 0) + (if code / 2 % 2 = 1 then q / 2 else 0) +
    (if code % 2 = 1 then q / 4 else 0)
  let next := saturate16 (if code / 8 % 2 = 1 then sample - d else sample + d)
  let m := code % 8
  (next, if m < 4 then index - 1 else min (index + 2 * (m - 3)) 63)

/-- Decodes a run of codes from a decoder state. -/
def decodeCodes (sample : Int) (index : Nat) : List Nat → List Int
  | [] => []
  | c :: cs => let (x, i) := decodeCode sample index c; x :: decodeCodes x i cs

/-- The two codes of a byte, the high four bits first. -/
def codesOfByte (b : Byte) : List Nat := [b.toNat / 16, b.toNat % 16]

/-- The 960 samples of a page: zeros for a silent page, the decoded codes of any other (R112, R188). -/
def Page.samples : Page → List Int
  | .silent => List.replicate 960 0
  | .audio bytes =>
    decodeCodes (signed16 (field bytes 0 2)) (min (field bytes 2 1) 63) (((bytes.drop 4).take 480).flatMap codesOfByte)

end Sys2Proof.Machine
end

