-- ==== Sys2Proof/Machine/Mixer.lean ====
section
/-! DEFINITION. The mixer (08): gains, voice destinations, the slot and zone mixes, ducking and the output fade. -/

namespace Sys2Proof.Machine

/-- Table 8-2: the factor of each attenuation. -/
def gainTable : List Nat :=
  [32767, 23198, 16423, 11627, 8231, 5827, 4125, 2920, 2068, 1464, 1036, 734, 519, 368, 260, 0]

/-- table[k]. -/
def gainFactor (k : Nat) : Nat := gainTable.getD k 0

/-- A factor applied to a sample: floor(x × f / 32,768) (R141). -/
def applyFactor (x : Int) (f : Nat) : Int := x * f / 32768

/-! ### Ramps (R149) -/

/-- The value of a ramp at its k-th advance. -/
def Ramp.value (r : Ramp) (k : Nat) : Nat :=
  ((r.start : Int) + Int.tdiv (((r.target : Int) - r.start) * k) r.length).toNat

/-- A ramp from `now` on. -/
def newRamp (start target length : Nat) (now : Clock) : Ramp :=
  { start := start, target := target, length := length, startTime := now }

/-- Whether the next advance of a ramp that advances every `period` ms has fallen due. -/
def Ramp.due (r : Ramp) (period : Nat) (now : Clock) : Bool := reached now (after r.startTime (period * (r.position + 1)))

/-- The ramp after its next advance; absent after the last. -/
def Ramp.advance (r : Ramp) : Option Ramp :=
  if r.position + 1 < r.length then some { r with position := r.position + 1 } else none

/-! ### Ducking and the output fade (R148, R150) -/

/-- NOTICE sounding begins: a 100 ms ramp to the duck depth. -/
def Mixer.soundingBegins (m : Mixer) (depth : Nat) (now : Clock) : Mixer :=
  { m with sounding := true, duckRamp := some (newRamp m.duck (gainFactor depth) 100 now) }

/-- NOTICE sounding ends: a 400 ms ramp to 32,767. -/
def Mixer.soundingEnds (m : Mixer) (now : Clock) : Mixer :=
  { m with sounding := false, duckRamp := some (newRamp m.duck 32767 400 now) }

/-- A write of the duck depth acts while a notice sounds. -/
def Mixer.depthWritten (m : Mixer) (depth : Nat) (now : Clock) : Mixer :=
  if m.sounding then { m with duckRamp := some (newRamp m.duck (gainFactor depth) 100 now) } else m

/-- The duck ramp advances if its next advance is due. -/
def Mixer.advanceDuck (m : Mixer) (now : Clock) : Mixer :=
  match m.duckRamp with
  | none => m
  | some r => if r.due 1 now then { m with duck := r.value (r.position + 1), duckRamp := r.advance } else m

/-- A standby entry phase begins: the output fades to 0 over 500 ms. -/
def Mixer.fadeOut (m : Mixer) (now : Clock) : Mixer := { m with outputRamp := some (newRamp m.output 0 500 now) }

/-- The phase is aborted: the output is whole again at once. -/
def Mixer.restoreOutput (m : Mixer) : Mixer := { m with output := 32767, outputRamp := none }

/-- The output ramp advances if its next advance is due. -/
def Mixer.advanceOutput (m : Mixer) (now : Clock) : Mixer :=
  match m.outputRamp with
  | none => m
  | some r => if r.due 1 now then { m with output := r.value (r.position + 1), outputRamp := r.advance } else m

/-! ### Destinations (R142) -/

/-- All twelve slots. -/
def allSlots : List (Fin 12) := List.finRange 12

/-- The destination of a voice at its start; `cls` is the class of the entry that owns it. -/
def startDestination (owner : Owner) (cls : AnnClass) (speaker : Fin 12) : Destination :=
  match owner with
  | .stream s => { kind := .commentary, slots := [s], zone := decide (s = speaker) }
  | .chime _ => { kind := .chime cls, slots := allSlots, zone := true }
  | .announcement _ .speaker => { kind := .announcement cls, slots := [], zone := true }
  | .announcement _ (.slot s) => { kind := .announcement cls, slots := [s], zone := false }

/-- The slots a fan-out map sends to a voice: for the speaker voice those on FALLBACK or NONE as well. -/
def mapSlots (map : Table SlotMap 12) (speaker : Bool) (v : Fin 16) : List (Fin 12) :=
  allSlots.filter fun s =>
    match map.get s with
    | .own w => decide (w = v)
    | .fallback => speaker
    | .none => speaker

/-- A fan-out map handed for the voices that still play (R94, R142). -/
def Mixer.applyMap (m : Mixer) (map : Table SlotMap 12) (cls : AnnClass) (speakerVoice : Option (Fin 16))
    (voices : List (Fin 16)) : Mixer :=
  { m with
    destinations := voices.foldl (fun d v =>
      d.set v (some { kind := .announcement cls, slots := mapSlots map (decide (speakerVoice = some v)) v
                      zone := decide (speakerVoice = some v) })) m.destinations }

/-- A write of the speaker slot re-forms the zone flags of the commentary voices in PRIMING or PLAYING. -/
def Mixer.speakerWritten (m : Mixer) (voices : Table Voice 16) (speaker : Fin 12) : Mixer :=
  { m with
    destinations := Table.ofFn fun v =>
      match m.destinations.get v with
      | none => none
      | some d =>
        if d.kind = .commentary ∧ ((voices.get v).state = .priming ∨ (voices.get v).state = .playing) then
          some { d with zone := d.slots.contains speaker }
        else some d }

/-- The commentary need (R145). -/
def Mixer.needNow (m : Mixer) : Bool := m.lower.commentary || (m.upper.commentary && !m.quiet)

/-! ### Samples and mixes (R110, R111, R141, R143, R144) -/

/-- The fade factor at a fade position (R111). -/
def fadeFactor (position : Nat) : Nat := 32767 * (20 - position) / 20

/-- The sample a voice gives the mixer, `k` samples after the last millisecond (R141, log 11). -/
def Voice.sample (v : Voice) (k : Nat) : Int :=
  match v.state with
  | .free | .priming => 0
  | .playing => v.sounding.getD k v.hold
  | .stopping => applyFactor (v.sounding.getD k v.hold) (fadeFactor v.fade)

/-- The output factor is applied last, and only while it is below 32,767 (R150). -/
def Mixer.fadeSample (m : Mixer) (x : Int) : Int := if m.output < 32767 then applyFactor x m.output else x

/-- The sum of what the voices give, each voice by the factor its destination gives it (`none`: it is left out). -/
def State.voiceSum (s : State) (k : Nat) (factor : Destination → Option Nat) : Int :=
  ((List.finRange 16).map fun v =>
    match s.mixer.destinations.get v with
    | none => 0
    | some d =>
      match factor d with
      | none => 0
      | some f => applyFactor ((s.voices.voices.get v).sample k) f).foldl (· + ·) 0

/-- The microphone's contribution. -/
def State.micSample (s : State) (mic : Int) : Int := if s.mixer.microphone then applyFactor mic 32767 else 0

/-- The mix of a language slot (R143); `mic` is the microphone input. -/
def State.slotMix (s : State) (slot : Fin 12) (k : Nat) (mic : Int) : Int :=
  s.mixer.fadeSample <| saturate16 <|
    s.voiceSum k (fun d =>
      match d.kind with
      | .commentary => if d.slots.contains slot then some s.mixer.duck else none
      | .announcement _ => if d.slots.contains slot then some 32767 else none
      | .chime _ => some 32767) + s.micSample mic

/-- What a zone hears of a destination (R144): `closed` says that the quiet zone acts on it, `commentary` its enable. -/
def zoneFactor (closed commentary : Bool) (duck : Nat) (d : Destination) : Option Nat :=
  match d.kind with
  | .commentary => if d.zone && commentary && !closed then some duck else none
  | .announcement cls => if d.zone && !(closed && decide (cls = .notice)) then some 32767 else none
  | .chime _ => if closed then none else some 32767

/-- The mix of a zone (R144). -/
def State.zoneMix (s : State) (upper : Bool) (k : Nat) (mic : Int) : Int :=
  let z := if upper then s.mixer.upper else s.mixer.lower
  let pre := saturate16 (s.voiceSum k (zoneFactor (upper && s.mixer.quiet) z.commentary s.mixer.duck) + s.micSample mic)
  s.mixer.fadeSample (applyFactor pre (gainFactor (15 - z.gain.val)))

end Sys2Proof.Machine
end

