-- ==== Sys2Proof/Machine/Lights.lean ====
section
/-! DEFINITION. The light controller (09): layers, ramps, patterns, scenes and the PWM outputs. -/

namespace Sys2Proof.Machine

/-- The level a pattern shows (R153). -/
def Layer.level : Layer → Nat
  | .steady => 4095
  | .flash on _ _ => if on then 4095 else 0

/-- The winning level: the announce layer, the scene layer, the base (R153). -/
def Channel.winning (c : Channel) : Nat :=
  match c.announce with
  | some l => l.level
  | none => c.scene.getD c.base

/-- The winning layer: 0 base, 1 scene, 2 announce. -/
def Channel.winner (c : Channel) : Fin 3 :=
  if c.announce.isSome then 2 else if c.scene.isSome then 1 else 0

/-- The target while the announce layer does not win: where the ramp leads, or the output level (R154). -/
def Channel.target (c : Channel) : Nat :=
  match c.ramp with
  | some r => r.target
  | none => c.output

/-- The effective duty (R156). -/
def Channel.dutyNow (c : Channel) (master : Nat) (blank : Bool) : Nat :=
  if blank then 0
  else
    match c.announce with
    | some l => l.level
    | none => c.output * master / 4095

/-- The channel after an event that may have changed its layers (R154): the announce layer sets the output at once; otherwise
a winning level off the target starts a ramp of ceil(T/10) steps, or is reached at once for T = 0. -/
def Channel.settle (c : Channel) (ramp : Nat) (now : Clock) : Channel :=
  match c.announce with
  | some l => { c with output := l.level, ramp := none }
  | none =>
    if c.winning = c.target then c
    else if ramp = 0 then { c with output := c.winning, ramp := none }
    else { c with ramp := some (newRamp c.output c.winning ((ramp + 9) / 10) now) }

/-- The channel with its effective duty formed. -/
def Channel.form (c : Channel) (master : Nat) (blank : Bool) : Channel := { c with duty := c.dutyNow master blank }

/-- Every effective duty formed again. -/
def Lights.form (l : Lights) : Lights := { l with channels := l.channels.map fun c => c.form l.master l.blank }

/-- One channel changed, settled over `ramp` ms, and its duty formed. -/
def Lights.change (l : Lights) (i : Fin 16) (ramp : Nat) (now : Clock) (f : Channel → Channel) : Lights :=
  { l with channels := l.channels.modify i fun c => ((f c).settle ramp now).form l.master l.blank }

/-- The channel's announce layer released: a 300 ms ramp to the scene or the base (R159). -/
def Channel.release (c : Channel) (now : Clock) : Channel := { c with announce := none }.settle 300 now

/-- The effect of a change of announce class on one channel (the table of R157). -/
def Channel.classChange (c : Channel) (cls : AnnounceClass) (inWarning inStop : Bool) (now : Clock) : Channel :=
  match cls, c.announce with
  | .warning, some (.flash on since _) =>
    if inWarning then { c with announce := some (.flash on since false) } else c
  | .warning, some .steady =>
    if inWarning then { c with announce := some (.flash true now false) }.settle 0 now else c.release now
  | .warning, none => if inWarning then { c with announce := some (.flash true now false) }.settle 0 now else c
  | .stop, none => if inStop then { c with announce := some .steady }.settle 0 now else c
  | .stop, some .steady => if inStop then c else c.release now
  | .stop, some (.flash on since _) => { c with announce := some (.flash on since true) }
  | .none, some (.flash on since _) => { c with announce := some (.flash on since true) }
  | .none, some .steady => c.release now
  | .none, none => c

/-- The announcement engine hands its announce class; the class already held changes nothing, and a change puts the two mask
settings in force (R157, R163). -/
def Lights.handClass (l : Lights) (cls : AnnounceClass) (warningGroup stopGroup : BitVec 16) (now : Clock) : Lights :=
  if cls = l.cls then l
  else
    { l with
      cls := cls
      warningGroup := warningGroup
      stopGroup := stopGroup
      channels := Table.ofFn fun i =>
        ((l.channels.get i).classChange cls (warningGroup.getLsbD i.val) (stopGroup.getLsbD i.val) now).form l.master l.blank }

/-- The end of a 400 ms flash phase (R158, R159): ON gives OFF; OFF gives ON, or at the end of a finishing cycle STEADY for a
channel of the stop group under STOP, or the release. -/
def Channel.phaseEnd (c : Channel) (cls : AnnounceClass) (inStop : Bool) (now : Clock) : Channel :=
  match c.announce with
  | some (.flash true since finishing) =>
    if reached now (after since 400) then { c with announce := some (.flash false now finishing) }.settle 0 now else c
  | some (.flash false since finishing) =>
    if reached now (after since 400) then
      if finishing then
        if cls = .stop ∧ inStop = true then { c with announce := some .steady }.settle 0 now else c.release now
      else { c with announce := some (.flash true now false) }.settle 0 now
    else c
  | _ => c

/-- The next advance of a channel's ramp if it is due, every 10 ms (R155). -/
def Channel.advance (c : Channel) (now : Clock) : Channel :=
  match c.ramp with
  | none => c
  | some r => if r.due 10 now then { c with output := r.value (r.position + 1), ramp := r.advance } else c

/-- Applies a scene: listed channels take its levels over their ramp times, the others lose their scene layer over 500 ms
(R160). -/
def Lights.applyScene (l : Lights) (scene : Scene) (now : Clock) : Lights :=
  { l with
    channels := Table.ofFn fun i =>
      let c := l.channels.get i
      (match scene.find? (fun e : SceneEntry => decide (e.channel = i)) with
       | some e => ({ c with scene := some e.level }).settle e.ramp now
       | none => ({ c with scene := none }).settle 500 now).form l.master l.blank }

/-- Clears the scene layer of every channel (R161). -/
def Lights.clearScene (l : Lights) (now : Clock) : Lights := l.applyScene [] now

/-- The blank set or cleared, with every duty formed again (R164). -/
def Lights.setBlank (l : Lights) (blank : Bool) : Lights := { l with blank := blank }.form

/-- The master level set, with every duty formed again (R163). -/
def Lights.setMaster (l : Lights) (master : Nat) : Lights := { l with master := master }.form

/-- A channel as the replies show it (R162, R165). -/
def State.channelView (s : State) (i : Fin 16) : ChannelView :=
  { channel := s.lights.channels.get i, mode := s.inForce.driverModes.get i, winner := (s.lights.channels.get i).winner }

/-! ### The PWM outputs (R152) -/

/-- What a pin does; `inactive` is a pin in driver mode OFF, whose level R152 does not name. -/
inductive PinLevel where
  | high | low | released | inactive
deriving DecidableEq, Repr

/-- The PWM period of a bank rate, in microseconds. -/
def BankRate.period : BankRate → Nat
  | .hz200 => 5000 | .hz400 => 2500 | .hz800 => 1250 | .hz1600 => 625

/-- The bank rate in force of a channel: channels 0 to 7 are bank A. -/
def InForce.bankOf (f : InForce) (i : Fin 16) : BankRate := if i.val < 8 then f.bankA else f.bankB

/-- Whether the output stands at its active level at a position of the period, 0..4094, for the duty taken at the start of
the period; never in driver mode OFF. That the active part is one run at the beginning of the period is a DESIGN CHOICE: R152
gives its length alone (log 12). -/
def pinActive (mode : DriverMode) (duty position : Nat) : Bool := decide (mode ≠ .off) && decide (position < duty)

/-- The level of an output that is active or not. -/
def pinLevel : DriverMode → Bool → PinLevel
  | .pushPull, true => .high
  | .pushPull, false => .low
  | .openDrain, true => .low
  | .openDrain, false => .released
  | .off, _ => .inactive

/-- The pin of a channel at a position of a period that begins now. -/
def State.lightPin (s : State) (i : Fin 16) (position : Nat) : PinLevel :=
  let mode := s.inForce.driverModes.get i
  pinLevel mode (pinActive mode (s.lights.channels.get i).duty position)

end Sys2Proof.Machine
end

