-- ==== Sys2Proof/Machine/Voices.lean ====
section
/-! DEFINITION. The voice engine's own operations (06): starting, priming, reading, releasing and freeing a voice, page
faults, and the read port's choice. What the owners do when a voice ends is in Arbiter.lean. -/

namespace Sys2Proof.Machine

/-- The record of a voice. -/
def State.voice (s : State) (v : Fin 16) : Voice := s.voices.voices.get v

/-- The state with a voice record changed. -/
def State.setVoice (s : State) (v : Fin 16) (f : Voice → Voice) : State :=
  { s with voices := { s.voices with voices := s.voices.voices.modify v f } }

/-- The lowest-numbered FREE voice. -/
def State.freeVoice (s : State) : Option (Fin 16) := s.voices.voices.lowest fun v => decide (v.state = .free)

/-- Whether all sixteen voices are FREE. -/
def State.allFree (s : State) : Bool := s.voices.voices.all fun v => decide (v.state = .free)

/-- A clip's entry in the clip directory cache (R123). -/
def State.clip (s : State) (clip : Nat) : Option ClipEntry := s.store.clips.find? fun e => e.clip = clip

/-! ### The request list (R115) -/

/-- Asks for a voice; a second request of one requester is not added. -/
def State.askVoice (s : State) (r : Requester) : State :=
  if s.voices.requests.contains r then s
  else { s with voices := { s.voices with requests := s.voices.requests ++ [r] } }

/-- Withdraws a request. -/
def State.withdraw (s : State) (r : Requester) : State :=
  { s with voices := { s.voices with requests := s.voices.requests.filter (· ≠ r) } }

/-! ### Becoming FREE, being released (R105, R109, R111) -/

/-- The record of a voice that becomes FREE: no owner, no queue, no read outstanding. -/
def Voice.freed (v : Voice) : Voice :=
  { v with state := .free, owner := none, queue := [], outstanding := false, waiting := none, due := none, sounding := [] }

/-- A voice becomes FREE, and the mixer gives it no destination (R142). -/
def State.dropVoice (s : State) (v : Fin 16) : State :=
  let s := s.setVoice v Voice.freed
  { s with mixer := { s.mixer with destinations := s.mixer.destinations.set v none } }

/-- The record of a released voice: PRIMING and PLAYING enter STOPPING; a voice released from PRIMING has no due pages and
fades silence, also when its start waited on a reload and its hold sample was that of an earlier clip (R111). -/
def Voice.released (v : Voice) : Voice :=
  match v.state with
  | .priming =>
    { v with state := .stopping, owner := none, fade := 0, waiting := none, due := none, hold := 0, sounding := [] }
  | .playing => { v with state := .stopping, owner := none, fade := 0 }
  | _ => v

/-- An owner releases a voice. -/
def State.release (s : State) (v : Fin 16) : State := s.setVoice v Voice.released

/-! ### Reading ahead (R108, R109) -/

/-- The condition under which a voice posts a read. -/
def Voice.wantsPage (v : Voice) : Bool :=
  (decide (v.state = .priming) || decide (v.state = .playing)) && v.waiting.isNone && !v.outstanding &&
    decide (v.queue.length < 7) && decide (v.nextFetch < v.pageCount)

/-- A voice posts its next read if it wants one. -/
def State.topUp (s : State) (v : Fin 16) : State :=
  let r := s.voice v
  if r.wantsPage then
    let s := s.setVoice v fun r => { r with outstanding := true, nextFetch := r.nextFetch + 1 }
    { s with
      port := { s.port with
        fetches := s.port.fetches ++ [{ page := r.firstPage + r.nextFetch, use := .voice v r.serial r.nextFetch }] } }
  else s

/-- Whether a priming voice holds enough pages: 2, or all that remain when fewer remain from its start page (R108). -/
def Voice.primed (v : Voice) : Bool :=
  decide (v.state = .priming) && v.waiting.isNone &&
    (decide (2 ≤ v.queue.length) ||
      (decide (v.pageCount - v.startPage < 2) && decide (v.queue.length = v.pageCount - v.startPage)))

/-- A primed voice enters PLAYING, its first page due at once. -/
def Voice.prime (v : Voice) (now : Clock) : Voice := if v.primed then { v with state := .playing, due := some now } else v

/-! ### Page faults (R112, R113) -/

/-- A failing page is counted, and the first one recorded and reported; `quiet` during a start-up, whose reports follow
STARTED (R182). -/
def State.pageFailed (s : State) (record : FaultRecord) (quiet : Bool) : State :=
  let s' := { s with voices := { s.voices with integrity := min (s.voices.integrity + 1) 15 } }
  match s.voices.firstFault with
  | some _ => s'
  | none =>
    let s' := { s' with voices := { s'.voices with firstFault := some record } }
    if quiet then { s' with power := { s'.power with faults := s'.power.faults ++ [record] } }
    else s'.report (.storeFault record)

/-- What is wrong with a page of a clip as it arrives (R112). A page of a sector under erase that the store does return plays as
a silent page and is counted, whatever its bytes (R131); that its kind is CHECK, and that a resident buffer's page fares as a
voice's, is DEDUCED (log 7). -/
def State.clipPageFault (s : State) (page : Nat) (data : Option (List Byte)) (clip index : Nat) : Option PageFault :=
  if data.isSome && s.store.erasing (sectorOf page) then some .check else readFault data clip index

/-- A page of a clip as it arrives: checked, and replaced by a silent page when it fails. -/
def State.checkPage (s : State) (page : Nat) (data : Option (List Byte)) (clip index : Nat) (quiet : Bool) : Page × State :=
  match s.clipPageFault page data clip index with
  | some kind => (.silent, s.pageFailed { page := page, clip := clip, index := index, kind := kind, clock := s.clock } quiet)
  | none => (.audio (data.getD []), s)

/-! ### Starting a voice (R106, R107) -/

/-- What a start came to. -/
inductive StartOutcome where
  | started | absent | completed
deriving DecidableEq, Repr

/-- The loaded resident buffer of a clip. -/
def State.residentPages (s : State) (clip : Nat) : Option (List Page) :=
  match s.voices.residents.find? fun r => r.clip = clip with
  | some r => if r.pages.length = r.need then some r.pages else none
  | none => none

/-- The lookup of a start against the clip directory cache: the clip present, already at its end, or absent. The next page to
fetch and to play are set only where the voice goes on (R106). -/
def State.lookUp (s : State) (v : Fin 16) (clip page : Nat) : State × StartOutcome :=
  match s.clip clip with
  | none => (s.dropVoice v, .absent)
  | some e =>
    let s := s.setVoice v fun r =>
      { r with clip := some clip, firstPage := e.first, pageCount := e.count, hold := 0, starved := 0, waiting := none }
    if e.count ≤ page then (s.dropVoice v, .completed)
    else
      let s := s.setVoice v fun r =>
        { r with
          startPage := page, nextFetch := page, nextPlay := page, queue := [], outstanding := false, sounding := []
          state := .priming, due := none }
      match (if page = 0 then s.residentPages clip else none) with
      | some pages =>
        let s := s.setVoice v fun r =>
          { r with state := .playing, queue := pages, nextFetch := pages.length, due := some s.clock }
        (s.topUp v, .started)
      | none => (s.topUp v, .started)

/-- Starts a voice for an owner on a clip at a page; `cls` is the class of the entry that owns it. During a directory reload
the lookup waits in PRIMING. -/
def State.startVoice (s : State) (v : Fin 16) (owner : Owner) (cls : AnnClass) (clip page : Nat) : State × StartOutcome :=
  let s := s.setVoice v fun r => { r with owner := some owner, serial := r.serial + 1 }
  let s := { s with
    mixer := { s.mixer with
      destinations := s.mixer.destinations.set v (some (startDestination owner cls s.settings.speakerSlot)) } }
  match s.store.reload with
  | some _ =>
    (s.setVoice v fun r =>
      { r with state := .priming, clip := none, waiting := some (clip, page), queue := [], outstanding := false, due := none
               sounding := [] },
     .started)
  | none => s.lookUp v clip page

/-! ### The read port (R118, R119) -/

/-- Whether one waiting voice fetch goes before another: fewest pages queued, then the lower voice. -/
def fetchBefore (voices : Table Voice 16) (a b : PortRead) : Bool :=
  match a.use, b.use with
  | .voice v _ _, .voice w _ _ =>
    let qa := (voices.get v).queue.length
    let qb := (voices.get w).queue.length
    decide (qa < qb) || (decide (qa = qb) && decide (v < w))
  | _, _ => false

/-- The first of the waiting voice fetches. Two reads of one voice, one of a start that has ended and one of the start after
it, tie in R118; the one posted earlier goes first (DESIGN CHOICE, log 33). -/
def bestFetch (voices : Table Voice 16) : List PortRead → Option PortRead
  | [] => none
  | r :: rs =>
    match bestFetch voices rs with
    | none => some r
    | some b => if fetchBefore voices b r then some b else some r

/-- Whether the write in flight is a program that has begun, which holds the port (R119). -/
def Store.programming (st : Store) : Bool :=
  match st.write with
  | none => false
  | some w =>
    decide (w.phase = .running) &&
      (match w.kind with
       | .pageProgram _ _ | .lockProgram _ _ => true
       | .settingsSave _ erased => erased
       | _ => false)

/-- The state with the phase of the write in flight set from one phase to another. -/
def State.shiftWrite (s : State) (old new : WritePhase) : State :=
  match s.store.write with
  | none => s
  | some w => if w.phase = old then { s with store := { s.store with write := some { w with phase := new } } } else s

/-- The port chooses when it is free: the best voice fetch, then the oldest second-class read; a running erase is suspended
for a read and resumes when none waits; a program that has begun is not interrupted. -/
def State.settlePort (s : State) : State :=
  match s.port.serving with
  | some _ => s
  | none =>
    if s.store.programming then s
    else
      match bestFetch s.voices.voices s.port.fetches, s.port.second with
      | some r, _ =>
        { s with port := { s.port with serving := some r, fetches := s.port.fetches.erase r } }.shiftWrite .running .suspended
      | none, r :: rs =>
        { s with port := { s.port with serving := some r, second := rs } }.shiftWrite .running .suspended
      | none, [] => s.shiftWrite .suspended .running

/-- Posts a read of the second class (R118). -/
def State.postRead (s : State) (r : PortRead) : State := { s with port := { s.port with second := s.port.second ++ [r] } }

/-- The served read's data have arrived: the port is free. -/
def State.portDone (s : State) : State := { s with port := { s.port with serving := none } }

end Sys2Proof.Machine
end

