-- ==== Sys2Proof/Machine/Seats.lean ====
section
/-! DEFINITION. The seat table (03): enabled and served slots, effective volumes, listener counts, buttons, and the seat
requests as operations on the table. -/

namespace Sys2Proof.Machine

/-! ### Derivations (R45, R46, R47, R56) -/

/-- The set of enabled slots (R45). -/
def State.enabledNow (s : State) : Table Bool 12 :=
  Table.ofFn fun i =>
    (s.settings.languageTags.get i).isSome && (decide (s.cues.routeState ≠ .ready) || s.cues.mask.getLsbD i.val)

/-- The served slot of a chosen slot (R46). -/
def servedSlot (enabled : Table Bool 12) (default chosen : Fin 12) : Option (Fin 12) :=
  if enabled.get chosen then some chosen else if enabled.get default then some default else none

/-- The effective volume (R56). -/
def Seat.effectiveNow (seat : Seat) (warning : Bool) (floor : Nat) : Nat :=
  if seat.muted then 0 else if warning then min (max seat.volume floor) seat.cap else seat.volume

/-- The derived fields of every seat formed again. -/
def SeatTable.derive (t : SeatTable) (g : Settings) : SeatTable :=
  { t with
    seats := t.seats.map fun seat =>
      { seat with
        served := servedSlot t.enabled g.defaultSlot seat.chosen
        effective := seat.effectiveNow t.warningActive g.warningFloor } }

/-- The box of a seat. -/
def boxOf (i : Fin 64) : Fin 16 := ⟨i.val / 4, by omega⟩

/-- The seat at a position of a box. -/
def seatOf (b : Fin 16) (p : Fin 4) : Fin 64 := ⟨4 * b.val + p.val, by omega⟩

/-- Whether a seat is a listener of some slot: plugged, on a PRESENT box, not muted and served (R47). -/
def SeatTable.listens (t : SeatTable) (i : Fin 64) : Bool :=
  (t.seats.get i).plugged && (t.boxes.get (boxOf i)).present && !(t.seats.get i).muted && (t.seats.get i).served.isSome

/-- The listener count of a slot (R47). -/
def SeatTable.listeners (t : SeatTable) (slot : Fin 12) : Nat :=
  ((List.finRange 64).filter fun i => t.listens i && decide ((t.seats.get i).served = some slot)).length

/-- The twelve listener counts. -/
def SeatTable.countsNow (t : SeatTable) : Table Nat 12 := Table.ofFn t.listeners

/-! ### Buttons and links (R48, R49, R50) -/

/-- The slot chosen for a seat and for every seat that follows it (R49). -/
def SeatTable.choose (t : SeatTable) (i : Fin 64) (slot : Fin 12) : SeatTable :=
  { t with
    seats := Table.ofFn fun j =>
      if j = i ∨ (t.seats.get j).follow = some i then { t.seats.get j with chosen := slot } else t.seats.get j }

/-- The enabled slots in ascending order. -/
def enabledSlots (enabled : Table Bool 12) : List (Fin 12) := allSlots.filter enabled.get

/-- LANG_UP: the lowest enabled slot above, or the lowest enabled. -/
def slotAbove (enabled : Table Bool 12) (chosen : Fin 12) : Option (Fin 12) :=
  ((enabledSlots enabled).find? fun s => decide (chosen < s)).orElse fun _ => (enabledSlots enabled).head?

/-- LANG_DOWN: the highest enabled slot below, or the highest enabled. -/
def slotBelow (enabled : Table Bool 12) (chosen : Fin 12) : Option (Fin 12) :=
  ((enabledSlots enabled).reverse.find? fun s => decide (s < chosen)).orElse fun _ => (enabledSlots enabled).getLast?

/-- A language press that finds an enabled slot ends the seat's link and moves its chosen slot (R48). -/
def SeatTable.language (t : SeatTable) (i : Fin 64) (slot : Option (Fin 12)) : SeatTable :=
  match slot with
  | none => t
  | some slot => { t with seats := t.seats.modify i fun seat => { seat with follow := none } }.choose i slot

/-- One button press (R48, R50). -/
def SeatTable.press (t : SeatTable) (i : Fin 64) (b : Button) : SeatTable :=
  match b with
  | .langUp => t.language i (slotAbove t.enabled (t.seats.get i).chosen)
  | .langDown => t.language i (slotBelow t.enabled (t.seats.get i).chosen)
  | .volUp =>
    { t with seats := t.seats.modify i fun seat => if seat.volume < seat.cap then { seat with volume := seat.volume + 1 } else seat }
  | .volDown => { t with seats := t.seats.modify i fun seat => { seat with volume := seat.volume - 1 } }

/-! ### Polls (R41 to R44) -/

/-- The poll of a box, formed from the seat table (R41). -/
def SeatTable.pollOf (t : SeatTable) (b : Fin 16) : Poll :=
  { box := b
    slots := Table.ofFn fun p => match (t.seats.get (seatOf b p)).served with | some s => s.val | none => 15
    volumes := Table.ofFn fun p => (t.seats.get (seatOf b p)).effective
    ack := (t.boxes.get b).lastSequence.getD false }

/-- The plug states of a reply taken into the seats of its box. -/
def SeatTable.plug (t : SeatTable) (b : Fin 16) (plugs : Table Bool 4) : SeatTable :=
  { t with
    seats := Table.ofFn fun i =>
      if boxOf i = b then { t.seats.get i with plugged := plugs.get ⟨i.val % 4, by omega⟩ } else t.seats.get i }

/-- A valid reply from a PRESENT box (R42). -/
def SeatTable.takeReply (t : SeatTable) (r : PollReply) : SeatTable :=
  let fresh := decide ((t.boxes.get r.box).lastSequence ≠ some r.sequence)
  let t := t.plug r.box r.plugs
  let t := if fresh then r.presses.foldl (fun t p => t.press (seatOf r.box p.position) p.button) t else t
  { t with
    boxes := t.boxes.modify r.box fun box => { box with missed := 0, lastSequence := some r.sequence } }

/-- A valid reply from an ABSENT box makes it PRESENT; its presses are discarded (R44). -/
def SeatTable.findBox (t : SeatTable) (r : PollReply) : SeatTable :=
  let t := t.plug r.box r.plugs
  { t with boxes := t.boxes.set r.box { present := true, missed := 0, lastSequence := some r.sequence } }

/-! ### SET_SEAT (R51, R52) -/

/-- Check 1 of R51. -/
def seatFieldsInRange (f : SeatFields) : Bool :=
  f.chosen.all (decide <| · ≤ 11) && f.volume.all (decide <| · ≤ 15) && f.cap.all (decide <| · ≤ 15) &&
    f.follow.all fun l => l.all (decide <| · ≤ 63)

/-- Whether some seat follows seat `i`. -/
def SeatTable.leads (t : SeatTable) (i : Fin 64) : Bool := t.seats.any fun seat => decide (seat.follow = some i)

/-- Check 2 of R51: a present follow that would make a link more than one deep. -/
def SeatTable.tooDeep (t : SeatTable) (i : Fin 64) (f : SeatFields) : Bool :=
  match f.follow with
  | some (some l) =>
    match asFin 64 l with
    | some l => decide (l = i) || (t.seats.get l).follow.isSome || t.leads i
    | none => false
  | _ => false

/-- Steps 1 to 3 of R52: cap, volume, muted flag. -/
def Seat.setLevels (seat : Seat) (f : SeatFields) : Seat :=
  let cap := f.cap.getD seat.cap
  let volume := match f.volume with | some v => min v cap | none => min seat.volume cap
  { seat with cap := cap, volume := volume, muted := f.muted.getD seat.muted }

/-- Steps 4 to 6 of R52: follow and chosen slot. -/
def SeatTable.setLinks (t : SeatTable) (i : Fin 64) (f : SeatFields) : SeatTable :=
  match f.follow with
  | some (some l) =>
    match asFin 64 l with
    | some l =>
      { t with seats := t.seats.modify i fun seat => { seat with follow := some l, chosen := (t.seats.get l).chosen } }
    | none => t
  | some none =>
    let t := { t with seats := t.seats.modify i fun seat => { seat with follow := none } }
    match f.chosen.bind (asFin 12) with
    | some c => t.choose i c
    | none => t
  | none =>
    match f.chosen.bind (asFin 12) with
    | some c => { t with seats := t.seats.modify i fun seat => { seat with follow := none } }.choose i c
    | none => t

/-- A SET_SEAT that passed its checks (R52). -/
def SeatTable.setSeat (t : SeatTable) (i : Fin 64) (f : SeatFields) : SeatTable :=
  { t with seats := t.seats.modify i fun seat => seat.setLevels f }.setLinks i f

/-! ### SEAT_APPLY (R53, R54) -/

/-- Whether an action's value lies in its range. -/
def seatActionValid (a : SeatAction) (top : Nat) : Bool :=
  match a with
  | .set v => decide (v ≤ top)
  | .unknown => false
  | _ => true

/-- Whether the condition's value lies in its range. -/
def seatConditionValid : SeatCondition → Bool
  | .onSlot s => decide (s ≤ 11)
  | .unknown => false
  | _ => true

/-- The field check of R53. -/
def seatApplyValid (a : SeatApply) : Bool :=
  decide (a.first ≤ a.last ∧ a.last ≤ 63) && seatConditionValid a.condition && seatActionValid a.chosen 11 && seatActionValid a.volume 15 &&
    seatActionValid a.cap 15 &&
    decide (a.muted ≠ .unknown) && decide (a.follow ≠ .unknown)

/-- Whether the condition holds for a seat (R53). -/
def SeatTable.meets (t : SeatTable) (i : Fin 64) : SeatCondition → Bool
  | .always => true
  | .plugged => (t.seats.get i).plugged && (t.boxes.get (boxOf i)).present
  | .listening => t.listens i
  | .onSlot s => decide ((t.seats.get i).served.map Fin.val = some s)
  | .following => (t.seats.get i).follow.isSome
  | .unknown => false

/-- Whether a seat is selected, on the table before the request (R53). -/
def SeatTable.selects (t : SeatTable) (a : SeatApply) (i : Fin 64) : Bool :=
  decide (a.first ≤ i.val ∧ i.val ≤ a.last) && (t.meets i a.condition != a.invert)

/-- The value an action gives. -/
def seatActionValue (a : SeatAction) (now default : Nat) : Nat :=
  match a with
  | .set v => v
  | .default => default
  | _ => now

/-- Whether an action writes. -/
def seatActionWrites : SeatAction → Bool
  | .set _ | .default => true
  | _ => false

/-- The outcome of SEAT_APPLY for a selected seat, before the leaders' slots are copied (R54). -/
def Seat.apply (seat : Seat) (i : Fin 64) (a : SeatApply) (g : Settings) : Seat :=
  let cap := seatActionValue a.cap seat.cap 15
  let volume := min (seatActionValue a.volume seat.volume g.defaultVolume) cap
  let chosen := (asFin 12 (seatActionValue a.chosen seat.chosen.val g.defaultSlot.val)).getD seat.chosen
  let follow :=
    match a.follow with
    | .none => none
    | .leader => if i.val = a.first then seat.follow else asFin 64 a.first
    | _ => if seatActionWrites a.chosen then none else seat.follow
  { seat with
    cap := cap, volume := volume, chosen := chosen, follow := follow
    muted := match a.muted with | .set m => m | _ => seat.muted }

/-- The whole outcome of SEAT_APPLY, before the leaders' slots are copied. -/
def SeatTable.outcome (t : SeatTable) (a : SeatApply) (g : Settings) : Table Seat 64 :=
  Table.ofFn fun i => if t.selects a i then (t.seats.get i).apply i a g else t.seats.get i

/-- Whether some seat would follow itself, or a seat that itself follows (R54). -/
def linksTooDeep (seats : Table Seat 64) : Bool :=
  (List.finRange 64).any fun i =>
    match (seats.get i).follow with
    | some l => decide (l = i) || (seats.get l).follow.isSome
    | none => false

/-- Every follower's chosen slot becomes its leader's (R49). -/
def copyLeaders (seats : Table Seat 64) : Table Seat 64 :=
  Table.ofFn fun i =>
    match (seats.get i).follow with
    | some l => { seats.get i with chosen := (seats.get l).chosen }
    | none => seats.get i

/-- Whether a stored field differs. -/
def Seat.differs (a b : Seat) : Bool :=
  decide (a.plugged ≠ b.plugged ∨ a.chosen ≠ b.chosen ∨ a.volume ≠ b.volume ∨ a.cap ≠ b.cap ∨ a.muted ≠ b.muted ∨
    a.follow ≠ b.follow)

/-- The number of seats whose stored fields differ (R54). -/
def changedSeats (a b : Table Seat 64) : Nat :=
  ((List.finRange 64).filter fun i => (a.get i).differs (b.get i)).length

/-! ### Reading (R55) -/

/-- A seat as the replies show it. R55 has GET_SEATS carry number, record and box state; R52 has the reply to SET_SEAT carry the
record with its derived fields, and that it shows the number and the box state too is the model's (DESIGN CHOICE, log 40). -/
def SeatTable.view (t : SeatTable) (i : Fin 64) : SeatView :=
  { number := i, seat := t.seats.get i, boxPresent := (t.boxes.get (boxOf i)).present }

end Sys2Proof.Machine
end

