-- ==== Sys2Proof/Machine/Commentary.lean ====
section
/-! DEFINITION. The commentary engine (04): demand, placement of firings, a stream's life, suspension, resumption and stop. -/

namespace Sys2Proof.Machine

/-! ### Streams, firings and their reports (R61, R66, R78) -/

/-- The record of a stream. -/
def State.stream (s : State) (i : Fin 12) : Stream := s.comm.streams.get i

/-- The state with a stream record changed. -/
def State.setStream (s : State) (i : Fin 12) (f : Stream → Stream) : State :=
  { s with comm := { s.comm with streams := s.comm.streams.modify i f } }

/-- Sends a COMMENTARY_EVENT. -/
def State.commReport (s : State) (e : CommentaryEvent) (cue : Nat) : State := s.report (.commentaryEvent e cue s.clock)

/-- Outside SUSPENDED the engine is RUNNING while a stream holds a current segment and IDLE while none does (R61). -/
def State.settleEngine (s : State) : State :=
  if s.comm.state = .suspended then s
  else
    { s with
      comm := { s.comm with
        state := if s.comm.streams.any fun r : Stream => r.current.isSome then .running else .idle } }

/-- A segment of a firing begins: STARTED is sent if the firing is not yet started (R66). -/
def State.beginFiring (s : State) (firing : Nat) : State :=
  match s.comm.cueList.find? fun f : Firing => f.id = firing with
  | none => s
  | some f =>
    if f.started then s
    else
      { s with
        comm := { s.comm with
          cueList := s.comm.cueList.map fun f : Firing => if f.id = firing then { f with started := true } else f } }.commReport
        .started f.cue

/-- A firing loses a segment; at 0 its entry leaves the list, and ENDED is sent if it had started (R66). -/
def State.loseSegment (s : State) (firing : Nat) : State :=
  match s.comm.cueList.find? fun f : Firing => f.id = firing with
  | none => s
  | some f =>
    if f.segments ≤ 1 then
      let s := { s with comm := { s.comm with cueList := s.comm.cueList.filter fun f : Firing => f.id ≠ firing } }
      if f.started then s.commReport .ended f.cue else s
    else
      { s with
        comm := { s.comm with
          cueList := s.comm.cueList.map fun f : Firing => if f.id = firing then { f with segments := f.segments - 1 } else f } }

/-- One segment discarded within an event; `told` are the firings whose DROPPED this event has sent. An event is here one
hand-over that the engine takes: a firing, a resume, a set of enabled slots, a stop (log 42). -/
def State.dropSegment (s : State) (told : List Nat) (cause : DropCause) (g : Segment) : State × List Nat :=
  if told.contains g.firing then (s.loseSegment g.firing, told)
  else ((s.commReport (.dropped cause) g.cue).loseSegment g.firing, told ++ [g.firing])

/-- The first segment of each firing, in order. -/
def firstOfEach (segments : List Segment) : List Segment :=
  segments.foldl (fun acc g => if acc.any fun h : Segment => h.firing = g.firing then acc else acc ++ [g]) []

/-- Segments discarded together: DROPPED once for each firing, then the ENDED that follow (R66). -/
def State.dropSegments (s : State) (cause : DropCause) (segments : List Segment) : State :=
  segments.foldl (fun s g => s.loseSegment g.firing)
    ((firstOfEach segments).foldl (fun s g => s.commReport (.dropped cause) g.cue) s)

/-! ### A stream's life (R67, R69, R70, R71) -/

/-- A stream's delay ends (R67). -/
def State.endDelay (s : State) (i : Fin 12) : State :=
  match (s.stream i).current with
  | none => s
  | some g =>
    let s := s.beginFiring g.firing
    if (s.stream i).demand then (s.setStream i fun r => { r with state := .waitVoice }).askVoice (.stream i)
    else s.setStream i fun r => { r with state := .quiet }

/-- A segment becomes current: the stream enters DELAY, which ends at once if its start time has come (R65, R71). -/
def State.makeCurrent (s : State) (i : Fin 12) (g : Segment) : State :=
  let s := s.setStream i fun r => { r with state := .delay, current := some g }
  if reached s.clock g.start then s.endDelay i else s

/-- A stream's current segment finishes and its next one follows (R71). -/
def State.finishSegment (s : State) (i : Fin 12) : State :=
  match (s.stream i).current with
  | none => s
  | some g =>
    let next := (s.stream i).next
    let s := (s.withdraw (.stream i)).setStream i fun r =>
      { r with state := .quiet, current := none, next := none, voice := none }
    let s := s.loseSegment g.firing
    match next with
    | none => s.settleEngine
    | some h => (s.makeCurrent i { h with start := later h.start s.clock }).settleEngine

/-- The page a segment has reached by elapsed time. -/
def Segment.pageAt (g : Segment) (now : Clock) : Nat := elapsed now g.start / 60

/-- A stream in virtual playback gains demand (R70). -/
def State.gainDemand (s : State) (i : Fin 12) : State :=
  match (s.stream i).state, (s.stream i).current with
  | .quiet, some g =>
    if g.pageAt s.clock < g.pages then
      (s.setStream i fun r => { r with state := .waitVoice }).askVoice (.stream i)
    else s.finishSegment i
  | _, _ => s

/-- Releases the voice a stream holds, or withdraws its request. -/
def State.letGo (s : State) (i : Fin 12) : State :=
  let held := (s.stream i).voice
  let s := (s.withdraw (.stream i)).setStream i fun r => { r with voice := none }
  match held with
  | some v => s.release v
  | none => s

/-- A stream loses its demand (R69). -/
def State.loseDemand (s : State) (i : Fin 12) : State :=
  match (s.stream i).state with
  | .waitVoice | .playing => (s.letGo i).setStream i fun r => { r with state := .quiet }
  | _ => s

/-- The demand of a stream (R63). -/
def State.demandNow (s : State) (i : Fin 12) : Bool :=
  s.seats.enabled.get i && (decide (0 < s.seats.counts.get i) || (decide (i = s.settings.speakerSlot) && s.mixer.need))

/-- One stream's demand derived again, and its reaction to a change. -/
def State.deriveDemandOf (s : State) (i : Fin 12) : State :=
  let demand := s.demandNow i
  if demand = (s.stream i).demand then s
  else
    let s := s.setStream i fun r => { r with demand := demand }
    if demand then s.gainDemand i else s.loseDemand i

/-- Every stream's demand derived again (R63). -/
def State.deriveDemand (s : State) : State := allSlots.foldl State.deriveDemandOf s

/-- The arbiter grants a stream in WAIT_VOICE a voice (R68). -/
def State.grantStream (s : State) (i : Fin 12) (v : Fin 16) : State :=
  match (s.stream i).current with
  | none => s
  | some g =>
    if g.pageAt s.clock < g.pages then
      match s.startVoice v (.stream i) .notice g.clip (g.pageAt s.clock) with
      | (s, .started) => s.setStream i fun r => { r with state := .playing, voice := some v }
      | (s, _) => s.finishSegment i
    else s.finishSegment i

/-! ### Placing a fired cue (R64, R65) -/

/-- The segment a clip-set entry forms, with its intended start (R64). -/
def State.formSegment (s : State) (firing cue mark : Nat) (fit : Option Nat) (e : ClipSetEntry) : Option Segment :=
  let delay := match e.mark with | some m => mark - m | none => 0
  let segment (variant : Variant) (c : ClipEntry) : Segment :=
    { firing := firing, cue := cue, clip := c.clip, variant := variant, pages := c.count, start := after s.clock delay }
  match s.clip e.long, e.short.bind s.clip with
  | none, none => none
  | none, some short => some (segment .short short)
  | some long, none => some (segment .long long)
  | some long, some short =>
    if fit.all fun remaining => decide (delay + long.count * 60 ≤ remaining) then some (segment .long long)
    else some (segment .short short)

/-- The segments a firing gives, in slot order (R64). -/
def State.formSegments (s : State) (firing cue mark : Nat) (fit : Option Nat) (set : ClipSet) : List (Fin 12 × Segment) :=
  allSlots.filterMap fun i =>
    if s.seats.enabled.get i then
      ((set.find? fun e : ClipSetEntry => e.slot = i).bind (s.formSegment firing cue mark fit)).map fun g => (i, g)
    else none

/-- One segment placed in its stream (R65). -/
def State.placeSegment (told : State × List Nat) (p : Fin 12 × Segment) : State × List Nat :=
  let (s, told) := told
  match (s.stream p.1).current with
  | none => (s.makeCurrent p.1 p.2, told)
  | some _ =>
    let old := (s.stream p.1).next
    let s := s.setStream p.1 fun r => { r with next := some p.2 }
    match old with
    | none => (s, told)
    | some g => s.dropSegment told .replaced g

/-- A firing placed on all its slots (R64, R65). Each placement is an event of its own for R66's "DROPPED once for each firing
in each event": where one step fires several COMMENTARY cues, a firing that loses segments to two of them is reported twice
(DEDUCED, log 42). -/
def State.place (s : State) (cue mark : Nat) (fit : Option Nat) (set : ClipSet) : State :=
  let segments := s.formSegments s.comm.nextFiring cue mark fit set
  if segments.isEmpty then s
  else
    let s := { s with
      comm := { s.comm with
        cueList := s.comm.cueList ++
          [{ id := s.comm.nextFiring, cue := cue, started := false, segments := segments.length }]
        nextFiring := s.comm.nextFiring + 1 } }
    (segments.foldl State.placeSegment (s, [])).1.settleEngine

/-- The cue engine hands a fired COMMENTARY cue (R64). -/
def State.fireCommentary (s : State) (cue mark : Nat) (set : ClipSet) : State :=
  if s.comm.state = .suspended then
    let old := s.comm.pendingFiring
    let s := { s with comm := { s.comm with pendingFiring := some { cue := cue, clipSet := set, mark := mark } } }
    match old with
    | some p => s.commReport (.dropped .replaced) p.cue
    | none => s
  else s.place cue mark s.fitResult set

/-! ### Suspension (R72) -/

/-- One stream suspended: its passage moves into the record, or finishes when its time has run out. -/
def State.suspendStream (told : State × List SuspendEntry) (i : Fin 12) : State × List SuspendEntry :=
  let (s, entries) := told
  match (s.stream i).current with
  | none => (s, entries)
  | some g =>
    let next := (s.stream i).next
    let page := if (s.stream i).state = .delay then 0 else g.pageAt s.clock
    let s := (s.letGo i).setStream i fun r => { r with state := .quiet, current := none, next := none }
    if page < g.pages then (s, entries ++ [{ slot := i, segment := g, page := page, next := next }])
    else
      (s.loseSegment g.firing,
       match next with
       | some h => entries ++ [{ slot := i, segment := h, page := 0, next := none }]
       | none => entries)

/-- The engine takes a suspend request (R72). -/
def State.suspend (s : State) : State :=
  if s.comm.state = .suspended then s
  else
    let (s, entries) := allSlots.foldl State.suspendStream (s, [])
    { s with
      comm := { s.comm with
        state := .suspended, suspend := some { travel := s.tracker.travel, entries := entries } } }

/-! ### Resumption (R73, R74, R75) -/

/-- The segments of an entry: its passage and the one behind it. -/
def SuspendEntry.segments (e : SuspendEntry) : List Segment := e.segment :: e.next.toList

/-- One recorded passage restarted, or discarded when its slot is no longer enabled (R75). -/
def State.restartEntry (told : State × List Nat) (e : SuspendEntry) : State × List Nat :=
  let (s, told) := told
  if s.seats.enabled.get e.slot then
    let page := e.page - s.settings.resumeRewind
    let g := { e.segment with start := s.clock - BitVec.ofNat 32 (page * 60) }
    let s := s.setStream e.slot fun r => { r with current := some g, next := e.next }
    let s := s.beginFiring g.firing
    if (s.stream e.slot).demand then
      ((s.setStream e.slot fun r => { r with state := .waitVoice }).askVoice (.stream e.slot), told)
    else (s.setStream e.slot fun r => { r with state := .quiet }, told)
  else e.segments.foldl (fun (p : State × List Nat) g => p.1.dropSegment p.2 .disabled g) (s, told)

/-- The pending firing placed as a fresh firing, with the resume as its firing time (R74). -/
def State.placePending (s : State) : State :=
  match s.comm.pendingFiring with
  | none => s.settleEngine
  | some p =>
    let s := { s with comm := { s.comm with pendingFiring := none } }
    (s.place p.cue p.mark s.fitResult p.clipSet).settleEngine

/-- Whether a suspend record is stale (R73). -/
def State.stale (s : State) (r : SuspendRecord) : Bool :=
  decide (s.settings.resumeLimit < (s.tracker.travel - r.travel).toNat)

/-- The engine takes a resume request (R73, R74, R75). -/
def State.resume (s : State) : State :=
  if s.comm.state ≠ .suspended then s
  else
    let record := s.comm.suspend.getD { travel := s.tracker.travel, entries := [] }
    let out := { s with comm := { s.comm with state := .idle, suspend := none } }
    if s.stale record then (out.dropSegments .stale (record.entries.flatMap SuspendEntry.segments)).placePending
    else if s.comm.pendingFiring.isSome then
      (out.dropSegments .replaced (record.entries.flatMap SuspendEntry.segments)).placePending
    else (record.entries.foldl State.restartEntry (out, [])).1.settleEngine

/-! ### Enabled slots and stop (R62, R76) -/

/-- The segments of a stream. -/
def Stream.segments (r : Stream) : List Segment := r.current.toList ++ r.next.toList

/-- A stream gives up its voice or request and its segments, and enters a state without any. -/
def State.clearStream (s : State) (i : Fin 12) (state : StreamState) : State :=
  (s.letGo i).setStream i fun r => { r with state := state, current := none, next := none }

/-- The stream state of a slot that has just been enabled or disabled (R62). -/
def State.enableStream (s : State) (i : Fin 12) : State :=
  if s.seats.enabled.get i then
    if (s.stream i).state = .off then s.setStream i fun r => { r with state := .quiet } else s
  else s.clearStream i .off

/-- The seat table hands a new set of enabled slots (R62). -/
def State.applyEnabled (s : State) : State :=
  let lost := (allSlots.filter fun i => !s.seats.enabled.get i).flatMap fun i => (s.stream i).segments
  ((allSlots.foldl State.enableStream s).dropSegments .disabled lost).settleEngine

/-- All commentary stops, on a route change or entry to SERVICE (R76). -/
def State.stopCommentary (s : State) : State :=
  let lost := (allSlots.flatMap fun i => (s.stream i).segments) ++
    (s.comm.suspend.map fun r : SuspendRecord => r.entries.flatMap SuspendEntry.segments).getD []
  let pending := s.comm.pendingFiring
  let s := allSlots.foldl (fun (s : State) i =>
    if (s.stream i).state = .off then s else s.clearStream i .quiet) s
  let s := { s with
    comm := { s.comm with
      pendingFiring := none
      suspend := if s.comm.state = EngineState.suspended then some { travel := s.tracker.travel, entries := [] } else none } }
  let s := (firstOfEach lost).foldl (fun s g => s.commReport (.dropped .stopped) g.cue) s
  let s := match pending with
    | some p => s.commReport (.dropped .stopped) p.cue
    | none => s
  (lost.foldl (fun (s : State) g => s.loseSegment g.firing) s).settleEngine

/-! ### Reading (R77) -/

/-- The position of a stream's current segment. -/
def State.streamPosition (s : State) (i : Fin 12) : Option Nat :=
  (s.stream i).current.map fun g : Segment =>
    match (s.stream i).state, (s.stream i).voice with
    | .delay, _ => 0
    | .playing, some v => (s.voice v).nextPlay
    | _, _ => g.pageAt s.clock

/-- The fields of GET_STREAMS. -/
def State.streamsView (s : State) : ReplyData :=
  .streams s.comm.state s.comm.streams s.seats.counts (Table.ofFn s.streamPosition) s.comm.cueList
    (s.comm.pendingFiring.map PendingFiring.cue) s.comm.suspend

end Sys2Proof.Machine
end

