-- ==== Sys2Proof/Machine/Announcements.lean ====
section
/-! DEFINITION. The announcement engine (05): ranks, admission, pre-emption, the resume stack, selection, starting, fan-out
and ends. What it hands its neighbours at the end of an event is in Arbiter.lean. -/

namespace Sys2Proof.Machine

/-! ### Ranks, held entries and reports (R81, R82, R103) -/

/-- The classes of a precedence code, highest rank first (R81). -/
def classOrder : Nat → List AnnClass
  | 0 => [.warning, .live, .stop, .notice]
  | 1 => [.warning, .live, .notice, .stop]
  | 2 => [.warning, .stop, .live, .notice]
  | 3 => [.warning, .stop, .notice, .live]
  | 4 => [.warning, .notice, .live, .stop]
  | _ => [.warning, .notice, .stop, .live]

/-- The place of a class in the order: 0 is the highest. -/
def rank (code : Fin 6) (c : AnnClass) : Nat := (classOrder code.val).idxOf c

/-- Every entry held: queue, active slot, resume stack. -/
def Announcements.held (a : Announcements) : List Entry := a.queue ++ a.active.toList ++ a.stack

/-- The first ticket from the counter on that no held entry has (R82). -/
def Announcements.freshTicket (a : Announcements) : Nat :=
  (((List.range 256).map fun k => (a.ticketCounter + k) % 256).find? fun t =>
    !(a.held.any fun e : Entry => e.ticket = t)).getD a.ticketCounter

/-- How far an entry's admission lies behind the admission counter: the older the larger (R82). -/
def Announcements.age (a : Announcements) (e : Entry) : Nat := (a.admissionCounter - e.order).toNat

/-- The state with the announcement engine changed. -/
def State.setAnn (s : State) (f : Announcements → Announcements) : State := { s with ann := f s.ann }

/-- The state with the active entry changed. -/
def State.setActive (s : State) (f : Entry → Entry) : State := s.setAnn fun a => { a with active := a.active.map f }

/-- Sends an ANNOUNCE_EVENT about an entry. -/
def State.annReport (s : State) (event : AnnEvent) (e : Entry) : State :=
  s.report (.announceEvent event e.cls e.source e.cue s.clock)

/-- An entry that has left the engine is reported ENDED. -/
def State.annEnded (s : State) (e : Entry) (outcome : AnnOutcome) : State := s.annReport (.ended e.ticket outcome) e

/-- Gives an entry its ticket and admission order (R82). -/
def State.giveTicket (s : State) (e : Entry) : State × Entry :=
  let t := s.ann.freshTicket
  (s.setAnn fun a => { a with ticketCounter := (t + 1) % 256, admissionCounter := a.admissionCounter + 1 },
   { e with ticket := t, order := s.ann.admissionCounter })

/-! ### The queue and the resume stack (R87, R88, R101) -/

/-- An entry takes its place in the queue: behind every entry of its class or a higher one (R87). -/
def insertQueue (code : Fin 6) (queue : List Entry) (e : Entry) : List Entry :=
  queue.takeWhile (fun q => decide (rank code q.cls ≤ rank code e.cls)) ++ e ::
    queue.dropWhile (fun q => decide (rank code q.cls ≤ rank code e.cls))

/-- The queue sorted again in a class order, keeping the order within a class (R101). -/
def resort (code : Fin 6) (queue : List Entry) : List Entry :=
  (classOrder code.val).flatMap fun c => queue.filter fun e => decide (e.cls = c)

/-- The rank of the lowest-ranked class in the queue. -/
def lowestRank (code : Fin 6) (queue : List Entry) : Nat := queue.foldl (fun n e => max n (rank code e.cls)) 0

/-- The newest entry of the lowest-ranked class of the queue (R87). -/
def Announcements.evictable (a : Announcements) : Option Entry :=
  (a.queue.filter fun e => decide (rank a.code e.cls = lowestRank a.code a.queue)).foldl
    (fun best e =>
      match best with
      | none => some e
      | some b => if a.age e < a.age b then some e else some b) none

/-- An entry pushed onto the resume stack; a full stack loses its bottom record (R88). -/
def State.pushStack (s : State) (e : Entry) : State :=
  if e.source = .cue ∧ (e.route ≠ some s.cues.routeNumber ∨ s.cues.routeState ≠ .ready) then s.annEnded e .cancelled
  else
    let r := { e with phase := .queued, map := none, speakerVoice := none, chimeVoice := none, restart := true, voices := [] }
    let lost := if s.ann.stack.length < 4 then none else s.ann.stack.getLast?
    let s := s.setAnn fun a => { a with stack := (r :: a.stack).take 4 }
    match lost with
    | some b => s.annEnded b .lost
    | none => s

/-! ### Leaving the active slot (R86, R95, R97, R98, R100) -/

/-- The active entry's voices enter their fade and its voice request is withdrawn. -/
def State.releaseActive (s : State) : State :=
  match s.ann.active with
  | none => s
  | some e => (e.voices ++ e.chimeVoice.toList).foldl State.release (s.withdraw .announcement)

/-- The active slot empties: a sounding NOTICE ends its sounding, and the hang timer is idle. -/
def State.leaveActive (s : State) : State :=
  let s := s.setAnn fun a => { a with active := none, hangTimer := none }
  if s.mixer.sounding then { s with mixer := s.mixer.soundingEnds s.clock } else s

/-- The active entry ends. The next candidate is selected by the caller. -/
def State.endActive (s : State) (outcome : AnnOutcome) : State :=
  match s.ann.active with
  | none => s
  | some e => s.releaseActive.leaveActive.annEnded e outcome

/-! ### Fan-out (R93) -/

/-- Puts a slot into a list ordered by listeners, before those with no more than it has. -/
def insertByCount (counts : Table Nat 12) (i : Fin 12) : List (Fin 12) → List (Fin 12)
  | [] => [i]
  | j :: rest => if counts.get j ≤ counts.get i then i :: j :: rest else j :: insertByCount counts i rest

/-- Slots in descending order of listeners, equal counts in ascending slot order. -/
def byListeners (counts : Table Nat 12) (slots : List (Fin 12)) : List (Fin 12) := slots.foldr (insertByCount counts) []

/-- The clip a clip list gives a slot; a clip absent from the cache is treated as absent. -/
def State.clipOf (s : State) (e : Entry) (i : Fin 12) : Option Nat :=
  match e.clips.find? fun p : Fin 12 × Nat => p.1 = i with
  | some p => if (s.clip p.2).isSome then some p.2 else none
  | none => none

/-- The speaker clip: the speaker slot's, or that of the lowest slot that has one. -/
def State.speakerClip (s : State) (e : Entry) : Option Nat :=
  (s.clipOf e s.settings.speakerSlot).orElse fun _ => allSlots.findSome? (s.clipOf e)

/-- Whether a slot is enabled and has listeners. -/
def State.heard (s : State) (i : Fin 12) : Bool := s.seats.enabled.get i && decide (0 < s.seats.counts.get i)

/-- A fan-out as it is formed: the map, the voices started, the speaker voice. -/
structure FanOut where
  map : Table SlotMap 12
  voices : List (Fin 16)
  speaker : Option (Fin 16)

/-- Starts a clip of an entry from page 0 on the lowest-numbered free voice; a voice that ends at its start is none of the
entry's voices. -/
def State.startRole (s : State) (e : Entry) (role : Role) (clip : Nat) : State × Option (Fin 16) × List (Fin 16) :=
  match s.freeVoice with
  | none => (s, none, [])
  | some v =>
    match s.startVoice v (.announcement e.ticket role) e.cls clip 0 with
    | (s, .started) => (s, some v, [v])
    | (s, _) => (s, some v, [])

/-- One ranked slot is given the speaker voice, a voice of its own, or FALLBACK. -/
def State.fanSlot (e : Entry) (speakerClip : Option Nat) (acc : State × FanOut) (i : Fin 12) : State × FanOut :=
  let (s, f) := acc
  match s.clipOf e i, f.speaker with
  | none, _ => acc
  | some clip, some v =>
    if some clip = speakerClip then (s, { f with map := f.map.set i (.own v) })
    else
      match s.startRole e (.slot i) clip with
      | (s, some w, vs) => (s, { f with map := f.map.set i (.own w), voices := f.voices ++ vs })
      | (s, none, _) => (s, { f with map := f.map.set i .fallback })
  | some _, none => (s, { f with map := f.map.set i .fallback })

/-- The map before the ranked slots take their entries: steps 3 and 4 of R93. -/
def State.fanBase (s : State) (e : Entry) (speakerClip : Option Nat) (speaker : Option (Fin 16)) : Table SlotMap 12 :=
  Table.ofFn fun i =>
    if s.heard i && (s.clipOf e i).isNone then .fallback
    else
      match speaker with
      | some v =>
        if s.seats.enabled.get i && decide (s.seats.counts.get i = 0) && (s.clipOf e i).isSome &&
            decide (s.clipOf e i = speakerClip) then .own v
        else .none
      | none => .none

/-- Forms the fan-out of an entry and starts its voices (R93). -/
def State.fanOut (s : State) (e : Entry) : State × FanOut :=
  let clip := s.speakerClip e
  let (s, speaker, voices) :=
    match clip with
    | some c => s.startRole e .speaker c
    | none => (s, none, [])
  let ranked := byListeners s.seats.counts (allSlots.filter fun i => s.heard i && (s.clipOf e i).isSome)
  ranked.foldl (State.fanSlot e clip) (s, { map := s.fanBase e clip speaker, voices := voices, speaker := speaker })

/-- The slots with listeners that a map leaves on FALLBACK. -/
def State.degradedSlots (s : State) (map : Table SlotMap 12) : Nat :=
  (allSlots.filter fun i => decide (0 < s.seats.counts.get i) && decide (map.get i = .fallback)).length

/-- The mixer takes the active entry's map for the voices that still play (R94). -/
def State.handMap (s : State) : State :=
  match s.ann.active with
  | none => s
  | some e =>
    match e.map with
    | none => s
    | some map => { s with mixer := s.mixer.applyMap map e.cls e.speakerVoice e.voices }

/-- The active entry enters PLAYING with its fan-out, and ends at once when it has no voice (R93, R94). -/
def State.playActive (s : State) : State :=
  match s.ann.active with
  | none => s
  | some e =>
    let (s, f) := s.fanOut e
    let s := (s.setActive fun e =>
      { e with phase := .playing, map := some f.map, voices := f.voices, chimeVoice := none
               speakerVoice := f.speaker.filter f.voices.contains }).handMap
    let lacking := s.degradedSlots f.map
    let s := if lacking = 0 then s else s.annReport (.degraded e.ticket lacking) e
    if f.voices.isEmpty then s.endActive .completed else s

/-! ### Starting (R90, R91, R92) -/

/-- The chime clip of a class; 0 is none. -/
def Settings.chime (g : Settings) : AnnClass → Nat
  | .stop => g.stopChime
  | .notice => g.noticeChime
  | .warning => g.warningChime
  | .live => 0

/-- The free voice on which an entry plays its chime, if it plays one (R92). -/
def State.chimeOn (s : State) (e : Entry) : Option (Fin 16) :=
  let clip := s.settings.chime e.cls
  if clip = 0 ∨ (s.clip clip).isNone ∨ e.restart then none else s.freeVoice

/-- A NOTICE that leaves phase QUEUED begins to sound (R100, R148). -/
def State.soundNotice (s : State) (e : Entry) : State :=
  if e.cls = .notice then { s with mixer := s.mixer.soundingBegins s.settings.duckDepth.val s.clock } else s

/-- The active entry starts: LIVE enters PLAYING, another class plays its chime or forms its fan-out. -/
def State.startActive (s : State) : State :=
  match s.ann.active with
  | none => s
  | some e =>
    let s := s.soundNotice e
    let started (s : State) : State := s.annReport (.started e.ticket e.restart) e
    if e.cls = .live then started (s.setActive fun e => { e with phase := .playing })
    else
      match s.chimeOn e with
      | some v =>
        match s.startVoice v (.chime e.ticket) e.cls (s.settings.chime e.cls) 0 with
        | (s, .started) => started (s.setActive fun e => { e with phase := .chime, chimeVoice := some v })
        | (s, _) => (started s).playActive
      | none => (started s).playActive

/-- The announce class of the active slot (R100). -/
def Announcements.announceClass (a : Announcements) : AnnounceClass :=
  match a.active with
  | none => .none
  | some e =>
    match e.cls with
    | .warning => .warning
    | .stop => .stop
    | .live | .notice => .none

/-- The light controller takes the announce class (R100, R157), where an entry becomes active and where a selection leaves the
slot empty. An entry that leaves with a successor hands nothing of its own: the successor's class is handed in its place
(DEDUCED, log 36). -/
def State.handClass (s : State) : State :=
  { s with
    lights := s.lights.handClass s.ann.announceClass s.settings.warningGroup s.settings.stopGroup s.clock }

/-- An entry becomes active in phase QUEUED: one heard alone suspends commentary and starts when all voices are FREE; a
NOTICE resumes it and starts when a voice is free, or asks for one (R90, R91). -/
def State.activate (s : State) (e : Entry) : State :=
  let s := (s.setAnn fun a => { a with active := some { e with phase := .queued } }).handClass
  if e.cls = .notice then
    let s := s.resume
    if s.freeVoice.isSome then s.startActive else s.askVoice .announcement
  else
    let s := s.suspend
    if s.allFree then s.startActive else s

/-! ### Selecting a candidate (R89) -/

/-- Whether a candidate has expired. -/
def State.expired (s : State) (e : Entry) : Bool :=
  match e.expiry with
  | .never => false
  | .chainage limit => decide (limit < s.tracker.chainage)
  | .wait limit => decide (limit < elapsed s.clock e.admitted)

/-- Takes the candidate from its place: the higher-ranked of the stack's top and the queue's head, the stack's if equal. -/
def Announcements.takeCandidate (a : Announcements) : Option (Entry × Announcements) :=
  match a.stack, a.queue with
  | [], [] => none
  | t :: ts, [] => some (t, { a with stack := ts })
  | [], q :: qs => some (q, { a with queue := qs })
  | t :: ts, q :: qs =>
    if rank a.code q.cls < rank a.code t.cls then some (q, { a with queue := qs }) else some (t, { a with stack := ts })

/-- Selects until an entry stays active or none is left; each round takes one entry. With none left the light controller is
handed class none and commentary resumes (R89, R100): what fires later in the event meets the lights without the class that
left (DEDUCED, log 36). -/
def State.selectRounds : Nat → State → State
  | 0, s => s
  | n + 1, s =>
    match s.ann.active with
    | some _ => s
    | none =>
      match s.ann.takeCandidate with
      | none => s.handClass.resume
      | some (e, a) =>
        let s := s.setAnn fun _ => a
        if s.expired e then State.selectRounds n (s.annEnded e .expired) else State.selectRounds n (s.activate e)

/-- Selects a candidate if the active slot is empty. -/
def State.select (s : State) : State := State.selectRounds (s.ann.queue.length + s.ann.stack.length + 1) s

/-! ### Admission (R85, R86, R87) -/

/-- What became of a formed entry. -/
inductive Admission where
  | admitted (ticket : Nat)
  | merged (ticket : Nat)
  | full

/-- The held entry that a formed entry merges with (R85). -/
def Announcements.duplicate (a : Announcements) (e : Entry) : Option Entry :=
  a.held.find? fun h => decide (h.cls = e.cls) && decide (h.clipSet = e.clipSet)

/-- Whether a formed entry pre-empts the active one (R86). -/
def Announcements.preempts (a : Announcements) (e : Entry) : Bool :=
  match a.active with
  | none => false
  | some x =>
    (decide (e.cls = .warning) && decide (x.cls ≠ .warning)) ||
      (decide (e.cls = .live) && decide (rank a.code .live < rank a.code x.cls))

/-- The active entry gives way to a pre-empting one (R86). -/
def State.preempt (s : State) (e : Entry) : State × Admission :=
  let old := s.ann.active
  let s := s.releaseActive.leaveActive
  let s :=
    match old with
    | none => s
    | some x => if x.phase = Phase.hang then s.annEnded x .completed else s.pushStack x
  let (s, e) := s.giveTicket e
  ((s.activate e).select, .admitted e.ticket)

/-- A formed entry joins the queue, and is selected at once if the engine was empty (R87). -/
def State.joinQueue (s : State) (e : Entry) : State × Admission :=
  let (s, e) := s.giveTicket e
  ((s.setAnn fun a => { a with queue := insertQueue a.code a.queue e }).select, .admitted e.ticket)

/-- A formed entry passes through the duplicate test, the pre-emption test and the queue. -/
def State.admitEntry (s : State) (e : Entry) : State × Admission :=
  match s.ann.duplicate e with
  | some h => (s, .merged h.ticket)
  | none =>
    if s.ann.preempts e then s.preempt e
    else if s.ann.queue.length < 8 then s.joinQueue e
    else
      match s.ann.evictable with
      | none => (s, .full)
      | some old =>
        if rank s.ann.code e.cls < rank s.ann.code old.cls then
          ((s.setAnn fun a => { a with queue := a.queue.erase old }).annEnded old .evicted).joinQueue e
        else (s, .full)

/-- A cue or PTT admission: a merge is silent, a refusal is reported DROPPED (R84, R96). -/
def State.admitSilently (s : State) (e : Entry) : State :=
  match s.admitEntry e with
  | (s, .full) => s.annReport .dropped e
  | (s, _) => s

/-- The clip list of a clip set: its long clips (Table 5-1). -/
def clipList (set : ClipSet) : List (Fin 12 × Nat) := set.map fun e => (e.slot, e.long)

/-- The entry that a fired STOP or WARNING cue forms (R84). -/
def State.cueEntry (s : State) (cls : AnnClass) (cue ref : Nat) (set : ClipSet) (limit : Nat) : Entry :=
  { cls := cls, source := .cue, clipSet := some ref, clips := clipList set, route := some s.cues.routeNumber
    cue := some cue, expiry := .chainage limit, admitted := s.clock }

/-- The entry that an ANNOUNCE forms (R83). -/
def State.linkEntry (s : State) (cls : AnnClass) (ref : Nat) (set : ClipSet) (maxWait : Option Nat) : Entry :=
  { cls := cls, source := .link, clipSet := some ref, clips := clipList set, route := none, cue := none
    expiry := match maxWait with | some w => .wait w | none => .never
    admitted := s.clock }

/-- The entry that a press forms (R84, R96). -/
def State.liveEntry (s : State) : Entry :=
  { cls := .live, source := .ptt, clipSet := none, clips := [], route := none, cue := none, expiry := .never
    admitted := s.clock }

/-! ### Press-to-talk (R96, R97) -/

/-- Whether a LIVE entry is held. -/
def Announcements.liveHeld (a : Announcements) : Bool := a.held.any fun e : Entry => e.cls = .live

/-- The button is pressed. -/
def State.livePress (s : State) : State :=
  let s := s.setAnn fun a => { a with pressed := true }
  match s.ann.active with
  | some e =>
    if e.cls = .live ∧ e.phase = .hang then
      (s.setAnn fun a => { a with hangTimer := none }).setActive fun e => { e with phase := .playing }
    else if s.ann.liveHeld then s
    else s.admitSilently s.liveEntry
  | none => if s.ann.liveHeld then s else s.admitSilently s.liveEntry

/-- A queued or stacked LIVE entry is withdrawn. -/
def State.withdrawLive (s : State) : State :=
  let waiting := (s.ann.queue ++ s.ann.stack).filter fun e => decide (e.cls = .live)
  waiting.foldl (fun s e => s.annEnded e .withdrawn)
    (s.setAnn fun a =>
      { a with queue := a.queue.filter fun e => decide (e.cls ≠ .live)
               stack := a.stack.filter fun e => decide (e.cls ≠ .live) })

/-- The button is released. -/
def State.liveRelease (s : State) : State :=
  let s := s.setAnn fun a => { a with pressed := false }
  match s.ann.active with
  | some e =>
    if e.cls = .live then
      match e.phase with
      | .playing =>
        if s.settings.liveHang = 0 then (s.endActive .completed).select
        else
          (s.setAnn fun a => { a with hangTimer := some (after s.clock s.settings.liveHang) }).setActive fun e =>
            { e with phase := .hang }
      | .queued => (s.endActive .withdrawn).select
      | .chime | .hang => s
    else s.withdrawLive
  | none => s.withdrawLive

/-! ### Voices of the active entry (R92, R94, R95) -/

/-- A voice of the active entry has ended; it is FREE already. -/
def State.annVoiceEnded (s : State) (v : Fin 16) : State :=
  match s.ann.active with
  | none => s
  | some e =>
    if e.chimeVoice = some v then
      if e.phase = .chime then ((s.setActive fun e => { e with chimeVoice := none }).playActive).select else s
    else if e.voices.contains v then
      let s := s.setActive fun e =>
        { e with voices := e.voices.filter (· ≠ v)
                 speakerVoice := if e.speakerVoice = some v then none else e.speakerVoice }
      if e.voices.filter (· ≠ v) = [] then (s.endActive .completed).select else s.handMap
    else s

/-- The voice engine tells that a voice has become FREE: an entry heard alone that waits starts when all are (R90, R117). -/
def State.tellFree (s : State) : State :=
  match s.ann.active with
  | none => s
  | some e => if e.cls ≠ .notice ∧ e.phase = .queued ∧ s.allFree then s.startActive.select else s

/-- The arbiter grants the waiting NOTICE: it starts with the voices free now (R91). -/
def State.grantNotice (s : State) : State :=
  match s.ann.active with
  | none => s
  | some e => if e.cls = .notice ∧ e.phase = .queued then s.startActive.select else s

/-! ### Cancellation, the route and reading (R98, R99, R102) -/

/-- A queued or stacked entry is taken out by its ticket. -/
def State.removeWaiting (s : State) (ticket : Nat) : State :=
  s.setAnn fun a =>
    { a with queue := a.queue.filter fun e => decide (e.ticket ≠ ticket)
             stack := a.stack.filter fun e => decide (e.ticket ≠ ticket) }

/-- The entry with a ticket. -/
def Announcements.byTicket (a : Announcements) (ticket : Nat) : Option Entry :=
  a.held.find? fun e : Entry => e.ticket = ticket

/-- An entry is cancelled (R98). -/
def State.cancelEntry (s : State) (e : Entry) : State :=
  if s.ann.active.any fun x : Entry => x.ticket = e.ticket then (s.endActive .cancelled).select
  else (s.removeWaiting e.ticket).annEnded e .cancelled

/-- A route change removes the waiting CUE entries (R99). R99 gives the ENDED reports no order among themselves: the model
reports the queue from its head, then the stack from its top (DESIGN CHOICE, log 37). -/
def State.dropCueEntries (s : State) : State :=
  let gone := (s.ann.queue ++ s.ann.stack).filter fun e => decide (e.source = .cue)
  gone.foldl (fun s e => s.annEnded e .cancelled)
    (s.setAnn fun a =>
      { a with queue := a.queue.filter fun e => decide (e.source ≠ .cue)
               stack := a.stack.filter fun e => decide (e.source ≠ .cue) })

/-- The precedence code set, and the queue sorted again (R101). -/
def Announcements.setCode (a : Announcements) (code : Fin 6) : Announcements :=
  { a with code := code, queue := resort code a.queue }

/-- An entry as the reply shows it. -/
def Entry.view (e : Entry) : EntryView :=
  { ticket := e.ticket, cls := e.cls, source := e.source, clipSet := e.clipSet, cue := e.cue, expiry := e.expiry
    admitted := e.admitted }

/-- The fields of GET_ANNOUNCEMENTS (R102). -/
def Announcements.view (a : Announcements) : ReplyData :=
  .announcements a.code.val a.ticketCounter a.pressed
    (a.active.map fun e : Entry =>
      { entry := e.view, phase := e.phase, restart := e.restart, speakerVoice := e.speakerVoice, chimeVoice := e.chimeVoice
        map := e.map, hang := if e.phase = .hang then a.hangTimer else none })
    (a.queue.map Entry.view) (a.stack.map Entry.view)

end Sys2Proof.Machine
end

