-- ==== Sys2Proof/Machine/Arbiter.lean ====
section
/-! DEFINITION. What the blocks hand one another: listener counts, enabled slots and the commentary need on their way to the
engines, the ends of voices, the voice arbiter, and the end of every event. -/

namespace Sys2Proof.Machine

/-! ### Listener counts, enabled slots, commentary need (R45, R47, R58, R63, R145) -/

/-- Sends a LISTENERS report of the counts at this moment (R58). -/
def State.sendListeners (s : State) : State :=
  { s with seats := { s.seats with reported := s.seats.counts, lastReport := some s.clock } }.report
    (.listeners s.seats.counts s.clock)

/-- The counts have changed: the report is sent at once, or stands pending for the rest of the 250 ms (R58). -/
def State.tellListeners (s : State) : State :=
  match s.seats.lastReport with
  | none => s.sendListeners
  | some t =>
    if 250 ≤ elapsed s.clock t then s.sendListeners else { s with seats := { s.seats with reportPending := true } }

/-- Whether a pending LISTENERS report has fallen due (R58). -/
def State.listenersDue (s : State) : Bool :=
  s.seats.reportPending && s.seats.lastReport.all fun t => reached s.clock (after t 250)

/-- The 250 ms have passed: the pending flag clears, and a report goes if the counts differ from those last reported. -/
def State.endListenersHold (s : State) : State :=
  let s := { s with seats := { s.seats with reportPending := false } }
  if s.seats.counts = s.seats.reported then s else s.sendListeners

/-- A changed seat table: derived fields and counts are formed again, and changed counts are handed on (R47). -/
def State.seatsTaken (s : State) (t : SeatTable) : State :=
  let t := t.derive s.settings
  let counts := t.countsNow
  let changed := decide (counts ≠ s.seats.counts)
  let s := { s with seats := { t with counts := counts } }
  if changed then s.deriveDemand.tellListeners else s

/-- The set of enabled slots is formed again and, when it has changed, handed on (R45). -/
def State.refreshEnabled (s : State) : State :=
  let enabled := s.enabledNow
  if enabled = s.seats.enabled then s
  else
    let t := { s.seats with enabled := enabled }.derive s.settings
    let counts := t.countsNow
    let changed := decide (counts ≠ s.seats.counts)
    let s := ({ s with seats := { t with counts := counts } }.applyEnabled).deriveDemand
    if changed then s.tellListeners else s

/-- The mixer derives the commentary need and hands a changed value (R145). -/
def State.deriveNeed (s : State) : State :=
  if s.mixer.needNow = s.mixer.need then s
  else { s with mixer := { s.mixer with need := s.mixer.needNow } }.deriveDemand

/-- The quiet-zone flag set or cleared (R145). -/
def State.setQuiet (s : State) (quiet : Bool) : State := { s with mixer := { s.mixer with quiet := quiet } }.deriveNeed

/-! ### The end of a voice (R110, R117) -/

/-- The owner of a voice that has ended acts, and the announcement engine is told; the voice is FREE already. -/
def State.ownerActs (s : State) (owner : Option Owner) (v : Fin 16) : State :=
  (match owner with
   | some (.stream i) => s.finishSegment i
   | some (.announcement _ _) => s.annVoiceEnded v
   | some (.chime _) => s.annVoiceEnded v
   | none => s).tellFree

/-- A voice ends: it becomes FREE, its owner acts, then the announcement engine is told. -/
def State.voiceEnded (s : State) (v : Fin 16) : State := (s.dropVoice v).ownerActs (s.voice v).owner v

/-! ### The voice arbiter (R116) -/

/-- The slot of a stream's request. -/
def Requester.slot : Requester → Option (Fin 12)
  | .announcement => none
  | .stream i => some i

/-- The stream served first: the speaker slot's, then by descending listeners, then by ascending slot. -/
def firstStream (requests : List Requester) (speaker : Fin 12) (counts : Table Nat 12) : Option (Fin 12) :=
  if requests.contains (.stream speaker) then some speaker
  else (byListeners counts (allSlots.filter fun i => requests.contains (.stream i))).head?

/-- The first waiting requester. -/
def State.firstRequest (s : State) : Option Requester :=
  if s.voices.requests.contains .announcement then some .announcement
  else (firstStream s.voices.requests s.settings.speakerSlot s.seats.counts).map .stream

/-- One grant after another until no voice is FREE or no request waits. -/
def State.grants : Nat → State → State
  | 0, s => s
  | n + 1, s =>
    match s.freeVoice, s.firstRequest with
    | some _, some .announcement => State.grants n (s.withdraw .announcement).grantNotice
    | some v, some (.stream i) => State.grants n ((s.withdraw (.stream i)).grantStream i v).tellFree
    | _, _ => s

/-- More grants than one event can ask for: every grant uses up a request, a segment or an announcement. -/
def grantLimit : Nat := 100

/-- The arbitration at the end of an event. -/
@[irreducible] def State.arbitrate (s : State) : State := State.grants grantLimit s

/-! ### The end of an event (R100, R118, R174) -/

/-- Whether a WARNING is active. -/
def Announcements.warningActive (a : Announcements) : Bool := a.active.any fun e : Entry => e.cls = .warning

/-- Whether the microphone is open: a LIVE entry active in PLAYING or HANG. -/
def Announcements.microphone (a : Announcements) : Bool :=
  a.active.any fun e : Entry => decide (e.cls = .live) && (decide (e.phase = .playing) || decide (e.phase = .hang))

/-- The announcement engine hands what it has become: the announce class, WARNING active, the microphone (R100). The class is
handed already where an entry becomes active and where a selection leaves the slot empty; naming it again here changes nothing
(R157, log 36). WARNING active is handed as it stands after the event (R100). -/
def State.publish (s : State) : State :=
  let s := s.handClass
  let s := { s with mixer := { s.mixer with microphone := s.ann.microphone } }
  if s.ann.warningActive = s.seats.warningActive then s
  else { s with seats := { s.seats with warningActive := s.ann.warningActive }.derive s.settings }

/-- The end of an event: the arbiter grants, the announcement engine hands its state, the port and the transmitter choose. R174
does not say when within an event an idle transmitter takes a frame: it takes one here and not before, so that a reply leaves
ahead of the reports of its event (DESIGN CHOICE, log 41). -/
def State.endEvent (s : State) : State := s.arbitrate.publish.settlePort.kick

end Sys2Proof.Machine
end

