-- ==== Sys2Proof/Machine/CueEngine.lean ====
section
/-! DEFINITION. The cue engine (02): firing, skipping and re-arming cues, route changes and route loads. -/

namespace Sys2Proof.Machine

/-! ### Firing (R35, R36, R39) -/

/-- The state with the cue table changed. -/
def State.setCues (s : State) (f : List Cue → List Cue) : State := { s with cues := { s.cues with cues := f s.cues.cues } }

/-- Sends a CUE_EVENT about cue `n`. -/
def State.cueReport (s : State) (event : CueEvent) (n : Nat) (kind : CueKind) (forced : Bool) : State :=
  s.report (.cueEvent event n kind forced s.tracker.chainage s.clock)

/-- The end of a cue's late window (R31, R36). -/
def Cue.lateEnd (c : Cue) : Nat := c.anchor + c.late * 1000

/-- The clip set a cue refers to, with its number; `none` when it is missing (R35). -/
def State.clipSetOf (s : State) (c : Cue) : Option (Nat × ClipSet) :=
  match c.ref with
  | none => none
  | some r => (s.cues.clipSets[r]?).map fun set => (r, set)

/-- Hands a fired cue's content to its target; `none` when the content is missing (R35, R36). -/
def State.handCue (s : State) (n : Nat) (c : Cue) : Option State :=
  match c.kind with
  | .commentary => (s.clipSetOf c).map fun p => s.fireCommentary n c.mark p.2
  | .stop => (s.clipSetOf c).map fun p => s.admitSilently (s.cueEntry .stop n p.1 p.2 (min c.lateEnd maxChainage))
  | .warning => (s.clipSetOf c).map fun p => s.admitSilently (s.cueEntry .warning n p.1 p.2 (min c.lateEnd maxChainage))
  | .scene =>
    match c.ref with
    | none => none
    | some r => (s.cues.scenes[r]?).map fun scene => { s with lights := s.lights.applyScene scene s.clock }
  | .quietOn => some (s.setQuiet true)
  | .quietOff => some (s.setQuiet false)

/-- Fires a cue (R35). -/
def State.fireCue (forced : Bool) (s : State) (n : Nat) : State :=
  match s.cues.cues[n]? with
  | none => s
  | some c =>
    let s := s.setCues fun cs => cs.set n { c with state := .fired }
    match s.handCue n c with
    | some s => s.cueReport .fired n c.kind forced
    | none => s.cueReport .noContent n c.kind forced

/-! ### The advance rule (R30) -/

/-- Whether cue `n` is ARMED with its trigger at or below the chainage. -/
def State.cueDue (s : State) (n : Nat) : Bool :=
  match s.cues.cues[n]? with
  | none => false
  | some c => decide (c.state = .armed) && decide (s.trigger c ≤ s.tracker.chainage)

/-- The anchor of cue `n`. -/
def State.anchorOf (s : State) (n : Nat) : Nat := (s.cues.cues[n]?).elim 0 Cue.anchor

/-- Puts a cue number into a list ordered by anchor, before those with no lower one. -/
def State.insertByAnchor (s : State) (n : Nat) : List Nat → List Nat
  | [] => [n]
  | m :: rest => if s.anchorOf n ≤ s.anchorOf m then n :: m :: rest else m :: s.insertByAnchor n rest

/-- The due cues in ascending order of anchor, and among equal anchors of number. -/
def State.dueCues (s : State) : List Nat :=
  ((List.range s.cues.cues.length).filter s.cueDue).foldr s.insertByAnchor []

/-- The advance rule: with the route READY, the tracker PLACED and the mode RUN it fires every due cue. -/
def State.advance (s : State) : State :=
  if s.cues.routeState = .ready ∧ s.tracker.state = .placed ∧ s.store.mode = .run then
    s.dueCues.foldl (State.fireCue false) s
  else s

/-! ### Jumps (R31, R32) -/

/-- One cue skipped if the jump has passed its late window; its report's forced flag is clear, which R35 gives for a fired cue
alone (DESIGN CHOICE, log 31). -/
def State.skipCue (s : State) (n : Nat) : State :=
  match s.cues.cues[n]? with
  | none => s
  | some c =>
    if c.state = .armed ∧ c.lateEnd < s.tracker.chainage then
      (s.setCues fun cs => cs.set n { c with state := .skipped }).cueReport
        (if c.kind = .warning then .warningMissed else .skipped) n c.kind false
    else s

/-- The jump rule, on a PLACEMENT or FORWARD_JUMP update. -/
def State.jumpForward (s : State) : State :=
  if s.cues.routeState = .ready then ((List.range s.cues.cues.length).foldl State.skipCue s).advance else s

/-- Whether a backward jump re-arms a cue. -/
def State.rearms (s : State) (c : Cue) : Bool := decide (c.state ≠ .armed) && decide (s.tracker.chainage < c.anchor)

/-- Re-arms the passed cues ahead of the chainage, with one REARMED report; its forced flag is clear (DESIGN CHOICE,
log 31). -/
def State.rearm (s : State) : State :=
  let numbers := (List.range s.cues.cues.length).filter fun n => (s.cues.cues[n]?).any s.rearms
  match numbers with
  | [] => s
  | n :: _ =>
    let kind := (s.cues.cues[n]?).elim CueKind.commentary Cue.kind
    (s.setCues fun cs => cs.map fun c => if s.rearms c then { c with state := .armed } else c).cueReport
      (.rearmed numbers.length) n kind false

/-- The backward jump rule, on a BACKWARD_JUMP update. -/
def State.jumpBackward (s : State) (distance : Nat) : State :=
  if s.cues.routeState = .ready then
    (if s.settings.rearmDistance ≤ distance then s.rearm else s).advance
  else s

/-! ### Route change (R16, R23, R24) -/

/-- Every selection returns the tracker to UNPLACED (R16). -/
def Tracker.unplace (t : Tracker) : Tracker :=
  { t with state := .unplaced, chainage := 0, residue := 0, correction := 0 }

/-- The cue engine with no route: tables empty, no load. -/
def CueEngine.cleared (c : CueEngine) : CueEngine :=
  { c with
    routeState := .none, routeNumber := 0, extent := none, mask := 0, cues := [], clipSets := [], scenes := [], load := none }

/-- Sends ROUTE_FAILED for the route being loaded. -/
def State.routeFailed (s : State) (reason : RouteFailure) : State := s.report (.routeFailed s.cues.routeNumber reason)

/-- What a taken selection first ends: a load is superseded, the tables empty, and every neighbour is handed the route
change (R23, R24). -/
def State.routeChange (s : State) : State :=
  let s := if s.cues.routeState = .loading then s.routeFailed .superseded else s
  let s := { s with cues := s.cues.cleared, tracker := s.tracker.unplace }
  let s := s.stopCommentary.dropCueEntries
  let s := { s with lights := s.lights.clearScene s.clock }
  (s.setQuiet false).refreshEnabled

/-- The load of a route begins with the first page of its extent (R22, R25). -/
def State.beginLoad (s : State) (n : Nat) (extent : Extent) : State :=
  let serial := s.cues.loadSerial + 1
  { s with
    cues := { s.cues with
      routeState := .loading, routeNumber := n, extent := some extent, loadSerial := serial
      load := some { serial := serial, next := 0, stream := [] } } }.postRead
    { page := extent.first, use := .route serial 0 }

/-! ### Route loads (R25, R26, R27) -/

/-- The load ends with a fault (R25, R26). -/
def State.failLoad (s : State) (reason : RouteFailure) : State :=
  let s' := s.routeFailed reason
  { s' with cues := s'.cues.cleared }

/-- The route program is read to its last record: the route is READY (R27). -/
def State.routeReady (s : State) (p : RouteProgram) : State :=
  let s := { s with
    cues := { s.cues with
      routeState := .ready, mask := p.mask, cues := p.cues, clipSets := p.clipSets, scenes := p.scenes, load := none } }
  (s.report (.routeReady s.cues.routeNumber p.cues.length p.clipSets.length p.scenes.length p.mask)).refreshEnabled

/-- A page of the load that has passed its check: the records it completes are read and validated (R26, R189). -/
def State.loadPage (s : State) (extent : Extent) (load : Load) (page : List Byte) : State :=
  let stream := load.stream ++ page.take 506
  match scanRoute s.cues.routeNumber extent.count stream with
  | .done p _ => s.routeReady p
  | .bad r i => s.failLoad (.format r i)
  | .short r i =>
    if extent.count ≤ load.next + 1 then s.failLoad (.format r i)
    else
      { s with cues := { s.cues with load := some { load with next := load.next + 1, stream := stream } } }.postRead
        { page := extent.first + load.next + 1, use := .route load.serial (load.next + 1) }

/-- A page as a route load reads it: a page whose sector is under erase fails its check (R131). -/
def State.readRoutePage (s : State) (page : Nat) (failed : Bool) : Option (List Byte) × State :=
  if s.store.erasing (sectorOf page) then (none, s) else s.readPage page failed

/-- A page read for a load arrives; one of an abandoned load is discarded (R24, R25). -/
def State.routePage (s : State) (serial index page : Nat) (data : Option (List Byte)) : State :=
  match s.cues.load, s.cues.extent with
  | some load, some extent =>
    if load.serial = serial ∧ load.next = index then
      match readFault data s.cues.routeNumber index with
      | some _ => s.failLoad (.check page)
      | none => s.loadPage extent load (data.getD [])
    else s
  | _, _ => s

/-! ### Reading (R38) -/

/-- A cue as GET_CUES shows it. -/
def State.cueView (s : State) (n : Nat) (c : Cue) : CueView := { number := n, cue := c, trigger := s.trigger c }

/-- The cues of a range. -/
def State.cueViews (s : State) (first last : Nat) : List CueView :=
  (List.range (last + 1 - first)).filterMap fun k => (s.cues.cues[first + k]?).map (s.cueView (first + k))

end Sys2Proof.Machine
end

