-- ==== Sys2Proof/Machine/StoreControl.lean ====
section
/-! DEFINITION. The clip store controller's operations (07): operating modes, protection classes, writes and their
completion in the store, directory reloads and resident buffers. -/

namespace Sys2Proof.Machine

/-! ### Operating modes (R124, R125) -/

/-- The mode becomes SERVICE: commentary stops (R76). -/
def State.enterService (s : State) : State := { s with store := { s.store with mode := .service } }.stopCommentary

/-- The mode becomes RUN: motion pending clears and the advance rule runs (R33). -/
def State.enterRun (s : State) : State :=
  { s with store := { s.store with mode := .run, motionPending := false } }.advance

/-- The bus has moved in SERVICE: the mode returns to RUN with SERVICE_LEFT MOTION. -/
def State.leaveByMotion (s : State) : State := s.enterRun.report (.serviceLeft s.tracker.speed s.clock)

/-- The controller tests the bus at each speed window and each write of the crawl speed (R125). -/
def State.motionTest (s : State) : State :=
  if s.store.mode = .service ∧ s.stationary = false then
    match s.store.reload with
    | none => s.leaveByMotion
    | some _ => { s with store := { s.store with motionPending := true } }
  else s

/-! ### Protection classes and checks (R128, R129, R131, R133) -/

/-- The highest absolute page number. -/
def lastPage : Nat := 1048575

/-- The highest sector. -/
def lastSector : Nat := 2047

/-- Whether a sector is reserved. -/
def reserved (sector : Nat) : Bool := decide (sector = 0 ∨ sector = lastSector)

/-- Whether a sector is locked. -/
def Store.isLocked (st : Store) (sector : Nat) : Bool := st.locked.contains sector || st.volatileLocks.contains sector

/-- Whether an extent has a page in a sector. -/
def touches (first count sector : Nat) : Bool :=
  decide (0 < count ∧ sectorOf first ≤ sector ∧ sector ≤ sectorOf (first + count - 1))

/-- Whether a present clip has a page in a sector. -/
def State.clipTouches (s : State) (sector clip : Nat) : Bool :=
  match s.clip clip with
  | some e => touches e.first e.count sector
  | none => false

/-- Whether a sector is in use: by the selected route, by the clip of a held voice, or by a resident clip. -/
def State.inUse (s : State) (sector : Nat) : Bool :=
  (decide (s.cues.routeState ≠ .none) && s.cues.extent.any fun e : Extent => touches e.first e.count sector) ||
    (s.voices.voices.any fun v : Voice => decide (v.state ≠ .free) && v.clip.any (s.clipTouches sector)) ||
    (s.inForce.residentList.any (s.clipTouches sector))

/-- Checks 1 to 5 of R129 and R131 on a number `n` in a sector; `top` is its highest value. -/
def State.writeCheck (s : State) (n top sector : Nat) : Option ResultCode :=
  if s.store.mode = .run then some .wrongState
  else if top < n then some .range
  else if s.store.reload.isSome then some .busy
  else if reserved sector || s.store.isLocked sector then some .sectorProtected
  else if s.inUse sector then some .inUse
  else none

/-- The checks of STORE_PROGRAM before its blank check (R129). -/
def State.programCheck (s : State) (page : Nat) : Option ResultCode := s.writeCheck page lastPage (sectorOf page)

/-- The checks of STORE_ERASE (R131). -/
def State.eraseCheck (s : State) (sector : Nat) : Option ResultCode :=
  match s.writeCheck sector lastSector sector with
  | some c => some c
  | none => if s.store.write.isSome then some .storeBusy else none

/-- The checks that every kind of SECTOR_LOCK passes first (R133). -/
def lockCheck (sector : Nat) : Option ResultCode :=
  if lastSector < sector then some .range else if reserved sector then some .sectorProtected else none

/-! ### Writes (R127, R130, R131, R133, R135, R180) -/

/-- A write is accepted, in phase WAITING. -/
def State.acceptWrite (s : State) (kind : WriteKind) (sector : Nat) (page : Option Nat) : State :=
  { s with store := { s.store with write := some { kind := kind, sector := sector, page := page, phase := .waiting } } }

/-- The write record becomes absent. -/
def Store.writeEnds (st : Store) : Store := { st with write := none }

/-- Whether the waiting write can begin: the port is free and no read waits (R118). -/
def State.writeCanBegin (s : State) : Bool :=
  s.port.serving.isNone && s.port.fetches.isEmpty && s.port.second.isEmpty &&
    s.store.write.any fun w : WriteRecord => decide (w.phase = .waiting)

/-- The sector erased, and no longer interrupted (R138). -/
def Store.eraseDone (st : Store) (sector : Nat) : Store :=
  { st with cells := st.cells.eraseSector sector, interrupted := setRemove st.interrupted sector }

/-- The page programmed with the data. -/
def Store.programDone (st : Store) (page : Nat) (data : List Byte) : Store :=
  { st with cells := st.cells.program (page * 512) data }

/-- The byte of a sector in the lock sector programmed to 0x00, and its map entry LOCKED (R133). -/
def Store.lockDone (st : Store) (target : Nat) : Store :=
  { st with cells := st.cells.program (lastSector * sectorBytes + target) [0], locked := setAdd st.locked target }

/-- The lock sector erased: every entry UNLOCKED, every page fault cleared (R135). -/
def Store.unlockDone (st : Store) : Store :=
  { st.eraseDone lastSector with locked := [], lockFaults := Table.fill 4 false }

/-- The write in flight, if it is running at the port. -/
def Store.runningWrite (st : Store) : Option WriteRecord :=
  st.write.filter fun w : WriteRecord => decide (w.phase = .running)

/-! ### Resident buffers (R107, R120) -/

/-- The clips a resident list names, each once. -/
def residentClips (list : Table Nat 4) : List Nat := (list.list.filter (· ≠ 0)).eraseDups

/-- The buffers of the resident list in force, still empty: up to seven pages of each clip present in the cache. -/
def State.residentBuffers (s : State) : List Resident :=
  (residentClips s.inForce.residentList).filterMap fun c =>
    (s.clip c).map fun e => { clip := c, first := e.first, need := min 7 e.count }

/-- The reads that load the buffers, in order. -/
def residentReads (buffers : List Resident) : List PortRead :=
  (List.range buffers.length).flatMap fun b =>
    match buffers[b]? with
    | none => []
    | some r => (List.range r.need).map fun i => { page := r.first + i, use := .resident b i }

/-- A page of a resident buffer arrives, is checked and joins its buffer. -/
def State.residentPage (s : State) (buffer index page : Nat) (data : Option (List Byte)) (quiet : Bool) : State :=
  match s.voices.residents[buffer]? with
  | none => s
  | some r =>
    if r.pages.length = index then
      let (p, s) := s.checkPage page data r.clip index quiet
      { s with
        voices := { s.voices with residents := s.voices.residents.set buffer { r with pages := r.pages ++ [p] } } }
    else s

/-! ### Directory reload (R137, R120) -/

/-- The page of the route directory with an index. -/
def routeDirectoryPage (index : Nat) : Nat := 512 + index

/-- The page of the clip directory with an index. -/
def clipDirectoryPage (partition : Fin 16) (index : Nat) : Nat := directorySector partition.val * 512 + index

/-- The reads of a reload, in order. -/
def directoryReads (partition : Fin 16) : List PortRead :=
  (List.range 8).map (fun i => { page := routeDirectoryPage i, use := .routeDirectory i }) ++
    (List.range 256).map fun i => { page := clipDirectoryPage partition i, use := .clipDirectory i }

/-- A reload begins. -/
def State.beginReload (s : State) : State :=
  { s with
    store := { s.store with reload := some {} }
    port := { s.port with second := s.port.second ++ directoryReads s.inForce.partition } }

/-- A start that waited on the reload makes its lookup. -/
def State.waitingLookup (s : State) (v : Fin 16) : State :=
  match (s.voice v).waiting with
  | none => s
  | some (clip, page) =>
    match s.lookUp v clip page with
    | (s', .started) => s'
    | (s', _) => s'.ownerActs (s.voice v).owner v

/-- A page of a reload is taken; the records of a page whose sector is being erased come out absent (R137). -/
def Reload.take (r : Reload) (partition : Fin 16) (use : ReadUse) (data : Option (List Byte)) (erasing : Bool) : Reload :=
  match use with
  | .routeDirectory i => { r with routes := r.routes ++ if erasing then [] else routesOfPage partition.val data i }
  | .clipDirectory i =>
    let (clips, rejected) := if erasing then clipsOfErasedPage data i else clipsOfPage partition.val data i
    { r with clips := r.clips ++ clips, rejected := r.rejected + rejected }
  | _ => r

/-- The reload completes (R137 steps 1 to 6). -/
def State.endReload (s : State) (r : Reload) : State :=
  let s := { s with
    cues := { s.cues with directory := r.routes }
    store := { s.store with clips := r.clips, rejected := r.rejected, reload := none } }
  let s := s.report (.directoryReady r.clips.length r.rejected r.routes.length s.clock)
  let buffers := s.residentBuffers
  let s := { s with
    voices := { s.voices with residents := buffers }
    port := { s.port with second := s.port.second ++ residentReads buffers } }
  let s := (List.finRange 16).foldl State.waitingLookup s
  if s.store.motionPending then s.leaveByMotion else s

/-- A directory page of a reload arrives; `erasing` says that its sector is under erase. -/
def State.directoryPage (s : State) (use : ReadUse) (data : Option (List Byte)) (erasing : Bool) : State :=
  match s.store.reload with
  | none => s
  | some r =>
    let r := r.take s.inForce.partition use data erasing
    if use = .clipDirectory 255 then s.endReload r else { s with store := { s.store with reload := some r } }

/-! ### Reading (R139) -/

/-- The name of a kind of write. -/
def WriteKind.name : WriteKind → WriteName
  | .pageProgram _ _ => .pageProgram
  | .sectorErase => .sectorErase
  | .lockProgram _ _ => .lockProgram
  | .lockErase => .lockErase
  | .settingsSave _ _ => .settingsSave

/-- A write record as the replies show it. -/
def WriteRecord.view (w : WriteRecord) : WriteView := { kind := w.kind.name, sector := w.sector, page := w.page, phase := w.phase }

/-- A voice as the reply shows it. -/
def Voice.view (v : Voice) : VoiceView :=
  { state := v.state, owner := v.owner, clip := v.clip, nextPlay := v.nextPlay, pageCount := v.pageCount
    queued := v.queue.length, underruns := v.underruns }

/-- The fields of GET_STORE_STATE for sectors `first` to `last`. -/
def State.storeView (s : State) (first last : Nat) : StoreView :=
  let n := s.inForce.partition.val
  { mode := s.store.mode, motionPending := s.store.motionPending, partition := n
    routeArea := (1, 16 * (n + 1)), clipArea := (16 * n + 17, 2046)
    clipCount := s.store.clips.length, rejected := s.store.rejected, reloading := s.store.reload.isSome
    write := s.store.write.map WriteRecord.view, freeze := s.store.freeze, lockFaults := s.store.lockFaults
    sectors := (List.range (last + 1 - first)).map fun k =>
      (s.store.locked.contains (first + k), s.store.volatileLocks.contains (first + k),
       s.store.lockdowns.contains (first + k))
    integrity := s.voices.integrity, firstFault := s.voices.firstFault, voices := s.voices.voices.list.map Voice.view }

end Sys2Proof.Machine
end

