-- ==== Sys2Proof/Machine/Power.lean ====
section
/-! DEFINITION. Settings and power (11): what a start-up abandons and loads, its completion, the ignition-off timer, the entry
phase and the wake inputs. -/

namespace Sys2Proof.Machine

/-! ### The values after start-up (R20, R40, R60, R80, R104, R121, R140, R151, R166, R178) -/

/-- The slots whose tags are configured. -/
def Settings.tagged (g : Settings) : Table Bool 12 := g.languageTags.map Option.isSome

/-- The seat table after start-up (R60). -/
def freshSeats (g : Settings) : SeatTable :=
  { enabled := g.tagged
    seats := Table.fill 64
      { chosen := g.defaultSlot, volume := g.defaultVolume, served := servedSlot g.tagged g.defaultSlot g.defaultSlot
        effective := g.defaultVolume } }

/-- The mixer after start-up (R151). -/
def freshMixer (g : Settings) : Mixer :=
  { upper := { gain := g.upperGain, commentary := g.upperCommentary }
    lower := { gain := g.lowerGain, commentary := g.lowerCommentary }
    need := g.lowerCommentary || g.upperCommentary }

/-- The commentary engine after start-up (R80). -/
def freshCommentary (g : Settings) : Commentary :=
  { streams := Table.ofFn fun i =>
      { state := if g.tagged.get i then .quiet else .off
        demand := g.tagged.get i && decide (i = g.speakerSlot) && (g.lowerCommentary || g.upperCommentary) } }

/-- Every block's state abandoned: the values after start-up under the settings `g`. The commands that wait, the store device,
the input lines and the count of free values go on. -/
def State.abandon (s : State) (g : Settings) (power : Power) : State :=
  { pending := s.pending
    freeSerial := s.freeSerial
    seats := freshSeats g
    comm := freshCommentary g
    ann := { code := g.precedenceCode }
    mixer := freshMixer g
    lights := { master := g.masterLevel, warningGroup := g.warningGroup, stopGroup := g.stopGroup }
    store := { cells := s.store.cells, interrupted := s.store.interrupted }
    power := power
    settings := g
    inForce := g.inForce }

/-! ### The beginning of a start-up (R138, R181) -/

/-- Whether a write has begun at the store. -/
def WriteRecord.begun (w : WriteRecord) : Bool :=
  decide (w.phase ≠ .waiting) ||
    (match w.kind with
     | .settingsSave _ erased => erased
     | _ => false)

/-- A start-up abandons the write in flight: one that has begun leaves its sector interrupted (R138). -/
def Store.cutOff (st : Store) : Store :=
  match st.write with
  | none => st
  | some w => { st with write := none, interrupted := if w.begun then setAdd st.interrupted w.sector else st.interrupted }

/-- The stored settings, if the first page of the settings sector passes its check and the store reports it readable (R181,
log 8): `failed` says that it does not, and an interrupted sector is unreadable (R138). -/
def Store.storedSettings (st : Store) (failed : Bool) : Option Settings :=
  match Settings.ofRecord (st.cells.readRun 0 512) with
  | some g => if failed || st.interrupted.contains 0 then none else some g
  | none => none

/-- The active settings a start-up settles, and whether they are the defaults for want of a good copy (R181). -/
def State.settleSettings (s : State) (kind : StartKind) : Settings × Bool :=
  match kind with
  | .restart => (s.settings, false)
  | .powerOn | .wake =>
    match s.store.storedSettings (Config.settingsReadFails s.freeSerial) with
    | some g => (g, false)
    | none => ({}, true)

/-- A start-up begins (R181): the active copy is settled, which counts a free value, and the first page of the loading
sequence is read. -/
def State.beginStartUp (s : State) (kind : StartKind) (latches : Latches) : State :=
  let s := { s with store := s.store.cutOff }
  let (g, defaulted) := s.settleSettings kind
  let power : Power :=
    { kind := kind, defaulted := defaulted, state := .starting, latches := latches, ignition := s.power.ignition
      pttLine := s.power.pttLine }
  { s.abandon g power with
    freeSerial := s.freeSerial + 1
    port := { serving := some { page := routeDirectoryPage 0, use := .routeDirectory 0 } } }

/-! ### The loading sequence (R181, R132) -/

/-- The page of the lock map with an index. -/
def lockMapPage (index : Nat) : Nat := lastSector * 512 + index

/-- The read of the first lock page. -/
def firstLockRead : PortRead := { page := lockMapPage 0, use := .lockMap 0 }

/-- The read of page `i` of resident buffer `b`, or of the buffer after it, or of the lock map. -/
def State.residentRead (s : State) (b i : Nat) : PortRead :=
  match s.voices.residents[b]? with
  | none => firstLockRead
  | some r =>
    if i < r.need then { page := r.first + i, use := .resident b i }
    else
      match s.voices.residents[b + 1]? with
      | none => firstLockRead
      | some r => { page := r.first, use := .resident (b + 1) 0 }

/-- The read that follows in the loading sequence; none after the last. -/
def State.nextLoad (s : State) : ReadUse → Option PortRead
  | .routeDirectory i =>
    if i < 7 then some { page := routeDirectoryPage (i + 1), use := .routeDirectory (i + 1) }
    else some { page := clipDirectoryPage s.inForce.partition 0, use := .clipDirectory 0 }
  | .clipDirectory i =>
    if i < 255 then some { page := clipDirectoryPage s.inForce.partition (i + 1), use := .clipDirectory (i + 1) }
    else some (s.residentRead 0 0)
  | .resident b i => some (s.residentRead b (i + 1))
  | .lockMap i => if i < 3 then some { page := lockMapPage (i + 1), use := .lockMap (i + 1) } else none
  | _ => none

/-- A lock page as read: its LOCKED sectors, or all of them and a fault when it is unreadable (R132). -/
def State.takeLockPage (s : State) (index page : Nat) (data : Option (List Byte)) : State :=
  match data with
  | some bytes =>
    { s with
      store := { s.store with
        locked := s.store.locked ++
          ((List.range 512).filter fun k => decide (bytes.getD k erasedByte ≠ erasedByte)).map (512 * index + ·) } }
  | none =>
    { s with
      store := { s.store with
        locked := s.store.locked ++ (List.range 512).map (512 * index + ·)
        lockFaults := match asFin 4 index with | some i => s.store.lockFaults.set i true | none => s.store.lockFaults }
      power := { s.power with
        faults := s.power.faults ++ [{ page := page, clip := 0, index := index, kind := .unreadable, clock := s.clock }] } }

/-- A page of the loading sequence taken into its cache or buffer. -/
def State.takeLoad (s : State) (r : PortRead) (data : Option (List Byte)) : State :=
  match r.use with
  | .routeDirectory i =>
    { s with cues := { s.cues with directory := s.cues.directory ++ routesOfPage s.inForce.partition.val data i } }
  | .clipDirectory i =>
    let (clips, rejected) := clipsOfPage s.inForce.partition.val data i
    let s := { s with
      store := { s.store with clips := s.store.clips ++ clips, rejected := s.store.rejected + rejected } }
    if i = 255 then { s with voices := { s.voices with residents := s.residentBuffers } } else s
  | .resident b i => s.residentPage b i r.page data true
  | .lockMap i => s.takeLockPage i r.page data
  | _ => s

/-! ### Completion (R182) and the ignition-off timer (R183) -/

/-- The timer set one standby delay from now, or idle for a delay of 0. -/
def State.armTimer (s : State) : State :=
  { s with
    power := { s.power with
      offTimer := if s.settings.standbyDelay = 0 then none else some (after s.clock (s.settings.standbyDelay * 1000)) } }

/-- The timer made idle. -/
def State.idleTimer (s : State) : State := { s with power := { s.power with offTimer := none } }

/-- Start-up completes: the clocks start, the part is AWAKE, STARTED goes first and the faults found follow it; the latches
empty, and the lines are sampled (R182, R104). -/
def State.completeStartUp (s : State) : State :=
  let p := s.power
  let s := { s with
    clock := 0
    pulseTimer := 0
    windowDue := false
    pollDue := true
    tracker := { s.tracker with
      reportTimer := if s.settings.positionPeriod = 0 then none else some (after 0 s.settings.positionPeriod) }
    ann := { s.ann with pressed := p.pttLine }
    power := { p with state := .awake, latches := {}, faults := [] } }
  let s := s.report (.started p.kind p.defaulted p.latches s.store.clips.length s.cues.directory.length s.clock)
  let s := p.faults.foldl (fun s f => s.report (.storeFault f)) s
  (if s.power.ignition then s else s.armTimer).kick

/-- A page of the loading sequence arrives; after the last, start-up completes. -/
def State.loadArrives (s : State) (failed : Bool) : State :=
  match s.port.serving with
  | none => s
  | some r =>
    let (data, s) := s.readPage r.page failed
    let s := s.takeLoad r data
    match s.nextLoad r.use with
    | some next => { s with port := { s.port with serving := some next } }
    | none => s.portDone.completeStartUp

/-! ### Standby (R184, R185, R186) -/

/-- Whether an announcement is active or a store write is in flight. -/
def State.busy (s : State) : Bool := s.ann.active.isSome || s.store.write.isSome

/-- An entry phase begins: the outputs fall silent and dark. -/
def State.beginEntry (s : State) (cause : EntryCause) : State :=
  { s with
    power := { s.power with
      state := .entering, cause := cause, phaseEnd := some (after s.clock 500), phaseOver := false, offTimer := none }
    mixer := s.mixer.fadeOut s.clock
    lights := s.lights.setBlank true }

/-- An entry phase is aborted by a wake input: the outputs come back. -/
def State.abortEntry (s : State) (wake : WakeCause) : State :=
  let s := { s with
    power := { s.power with state := .awake, phaseEnd := none, phaseOver := false }
    mixer := s.mixer.restoreOutput
    lights := s.lights.setBlank false }
  (if s.power.ignition then s.idleTimer else s.armTimer).report (.standbyAborted wake s.power.cause s.clock)

/-- The part enters STANDBY: every block's state is abandoned and the wake latches are empty. -/
def State.enterStandby (s : State) : State :=
  let power : Power :=
    { kind := s.power.kind, defaulted := s.power.defaulted, state := .standby, cause := s.power.cause
      ignition := s.power.ignition, pttLine := s.power.pttLine }
  { s.abandon s.settings power with inForce := s.inForce, clock := 0, pulseTimer := 0 }

/-- A write has ceased to be in flight: an entry phase that waited for it ends in STANDBY (R185), also with a RESTART taken whose
reply is not yet out (log 38). -/
def State.afterWrite (s : State) : State :=
  if s.power.state = .entering ∧ s.power.phaseOver = true ∧ s.store.write = none then s.enterStandby else s

/-- The wake latches with a cause added. -/
def Latches.add (l : Latches) : WakeCause → Latches
  | .ignition => { l with ignition := true }
  | .ptt => { l with ptt := true }
  | .link => { l with link := true }

/-- A wake input: it aborts an entry phase, begins a WAKE start-up in STANDBY, and is latched during one (R185, R186). -/
def State.wakeInput (s : State) (wake : WakeCause) : State :=
  match s.power.state with
  | .awake => s
  | .entering => s.abortEntry wake
  | .standby => s.beginStartUp .wake (s.power.latches.add wake)
  | .starting =>
    if s.power.kind = .wake then { s with power := { s.power with latches := s.power.latches.add wake } } else s

end Sys2Proof.Machine
end

