-- ==== Sys2Proof/Machine/TrackerCommands.lean ====
section
/-! DEFINITION. The position tracker's commands (01): pulses, speed windows, fixes, detours and reading. -/

namespace Sys2Proof.Machine

/-- An event of a block that runs: outside STANDBY and start-up it is taken, and the event ends (log 18). -/
def State.event (s : State) (act : State → State) : Result := .next (if s.running then (act s).endEvent else s)

/-- A request whose owner acts and whose event then ends. -/
def State.command (s : State) (kind : Nat) (tag : Byte) (act : State → State) : Result :=
  .next (s.request kind tag fun s => (act s).endEvent)

/-- A request that is answered without any effect outside the link. -/
def State.query (s : State) (kind : Nat) (tag : Byte) (act : State → State) : Result :=
  .next (s.request kind tag fun s => (act s).kick)

/-! ### Pulses (R1 to R4) -/

/-- The chainage of PLACED after an accepted pulse of length `l` (R3). -/
def Tracker.advance (t : Tracker) (l : Nat) : Tracker :=
  let a := clampInt t.correction (l / 4)
  let sum := ((t.residue : Int) + l + a).toNat
  { t with
    chainage := min (t.chainage + sum / 1000) maxChainage, residue := sum % 1000, correction := t.correction - a }

/-- The detour distance after an accepted pulse (R4). -/
def Tracker.detourAdvance (t : Tracker) (l : Nat) : Tracker :=
  { t with
    detour := min (t.detour + (t.detourResidue + l) / 1000) maxChainage
    detourResidue := (t.detourResidue + l) % 1000 }

/-- What an accepted pulse advances in every tracker state (R2). -/
def Tracker.countPulse (t : Tracker) (l : Nat) (arrival : BitVec 32) : Tracker :=
  { t with
    stamp := t.stamp + 1
    windowCount := bump t.windowCount
    travel := t.travel + BitVec.ofNat 32 ((t.travelResidue + l) / 1000)
    travelResidue := (t.travelResidue + l) % 1000
    lastPulse := some arrival }

/-- The work of an accepted pulse (R2). -/
def Tracker.pulse (t : Tracker) (l : Nat) (arrival : BitVec 32) : Tracker :=
  match t.state with
  | .unplaced => t.countPulse l arrival
  | .placed => (t.countPulse l arrival).advance l
  | .detour => (t.countPulse l arrival).detourAdvance l

/-- Whether a pulse is accepted (R1). -/
def Tracker.accepts (t : Tracker) (spacing : Nat) (arrival : BitVec 32) : Bool :=
  match t.lastPulse with
  | none => true
  | some last => decide (spacing ≤ (arrival - last).toNat)

/-- A pulse taken: rejected as noise, or accepted, with an ADVANCE update if chainage changed (R1, R3). -/
def State.pulse (s : State) (arrival : BitVec 32) : State :=
  if s.tracker.accepts s.settings.pulseSpacing arrival then
    let t := s.tracker.pulse s.settings.pulseLength arrival
    let moved := decide (t.chainage ≠ s.tracker.chainage)
    let s := { s with tracker := t }
    if moved then s.advance else s
  else { s with tracker := { s.tracker with noise := bump s.tracker.noise } }

/-- ODOMETER_PULSE (R1): the pulse arrives `micros` into the millisecond (log 10). -/
def execOdometerPulse (micros : Nat) (s : State) : Result :=
  s.event fun s => s.pulse (s.pulseTimer + BitVec.ofNat 32 micros)

/-! ### Speed windows and reports (R6, R19) -/

/-- The speed after a window of `n` pulses of length `l` (R6). -/
def speedAfter (v n l : Nat) : Nat :=
  let w := n * l / 250
  min (if v < w then v + (w - v + 3) / 4 else v - (v - w + 3) / 4) 65535

/-- The end of a speed window (R6): the speed is renewed, a LEAD_CHANGE update follows in PLACED, and the motion test
(R125). -/
def State.endWindow (s : State) : State :=
  let t := { s.tracker with
    speed := speedAfter s.tracker.speed s.tracker.windowCount s.settings.pulseLength, windowCount := 0 }
  ({ s with tracker := t, windowDue := false }.advance).motionTest

/-- SPEED_WINDOW (R6): the window ends at each 250 ms multiple. -/
def execSpeedWindow (s : State) : Result := s.event fun s => if s.windowDue then s.endWindow else s

/-- Whether the report timer has expired. -/
def State.reportDue (s : State) : Bool := s.tracker.reportTimer.any fun t => reached s.clock t

/-- POSITION_REPORT (R19): a snapshot is sent and the timer set one period later. -/
def execPositionReport (s : State) : Result :=
  s.event fun s =>
    if s.reportDue then
      ({ s with
        tracker := { s.tracker with
          reportTimer := s.tracker.reportTimer.map fun t => after t s.settings.positionPeriod } }).report
        (.position s.positionView)
    else s

/-! ### Fixes (R9 to R13) -/

/-- The pulses accepted since the dating stamp (R9). -/
def State.pulsesSince (s : State) (stamp : BitVec 32) : Nat := (s.tracker.stamp - stamp).toNat

/-- The projected chainage of a fix (R10). -/
def State.projected (s : State) (chainage : Nat) (stamp : BitVec 32) : Nat :=
  min (chainage + s.pulsesSince stamp * s.settings.pulseLength / 1000) maxChainage

/-- The error of a fix (R10). -/
def State.fixError (s : State) (chainage : Nat) (stamp : BitVec 32) : Int :=
  (s.projected chainage stamp : Int) - s.tracker.chainage

/-- The checks of R9. -/
def State.fixCheck (s : State) (soft known : Bool) (chainage : Nat) (stamp : BitVec 32) : Option ResultCode :=
  if s.cues.routeState ≠ .ready then some .wrongState
  else if maxChainage < chainage ∨ known = false then some .range
  else if soft = true ∧ s.tracker.state ≠ .placed then some .wrongState
  else if 65535 < s.pulsesSince stamp then some .stale
  else none

/-- FIX_SOFT (R9, R11): the error becomes the pending correction, within the slew limit. -/
def execFixSoft (tag : Byte) (known : Bool) (chainage : Nat) (stamp : BitVec 32) (s : State) : Result :=
  s.query 0x10 tag fun s =>
    match s.fixCheck true known chainage stamp with
    | some code => s.reply 0x10 tag code
    | none =>
      let e := s.fixError chainage stamp
      if e.natAbs ≤ s.settings.slewLimit then
        ({ s with tracker := { s.tracker with correction := e * 1000 } }).reply 0x10 tag .ok
          (.fix (s.projected chainage stamp) e)
      else s.reply 0x10 tag .outOfWindow

/-- A HARD fix taken: chainage is set, and a PLACEMENT or a jump follows (R12, R13). -/
def State.hardFix (s : State) (projected : Nat) : State :=
  let old := s.tracker
  let s := { s with tracker := { old with state := .placed, chainage := projected, residue := 0, correction := 0 } }
  if old.state ≠ .unplaced ∧ projected < old.chainage then s.jumpBackward (old.chainage - projected) else s.jumpForward

/-- FIX_HARD (R9, R12, R13). -/
def execFixHard (tag : Byte) (chainage : Nat) (stamp : BitVec 32) (s : State) : Result :=
  s.command 0x10 tag fun s =>
    match s.fixCheck false true chainage stamp with
    | some code => s.reply 0x10 tag code
    | none =>
      (s.reply 0x10 tag .ok (.fix (s.projected chainage stamp) (s.fixError chainage stamp))).hardFix
        (s.projected chainage stamp)

/-! ### Detours and reading (R14, R15, R18) -/

/-- DETOUR_BEGIN (R14). -/
def execDetourBegin (tag : Byte) (s : State) : Result :=
  s.query 0x11 tag fun s =>
    if s.tracker.state = .placed then
      ({ s with
        tracker := { s.tracker with state := .detour, detour := 0, detourResidue := 0, correction := 0 } }).reply 0x11 tag .ok
    else s.reply 0x11 tag .wrongState

/-- DETOUR_END (R15): back to PLACED, with a RESUMED update. -/
def execDetourEnd (tag : Byte) (s : State) : Result :=
  s.command 0x12 tag fun s =>
    if s.tracker.state = .detour then
      (({ s with tracker := { s.tracker with state := .placed } }).reply 0x12 tag .ok (.detour s.tracker.detour)).advance
    else s.reply 0x12 tag .wrongState

/-- GET_POSITION (R18). -/
def execGetPosition (tag : Byte) (s : State) : Result :=
  s.query 0x13 tag fun s => s.reply 0x13 tag .ok (.position s.positionView)

end Sys2Proof.Machine
end

