-- ==== Sys2Proof/Machine/CueCommands.lean ====
section
/-! DEFINITION. The cue engine's commands (02): route selection, route pages, reading and forcing cues. -/

namespace Sys2Proof.Machine

/-- The directory cache's entry of a route (R21). -/
def State.routeEntry (s : State) (route : Nat) : Option RouteEntry :=
  s.cues.directory.find? fun e : RouteEntry => e.route = route

/-- SELECT_ROUTE (R22). -/
def execSelectRoute (tag : Byte) (route : Nat) (s : State) : Result :=
  s.command 0x14 tag fun s =>
    if s.store.reload.isSome ∧ route ≠ 0 then s.reply 0x14 tag .busy
    else if route = 0 then (s.reply 0x14 tag .ok).routeChange
    else
      match s.routeEntry route with
      | none => s.reply 0x14 tag .notFound
      | some e => ((s.reply 0x14 tag .accepted).routeChange).beginLoad route e.extent

/-- ROUTE_PAGE_ARRIVAL (R25): the served read of a route load arrives. -/
def execRoutePageArrival (failed : Bool) (s : State) : Result :=
  s.event fun s =>
    match s.port.serving with
    | some { page := page, use := .route serial index } =>
      let (data, s) := s.readRoutePage page failed
      s.portDone.routePage serial index page data
    | _ => s

/-- GET_CUES (R38). -/
def execGetCues (tag : Byte) (first last : Nat) (s : State) : Result :=
  s.query 0x15 tag fun s =>
    if s.cues.routeState ≠ .ready then s.reply 0x15 tag .wrongState
    else if last < first ∨ s.cues.cues.length ≤ last ∨ 32 < last + 1 - first then s.reply 0x15 tag .range
    else
      s.reply 0x15 tag .ok
        (.cues s.cues.routeNumber s.cues.mask s.cues.cues.length s.cues.clipSets.length s.cues.scenes.length
          (s.cueViews first last))

/-- FORCE_CUE (R34). -/
def execForceCue (tag : Byte) (cue : Nat) (s : State) : Result :=
  s.command 0x16 tag fun s =>
    if s.cues.routeState ≠ .ready ∨ s.store.mode = .service then s.reply 0x16 tag .wrongState
    else
      match s.cues.cues[cue]? with
      | none => s.reply 0x16 tag .notFound
      | some c =>
        if c.state = .armed then State.fireCue true (s.reply 0x16 tag .ok) cue else s.reply 0x16 tag .wrongState

end Sys2Proof.Machine
end

