-- ==== Sys2Proof/Machine/SeatCommands.lean ====
section
/-! DEFINITION. The seat table's and the seat ring's commands (03): polls and replies, the seat requests, LISTENERS. -/

namespace Sys2Proof.Machine

/-! ### Polls (R41 to R44) -/

/-- The sixteen boxes. -/
def allBoxes : List (Fin 16) := List.finRange 16

/-- Whether the poll of a box is due: this millisecond's poll has not been sent, it is this box's, and the poll before it has
been answered or counted as missed (R41, log 9). -/
def State.pollReady (s : State) (box : Fin 16) : Bool :=
  s.pollDue && s.seats.awaiting.isNone && decide (s.clock.toNat % 16 = box.val)

/-- Whether the awaited reply of a box is missed: the next poll is due (R43). -/
def State.missDue (s : State) (box : Fin 16) : Bool := s.pollDue && decide (s.seats.awaiting = some box)

/-- POLL (R41): the due poll of a box is formed and sent, and its reply awaited; a POLL that is not due, or of another box,
changes nothing (DESIGN CHOICE, logs 9 and 19). -/
def execPoll (box : Fin 16) (s : State) : Result :=
  s.event fun s =>
    if s.pollReady box then
      { s with
        pollDue := false, seats := { s.seats with lastPoll := some (s.seats.pollOf box), awaiting := some box } }
    else s

/-- The box record after a missed reply: at 3 it becomes ABSENT (R43). -/
def SeatBox.miss (b : SeatBox) : SeatBox :=
  if b.present then
    if 3 ≤ b.missed + 1 then { b with present := false, missed := 0 } else { b with missed := b.missed + 1 }
  else b

/-- A missed reply of a box, with BOX_EVENT LOST when it becomes ABSENT (R43). -/
def State.missReply (s : State) (box : Fin 16) : State :=
  let old := s.seats.boxes.get box
  let t := { s.seats with boxes := s.seats.boxes.set box old.miss, awaiting := none }
  if old.present = true ∧ old.miss.present = false then
    ({ s with seats := { s.seats with awaiting := none } }.report (.boxEvent box none s.clock)).seatsTaken t
  else { s with seats := t }

/-- MISSED_REPLY (R43): the awaited poll of this box has had no valid reply by the time the next poll is due; before that
moment the command changes nothing (DESIGN CHOICE, log 19). -/
def execMissedReply (box : Fin 16) (s : State) : Result :=
  s.event fun s => if s.missDue box then s.missReply box else s

/-- Whether a reply is valid: awaited, checked, naming the polled box, with at most four button events (R42). -/
def SeatTable.valid (t : SeatTable) (r : PollReply) : Bool :=
  decide (t.awaiting = some r.box) && r.checked && decide (r.presses.length ≤ 4)

/-- A valid reply taken: from a PRESENT box, or from an ABSENT one, which is found (R42, R44). The poll is answered, so that a
second reply to it is none (DESIGN CHOICE, log 32). -/
def State.takeReply (s : State) (r : PollReply) : State :=
  let t := { s.seats with awaiting := none }
  if (s.seats.boxes.get r.box).present then s.seatsTaken (t.takeReply r)
  else (s.report (.boxEvent r.box (some r.plugs) s.clock)).seatsTaken (t.findBox r)

/-- POLL_REPLY (R42, R44). -/
def execPollReply (reply : PollReply) (s : State) : Result :=
  s.event fun s => if s.seats.valid reply then s.takeReply reply else s

/-! ### Seat requests (R51 to R55) -/

/-- SET_SEAT (R51, R52). -/
def execSetSeat (tag : Byte) (seat : Nat) (fields : SeatFields) (s : State) : Result :=
  s.command 0x18 tag fun s =>
    match asFin 64 seat with
    | none => s.reply 0x18 tag .range
    | some i =>
      if seatFieldsInRange fields = false then s.reply 0x18 tag .range
      else if s.seats.tooDeep i fields then s.reply 0x18 tag .linkDepth
      else
        let s := s.seatsTaken (s.seats.setSeat i fields)
        s.reply 0x18 tag .ok (.seat (s.seats.view i))

/-- SEAT_APPLY (R53, R54). -/
def execSeatApply (tag : Byte) (fields : SeatApply) (s : State) : Result :=
  s.command 0x19 tag fun s =>
    if seatApplyValid fields = false then s.reply 0x19 tag .range
    else
      let outcome := s.seats.outcome fields s.settings
      if linksTooDeep outcome then s.reply 0x19 tag .linkDepth
      else
        let seats := copyLeaders outcome
        (s.seatsTaken { s.seats with seats := seats }).reply 0x19 tag .ok (.seatCount (changedSeats s.seats.seats seats))

/-- GET_SEATS (R55). -/
def execGetSeats (tag : Byte) (first last : Nat) (s : State) : Result :=
  s.query 0x1A tag fun s =>
    if last < first ∨ 63 < last then s.reply 0x1A tag .range
    else
      s.reply 0x1A tag .ok
        (.seats (((List.finRange 64).filter fun i => decide (first ≤ i.val ∧ i.val ≤ last)).map s.seats.view)
          s.seats.enabled s.seats.counts)

/-- LISTENERS_HOLD_END (R58). -/
def execListenersHoldEnd (s : State) : Result :=
  s.event fun s => if s.listenersDue then s.endListenersHold else s

end Sys2Proof.Machine
end

