-- ==== Sys2Proof/Machine/CommentaryCommands.lean ====
section
/-! DEFINITION. The commentary engine's commands (04): the ends of delays and of segments in virtual playback, and reading. -/

namespace Sys2Proof.Machine

/-- Whether a stream's delay has ended (R67). -/
def State.delayDue (s : State) (i : Fin 12) : Bool :=
  decide ((s.stream i).state = .delay) && (s.stream i).current.any fun g : Segment => reached s.clock g.start

/-- STREAM_DELAY_END (R67). -/
def execStreamDelayEnd (slot : Fin 12) (s : State) : Result :=
  s.event fun s => if s.delayDue slot then s.endDelay slot else s

/-- Whether a segment not played by a voice has run out by elapsed time (R71). -/
def State.segmentDue (s : State) (i : Fin 12) : Bool :=
  (decide ((s.stream i).state = .waitVoice) || decide ((s.stream i).state = .quiet)) &&
    (s.stream i).current.any fun g : Segment => reached s.clock (after g.start (g.pages * 60))

/-- SEGMENT_TIME_END (R71). -/
def execSegmentTimeEnd (slot : Fin 12) (s : State) : Result :=
  s.event fun s => if s.segmentDue slot then s.finishSegment slot else s

/-- GET_STREAMS (R77). -/
def execGetStreams (tag : Byte) (s : State) : Result :=
  s.query 0x1B tag fun s => s.reply 0x1B tag .ok s.streamsView

end Sys2Proof.Machine
end

