-- ==== Sys2Proof/Machine/AnnouncementCommands.lean ====
section
/-! DEFINITION. The announcement engine's commands (05): ANNOUNCE, the press-to-talk line, expiries, cancellation, reading. -/

namespace Sys2Proof.Machine

/-! ### ANNOUNCE (R83) -/

/-- Check 1 of R83: the class, if it can be announced with this max wait. -/
def announceClassOf (cls : Option AnnClass) (maxWait : Option Nat) : Option AnnClass :=
  match cls with
  | none => none
  | some .live => none
  | some c => if maxWait.all fun w => decide (1 ≤ w ∧ w ≤ 600000) then some c else none

/-- The reply to what became of an ANNOUNCE. -/
def State.replyAdmission (s : State) (tag : Byte) : Admission → State
  | .admitted t => s.reply 0x20 tag .ok (.ticket t)
  | .merged t => s.reply 0x20 tag .merged (.ticket t)
  | .full => s.reply 0x20 tag .queueFull

/-- ANNOUNCE (R83). -/
def execAnnounce (tag : Byte) (cls : Option AnnClass) (clipSet : Nat) (maxWait : Option Nat) (s : State) : Result :=
  s.command 0x20 tag fun s =>
    match announceClassOf cls maxWait with
    | none => s.reply 0x20 tag .range
    | some c =>
      if s.cues.routeState ≠ .ready then s.reply 0x20 tag .wrongState
      else
        match s.cues.clipSets[clipSet]? with
        | none => s.reply 0x20 tag .notFound
        | some set =>
          let (s, outcome) := s.admitEntry (s.linkEntry c clipSet set maxWait)
          s.replyAdmission tag outcome

/-! ### Expiries (R91, R97) -/

/-- Whether the active NOTICE waits in QUEUED and its max wait has passed (log 14). -/
def State.noticeDue (s : State) : Bool :=
  s.ann.active.any fun e : Entry =>
    decide (e.cls = .notice) && decide (e.phase = .queued) &&
      (match e.expiry with
       | .wait limit => decide (limit < elapsed s.clock e.admitted)
       | _ => false)

/-- NOTICE_MAX_WAIT (R91). -/
def execNoticeMaxWait (s : State) : Result :=
  s.event fun s => if s.noticeDue then (s.endActive .expired).select else s

/-- Whether the hang timer has expired. -/
def State.hangDue (s : State) : Bool := s.ann.hangTimer.any fun t => reached s.clock t

/-- HANG_TIMER_EXPIRY (R97). -/
def execHangTimerExpiry (s : State) : Result :=
  s.event fun s => if s.hangDue then (s.endActive .completed).select else s

/-! ### The press-to-talk line (R96, R97, R185, R186) -/

/-- PTT_PRESS: the line goes from released to pressed. It aborts an entry phase or wakes the part, and the announcement
engine takes the press while the blocks run. -/
def execPttPress (s : State) : Result :=
  .next <|
    if s.power.pttLine then s
    else
      let s := { s with power := { s.power with pttLine := true } }
      if s.running then (s.wakeInput .ptt).livePress.endEvent else s.wakeInput .ptt

/-- PTT_RELEASE: the line goes from pressed to released (R97). -/
def execPttRelease (s : State) : Result :=
  .next <|
    if s.power.pttLine then
      let s := { s with power := { s.power with pttLine := false } }
      if s.running then s.liveRelease.endEvent else s
    else s

/-! ### Cancellation, precedence, reading (R98, R101, R102) -/

/-- CANCEL_ANNOUNCE (R98). -/
def execCancelAnnounce (tag : Byte) (ticket : Nat) (s : State) : Result :=
  s.command 0x21 tag fun s =>
    match s.ann.byTicket ticket with
    | none => s.reply 0x21 tag .notFound
    | some e => if e.cls = .live then s.reply 0x21 tag .wrongState else (s.reply 0x21 tag .ok).cancelEntry e

/-- GET_ANNOUNCEMENTS (R102). -/
def execGetAnnouncements (tag : Byte) (s : State) : Result :=
  s.query 0x22 tag fun s => s.reply 0x22 tag .ok s.ann.view

/-- SET_PRECEDENCE (R101). -/
def execSetPrecedence (tag : Byte) (code : Nat) (s : State) : Result :=
  s.query 0x23 tag fun s =>
    match asFin 6 code with
    | none => s.reply 0x23 tag .range
    | some c => (s.setAnn fun a => a.setCode c).reply 0x23 tag .ok

end Sys2Proof.Machine
end

