-- ==== Sys2Proof/Machine/VoiceCommands.lean ====
section
/-! DEFINITION. The voice engine's and the read port's commands (06): arriving and due pages, fades, the beginning of writes,
fault clearing. -/

namespace Sys2Proof.Machine

/-- Whether a voice takes the data of a read posted under the start number `serial`: its start is still that one, and it has
not been released (R109). -/
def Voice.takesData (v : Voice) (serial : Nat) : Bool :=
  decide (v.serial = serial) && v.outstanding && (decide (v.state = .priming) || decide (v.state = .playing))

/-- A voice's read data arrive: stale data and data for a released voice are discarded and change no field of the voice; a
checked page joins the queue, a priming voice may begin to play, and the next read is posted (R108, R109). -/
def State.voicePage (s : State) (v : Fin 16) (serial index page : Nat) (data : Option (List Byte)) : State :=
  if (s.voice v).takesData serial then
    match (s.voice v).clip with
    | none => s
    | some clip =>
      let (p, s) := s.checkPage page data clip index false
      (s.setVoice v fun r => { r with queue := r.queue ++ [p], outstanding := false }.prime s.clock).topUp v
  else s

/-- VOICE_PAGE_ARRIVAL (R109). -/
def execVoicePageArrival (voice : Fin 16) (failed : Bool) (s : State) : Result :=
  s.event fun s =>
    match s.port.serving with
    | some { page := page, use := .voice v serial index } =>
      if v = voice then
        let (data, s) := s.readPage page failed
        s.portDone.voicePage v serial index page data
      else s
    | _ => s

/-- Whether a voice's page is due (R110). -/
def State.pageDue (s : State) (v : Fin 16) : Bool :=
  let r := s.voice v
  (decide (r.state = .playing) || decide (r.state = .stopping)) && r.due.any fun t => reached s.clock t

/-- A voice outputs its head page over the next 60 ms. -/
def Voice.playHead (r : Voice) (p : Page) (rest : List Page) : Voice :=
  { r with
    queue := rest, nextPlay := r.nextPlay + 1, sounding := p.samples, due := r.due.map fun t => after t 60 }

/-- A voice holds its last sample for the next 60 ms. -/
def Voice.holdOn (r : Voice) : Voice := { r with sounding := [], due := r.due.map fun t => after t 60 }

/-- A playing voice's page is due (R110). -/
def State.duePlaying (s : State) (v : Fin 16) : State :=
  let r := s.voice v
  if r.pageCount ≤ r.nextPlay then s.voiceEnded v
  else
    match r.queue with
    | p :: rest => (s.setVoice v fun r => { r.playHead p rest with starved := 0 }).topUp v
    | [] =>
      if r.starved < 4 then
        s.setVoice v fun r => { r.holdOn with underruns := min (r.underruns + 1) 255, starved := r.starved + 1 }
      else s.voiceEnded v

/-- A stopping voice's page is due: its sound goes on under the fade, and ends at its last page (R111, log 13). -/
def State.dueStopping (s : State) (v : Fin 16) : State :=
  let r := s.voice v
  if r.pageCount ≤ r.nextPlay then (s.dropVoice v).tellFree
  else
    match r.queue with
    | p :: rest => s.setVoice v fun r => r.playHead p rest
    | [] => s.setVoice v Voice.holdOn

/-- VOICE_PAGE_DUE (R110, R111). -/
def execVoicePageDue (voice : Fin 16) (s : State) : Result :=
  s.event fun s =>
    if s.pageDue voice then
      if (s.voice voice).state = .playing then s.duePlaying voice else s.dueStopping voice
    else s

/-- Whether a voice's fade has ended. -/
def State.fadeOver (s : State) (v : Fin 16) : Bool :=
  decide ((s.voice v).state = .stopping) && decide (20 ≤ (s.voice v).fade)

/-- FADE_END (R111): the voice becomes FREE, and the announcement engine is told. -/
def execFadeEnd (voice : Fin 16) (s : State) : Result :=
  s.event fun s => if s.fadeOver voice then (s.dropVoice voice).tellFree else s

/-- WRITE_BEGIN (R118): the waiting write begins at the free port. -/
def execWriteBegin (s : State) : Result :=
  s.event fun s => if s.writeCanBegin then s.shiftWrite .waiting .running else s

/-- CLEAR_STORE_FAULTS (R114). -/
def execClearStoreFaults (tag : Byte) (s : State) : Result :=
  s.query 0x3A tag fun s =>
    ({ s with voices := { s.voices with integrity := 0, firstFault := none } }).reply 0x3A tag .ok

end Sys2Proof.Machine
end

