-- ==== Sys2Proof/Machine/StoreCommands.lean ====
section
/-! DEFINITION. The clip store controller's commands (07): modes, reads, programs, erases, locks, reloads, and the completions
that the store reports. -/

namespace Sys2Proof.Machine

/-! ### Operating modes (R124) -/

/-- ENTER_SERVICE (R124). -/
def execEnterService (tag : Byte) (s : State) : Result :=
  s.command 0x30 tag fun s =>
    if s.store.mode = .service then s.reply 0x30 tag .ok
    else if s.stationary then (s.reply 0x30 tag .ok).enterService
    else s.reply 0x30 tag .notStationary

/-- LEAVE_SERVICE (R124). -/
def execLeaveService (tag : Byte) (s : State) : Result :=
  s.command 0x31 tag fun s =>
    if s.store.mode = .run then s.reply 0x31 tag .ok
    else if s.store.reload.isSome then s.reply 0x31 tag .busy
    else (s.reply 0x31 tag .ok).enterRun

/-! ### STORE_READ (R126) -/

/-- STORE_READ: the read is posted, and the reply follows its data. -/
def execStoreRead (tag : Byte) (page : Nat) (s : State) : Result :=
  s.command 0x32 tag fun s =>
    if lastPage < page then s.reply 0x32 tag .range else s.postRead { page := page, use := .storeRead tag }

/-- STORE_READ_DATA: the data of the served STORE_READ arrive. -/
def execStoreReadData (failed : Bool) (s : State) : Result :=
  s.event fun s =>
    match s.port.serving with
    | some { page := page, use := .storeRead tag } =>
      let (data, s) := s.readPage page failed
      s.portDone.reply 0x32 tag .ok (.storePage data)
    | _ => s

/-! ### STORE_PROGRAM (R129, R130) -/

/-- STORE_PROGRAM: checks 1 to 5, then the blank-check read. Data of another length than a page's do not suit the kind
(log 23). -/
def execStoreProgram (tag : Byte) (page : Nat) (data : List Byte) (s : State) : Result :=
  s.command 0x33 tag fun s =>
    if data.length ≠ 512 then s.reply 0x33 tag .badLength
    else
      match s.programCheck page with
      | some code => s.reply 0x33 tag code
      | none => s.postRead { page := page, use := .blankCheck tag data }

/-- Whether a page as read is blank. -/
def blank (data : Option (List Byte)) : Bool :=
  match data with
  | none => false
  | some bytes => bytes.all (decide <| · = erasedByte)

/-- The end of a blank check: checks 1 to 5 again, then the last two, then acceptance. -/
def State.blankChecked (s : State) (tag : Byte) (page : Nat) (bytes : List Byte) (data : Option (List Byte)) : State :=
  match s.programCheck page with
  | some code => s.reply 0x33 tag code
  | none =>
    if blank data = false then s.reply 0x33 tag .notErased
    else if s.store.write.isSome then s.reply 0x33 tag .storeBusy
    else s.acceptWrite (.pageProgram bytes tag) (sectorOf page) (some page)

/-- BLANK_CHECK_DATA: the data of the served blank-check read arrive. -/
def execBlankCheckData (failed : Bool) (s : State) : Result :=
  s.event fun s =>
    match s.port.serving with
    | some { page := page, use := .blankCheck tag bytes } =>
      let (data, s) := s.readPage page failed
      s.portDone.blankChecked tag page bytes data
    | _ => s

/-- The end of a write: the record is absent, the event ends, and an entry phase that waited for it ends in STANDBY. -/
def State.writeDone (s : State) (store : Store) (act : State → State) : State :=
  (act { s with store := store.writeEnds }).endEvent.afterWrite

/-- PAGE_PROGRAM_COMPLETE (R130). -/
def execPageProgramComplete (s : State) : Result :=
  .next <|
    if s.running then
      match s.store.runningWrite with
      | some { kind := .pageProgram data tag, page := some page, .. } =>
        s.writeDone (s.store.programDone page data) fun s => s.reply 0x33 tag .ok
      | _ => s
    else s

/-! ### STORE_ERASE (R131) -/

/-- STORE_ERASE. -/
def execStoreErase (tag : Byte) (sector : Nat) (s : State) : Result :=
  s.command 0x34 tag fun s =>
    match s.eraseCheck sector with
    | some code => s.reply 0x34 tag code
    | none => (s.acceptWrite .sectorErase sector none).reply 0x34 tag .accepted

/-- SECTOR_ERASE_COMPLETE. -/
def execSectorEraseComplete (s : State) : Result :=
  .next <|
    if s.running then
      match s.store.runningWrite with
      | some { kind := .sectorErase, sector := sector, .. } =>
        s.writeDone (s.store.eraseDone sector) fun s => s.report (.storeDone false sector s.clock)
      | _ => s
    else s

/-! ### Directory reload and resident buffers (R137, R120) -/

/-- RELOAD_DIRECTORY. -/
def execReloadDirectory (tag : Byte) (s : State) : Result :=
  s.command 0x35 tag fun s =>
    if s.store.mode = .run then s.reply 0x35 tag .wrongState
    else if s.store.reload.isSome then s.reply 0x35 tag .busy
    else if s.allFree = false then s.reply 0x35 tag .inUse
    else s.beginReload.reply 0x35 tag .accepted

/-- Whether a read is one of a directory page. -/
def ReadUse.isDirectory : ReadUse → Bool
  | .routeDirectory _ | .clipDirectory _ => true
  | _ => false

/-- DIRECTORY_PAGE_ARRIVAL: the served read of a reload arrives. -/
def execDirectoryPageArrival (failed : Bool) (s : State) : Result :=
  s.event fun s =>
    match s.port.serving with
    | none => s
    | some r =>
      if r.use.isDirectory then
        let erasing := s.store.erasing (sectorOf r.page)
        let (data, s) := s.readPage r.page failed
        s.portDone.directoryPage r.use data erasing
      else s

/-- RESIDENT_PAGE_ARRIVAL: the served read of a resident buffer arrives. -/
def execResidentPageArrival (failed : Bool) (s : State) : Result :=
  s.event fun s =>
    match s.port.serving with
    | some { page := page, use := .resident buffer index } =>
      let (data, s) := s.readPage page failed
      s.portDone.residentPage buffer index page data false
    | _ => s

/-! ### Sector locks (R133 to R136) -/

/-- LOCK_PERSISTENT: SECTOR_LOCK of kind PERSISTENT, or of no known kind (log 22). -/
def execLockPersistent (tag : Byte) (known : Bool) (sector : Nat) (s : State) : Result :=
  s.command 0x36 tag fun s =>
    if known = false then s.reply 0x36 tag .range
    else
      match lockCheck sector with
      | some code => s.reply 0x36 tag code
      | none =>
        if s.store.freeze then s.reply 0x36 tag .frozen
        else if s.store.locked.contains sector then s.reply 0x36 tag .ok
        else if s.store.write.isSome then s.reply 0x36 tag .storeBusy
        else s.acceptWrite (.lockProgram sector tag) lastSector (some (lockMapPage (sectorOf sector)))

/-- LOCK_PROGRAM_COMPLETE. -/
def execLockProgramComplete (s : State) : Result :=
  .next <|
    if s.running then
      match s.store.runningWrite with
      | some { kind := .lockProgram target tag, .. } =>
        s.writeDone (s.store.lockDone target) fun s => s.reply 0x36 tag .ok
      | _ => s
    else s

/-- VOLATILE_ON (R134). -/
def execVolatileOn (tag : Byte) (sector : Nat) (s : State) : Result :=
  s.query 0x36 tag fun s =>
    match lockCheck sector with
    | some code => s.reply 0x36 tag code
    | none =>
      if s.store.lockdowns.contains sector then s.reply 0x36 tag .lockedDown
      else if s.store.write.any fun w : WriteRecord => decide (w.sector = sector) then s.reply 0x36 tag .storeBusy
      else
        ({ s with store := { s.store with volatileLocks := setAdd s.store.volatileLocks sector } }).reply 0x36 tag .ok

/-- VOLATILE_OFF (R134). -/
def execVolatileOff (tag : Byte) (sector : Nat) (s : State) : Result :=
  s.query 0x36 tag fun s =>
    match lockCheck sector with
    | some code => s.reply 0x36 tag code
    | none =>
      if s.store.lockdowns.contains sector then s.reply 0x36 tag .lockedDown
      else
        ({ s with store := { s.store with volatileLocks := setRemove s.store.volatileLocks sector } }).reply 0x36 tag .ok

/-- LOCKDOWN (R134). -/
def execLockdown (tag : Byte) (sector : Nat) (s : State) : Result :=
  s.query 0x36 tag fun s =>
    match lockCheck sector with
    | some code => s.reply 0x36 tag code
    | none => ({ s with store := { s.store with lockdowns := setAdd s.store.lockdowns sector } }).reply 0x36 tag .ok

/-- UNLOCK_ALL (R135). -/
def execUnlockAll (tag : Byte) (s : State) : Result :=
  s.command 0x37 tag fun s =>
    if s.store.freeze then s.reply 0x37 tag .frozen
    else if s.store.write.isSome then s.reply 0x37 tag .storeBusy
    else (s.acceptWrite .lockErase lastSector none).reply 0x37 tag .accepted

/-- LOCK_ERASE_COMPLETE (R135). -/
def execLockEraseComplete (s : State) : Result :=
  .next <|
    if s.running then
      match s.store.runningWrite with
      | some { kind := .lockErase, .. } =>
        s.writeDone s.store.unlockDone fun s => s.report (.storeDone true lastSector s.clock)
      | _ => s
    else s

/-- Whether a write changes the lock sector. -/
def WriteKind.locks : WriteKind → Bool
  | .lockProgram _ _ | .lockErase => true
  | _ => false

/-- FREEZE_LOCKS (R136). -/
def execFreezeLocks (tag : Byte) (s : State) : Result :=
  s.query 0x38 tag fun s =>
    if s.store.write.any fun w : WriteRecord => w.kind.locks then s.reply 0x38 tag .storeBusy
    else ({ s with store := { s.store with freeze := true } }).reply 0x38 tag .ok

/-- GET_STORE_STATE (R139). -/
def execGetStoreState (tag : Byte) (first last : Nat) (s : State) : Result :=
  s.query 0x39 tag fun s =>
    if last < first ∨ lastSector < last ∨ 256 < last + 1 - first then s.reply 0x39 tag .range
    else s.reply 0x39 tag .ok (.storeState (s.storeView first last))

end Sys2Proof.Machine
end

