-- ==== Sys2Proof/Machine/MixerCommands.lean ====
section
/-! DEFINITION. The mixer's commands (08): SET_ZONE and the advances of its two ramps. -/

namespace Sys2Proof.Machine

/-- A zone with the fields present applied. -/
def Zone.put (z : Zone) (gain : Option (Fin 16)) (commentary : Option Bool) : Zone :=
  { gain := gain.getD z.gain, commentary := commentary.getD z.commentary }

/-- The named zone of a mixer with the fields present applied; no zone is named when no field is present. -/
def Mixer.putZone (m : Mixer) (zone : Option ZoneField) (gain : Option (Fin 16)) (commentary : Option Bool) : Mixer :=
  match zone with
  | some .upper => { m with upper := m.upper.put gain commentary }
  | some .lower => { m with lower := m.lower.put gain commentary }
  | _ => m

/-- The range check of SET_ZONE (R146). -/
def zoneRefused (zone : Option ZoneField) (gain : Option Nat) (commentary : Option Bool) : Bool :=
  decide (zone = some .unknown) || (zone.isNone && (gain.isSome || commentary.isSome)) || gain.any (decide <| 15 < ·)

/-- The fields of the SET_ZONE reply. -/
def Mixer.view (m : Mixer) : ReplyData := .zones m.upper m.lower m.quiet m.need m.sounding m.duck

/-- SET_ZONE (R146). -/
def execSetZone (tag : Byte) (zone : Option ZoneField) (gain : Option Nat) (commentary : Option Bool) (s : State) : Result :=
  s.command 0x24 tag fun s =>
    if zoneRefused zone gain commentary then s.reply 0x24 tag .range
    else
      let s := { s with mixer := s.mixer.putZone zone (gain.bind (asFin 16)) commentary }.deriveNeed
      s.reply 0x24 tag .ok s.mixer.view

/-- DUCK_RAMP_ADVANCE (R149). -/
def execDuckRampAdvance (s : State) : Result :=
  s.event fun s => { s with mixer := s.mixer.advanceDuck s.clock }

/-- OUTPUT_RAMP_ADVANCE (R149, R150). -/
def execOutputRampAdvance (s : State) : Result :=
  s.event fun s => { s with mixer := s.mixer.advanceOutput s.clock }

end Sys2Proof.Machine
end

