-- ==== Sys2Proof/Machine/LightCommands.lean ====
section
/-! DEFINITION. The light controller's commands (09): levels, scenes, the master, reading, ramp advances and flash phases. -/

namespace Sys2Proof.Machine

/-- SET_LIGHT (R162). -/
def execSetLight (tag : Byte) (channel level ramp : Nat) (s : State) : Result :=
  s.query 0x28 tag fun s =>
    match asFin 16 channel with
    | none => s.reply 0x28 tag .range
    | some i =>
      if 4095 < level ∨ 65535 < ramp then s.reply 0x28 tag .range
      else
        let s := { s with lights := s.lights.change i ramp s.clock fun c => { c with base := level } }
        s.reply 0x28 tag .ok (.light (s.channelView i))

/-- APPLY_SCENE (R160). -/
def execApplyScene (tag : Byte) (scene : Nat) (s : State) : Result :=
  s.query 0x29 tag fun s =>
    if s.cues.routeState ≠ .ready then s.reply 0x29 tag .wrongState
    else
      match s.cues.scenes[scene]? with
      | none => s.reply 0x29 tag .notFound
      | some entries => ({ s with lights := s.lights.applyScene entries s.clock }).reply 0x29 tag .ok

/-- CLEAR_SCENE (R161). -/
def execClearScene (tag : Byte) (s : State) : Result :=
  s.query 0x2A tag fun s => ({ s with lights := s.lights.clearScene s.clock }).reply 0x2A tag .ok

/-- SET_MASTER (R163). -/
def execSetMaster (tag : Byte) (level : Nat) (s : State) : Result :=
  s.query 0x2B tag fun s =>
    if 4095 < level then s.reply 0x2B tag .range
    else ({ s with lights := s.lights.setMaster level }).reply 0x2B tag .ok

/-- The fields of GET_LIGHTS. -/
def State.lightsView (s : State) : ReplyData :=
  .lights s.lights.master s.lights.cls s.lights.blank s.lights.warningGroup s.lights.stopGroup s.inForce.bankA
    s.inForce.bankB ((List.finRange 16).map s.channelView)

/-- GET_LIGHTS (R165). -/
def execGetLights (tag : Byte) (s : State) : Result :=
  s.query 0x2C tag fun s => s.reply 0x2C tag .ok s.lightsView

/-- LIGHT_RAMP_ADVANCE (R155, R156). -/
def execLightRampAdvance (channel : Fin 16) (s : State) : Result :=
  s.event fun s =>
    { s with
      lights := { s.lights with
        channels := s.lights.channels.modify channel fun c => (c.advance s.clock).form s.lights.master s.lights.blank } }

/-- FLASH_PHASE_END (R158, R159), under the stop group in force (R163). -/
def execFlashPhaseEnd (channel : Fin 16) (s : State) : Result :=
  s.event fun s =>
    { s with
      lights := { s.lights with
        channels := s.lights.channels.modify channel fun c =>
          (c.phaseEnd s.lights.cls (s.lights.stopGroup.getLsbD channel.val) s.clock).form s.lights.master
            s.lights.blank } }

end Sys2Proof.Machine
end

