-- ==== Sys2Proof/Machine/SettingsCommands.lean ====
section
/-! DEFINITION. The commands of the settings (11 section 11.1): reading, writing with the owners' effects, and saving. -/

namespace Sys2Proof.Machine

/-! ### What the owners do with a written setting (Table 11-2) -/

/-- A LEAD_CHANGE update in PLACED (R17); the advance rule itself tests for PLACED. -/
def State.leadChange (s : State) : State := s.advance

/-- The report timer restarted with a new period (R19). -/
def State.restartReports (s : State) : State :=
  { s with
    tracker := { s.tracker with
      reportTimer := if s.settings.positionPeriod = 0 then none else some (after s.clock s.settings.positionPeriod) } }

/-- The pending correction clamped to a new slew limit (R17). -/
def State.clampCorrection (s : State) : State :=
  { s with tracker := { s.tracker with correction := clampInt s.tracker.correction (s.settings.slewLimit * 1000) } }

/-- A write of the speaker slot: zone flags, need and demand (R79, R147). No rule orders the two owners; the mixer acts first,
so that a voice which the old speaker stream then releases fades without its zone flag (DESIGN CHOICE, log 34). -/
def State.speakerWritten (s : State) : State :=
  ({ s with mixer := s.mixer.speakerWritten s.voices.voices s.settings.speakerSlot }).deriveNeed.deriveDemand

/-- A write of the standby delay while the line is low sets the timer afresh (R183). -/
def State.delayWritten (s : State) : State := if s.power.ignition then s else s.armTimer

/-- The zones set from the two zone settings, as SET_ZONE does (R146). -/
def State.zoneGainsWritten (s : State) : State :=
  { s with
    mixer := { s.mixer with
      upper := { s.mixer.upper with gain := s.settings.upperGain }
      lower := { s.mixer.lower with gain := s.settings.lowerGain } } }

/-- The zones' commentary enables set, and the need derived. -/
def State.zoneEnablesWritten (s : State) : State :=
  { s with
    mixer := { s.mixer with
      upper := { s.mixer.upper with commentary := s.settings.upperCommentary }
      lower := { s.mixer.lower with commentary := s.settings.lowerCommentary } } }.deriveNeed

/-- The owner of setting `id` acts on its new active value; a setting that is only read when used needs no act. -/
def State.settingWritten (s : State) (id : Nat) : State :=
  match id with
  | 3 => s.clampCorrection
  | 5 => s.leadChange
  | 6 => s.leadChange.motionTest
  | 9 => s.refreshEnabled
  | 10 => s.seatsTaken s.seats
  | 11 => s.speakerWritten
  | 13 => { s with seats := s.seats.derive s.settings }
  | 14 => { s with mixer := s.mixer.depthWritten s.settings.duckDepth.val s.clock }
  | 15 => s.setAnn fun a => a.setCode s.settings.precedenceCode
  | 18 => s.restartReports
  | 19 => s.delayWritten
  | 20 => s.zoneGainsWritten
  | 21 => s.zoneEnablesWritten
  | 24 => { s with lights := s.lights.setMaster s.settings.masterLevel }
  | _ => s

/-! ### GET_SETTING, SET_SETTING (R179) -/

/-- GET_SETTING. -/
def execGetSetting (tag : Byte) (id : Nat) (s : State) : Result :=
  s.query 0x04 tag fun s =>
    if (settingWidth id).isNone then s.reply 0x04 tag .notFound
    else
      s.reply 0x04 tag .ok
        (.setting (BitVec.ofNat 8 id) (s.settings.read id) (if startUpOnly id then some (s.inForce.asSettings.read id) else none))

/-- SET_SETTING; a value of another width than its setting's does not suit the kind (log 23). -/
def execSetSetting (tag : Byte) (id : Nat) (value : List Byte) (s : State) : Result :=
  s.command 0x05 tag fun s =>
    match settingWidth id with
    | none => s.reply 0x05 tag .notFound
    | some width =>
      if value.length ≠ width then s.reply 0x05 tag .badLength
      else
        match s.settings.write id value with
        | none => s.reply 0x05 tag .range
        | some g => ({ s with settings := g }.settingWritten id).reply 0x05 tag .ok

/-! ### SAVE_SETTINGS (R180) -/

/-- SAVE_SETTINGS: the snapshot is taken, and the write accepted. -/
def execSaveSettings (tag : Byte) (s : State) : Result :=
  s.command 0x06 tag fun s =>
    if s.store.write.isSome then s.reply 0x06 tag .storeBusy
    else (s.acceptWrite (.settingsSave s.settings.record false) 0 none).reply 0x06 tag .accepted

/-- SETTINGS_ERASE_COMPLETE: the erase is done, and the program waits for the port (log 20). -/
def execSettingsEraseComplete (s : State) : Result :=
  s.event fun s =>
    match s.store.runningWrite with
    | some { kind := .settingsSave record false, .. } =>
      { s with store := s.store.eraseDone 0 }.acceptWrite (.settingsSave record true) 0 (some 0)
    | _ => s

/-- SETTINGS_SAVED: the program is done. -/
def execSettingsSaved (s : State) : Result :=
  .next <|
    if s.running then
      match s.store.runningWrite with
      | some { kind := .settingsSave record true, .. } =>
        s.writeDone (s.store.programDone 0 record) fun s => s.report (.settingsSaved s.clock)
      | _ => s
    else s

end Sys2Proof.Machine
end

