-- ==== Sys2Proof/Machine/PowerCommands.lean ====
section
/-! DEFINITION. The commands of start-up, standby and the ignition line (11 sections 11.2 to 11.4). -/

namespace Sys2Proof.Machine

/-- POWER_ON (R181): supply is applied and a POWER_ON start-up begins, with the wake latches empty. -/
def execPowerOn (s : State) : Result := .next (s.beginStartUp .powerOn {})

/-- STARTUP_PAGE_ARRIVAL (R181, R182). -/
def execStartupPageArrival (failed : Bool) (s : State) : Result :=
  .next (if s.power.state = .starting then s.loadArrives failed else s)

/-- RESTART (R181): the reply is formed; the start-up begins when it has been sent (R174). -/
def execRestart (tag : Byte) (s : State) : Result := s.query 0x02 tag fun s => s.reply 0x02 tag .ok

/-- STANDBY (R184). -/
def execStandby (tag : Byte) (s : State) : Result :=
  s.query 0x03 tag fun s =>
    if s.power.state = .entering then s.reply 0x03 tag .wrongState
    else if s.power.ignition ∨ s.ann.pressed then s.reply 0x03 tag .wakePending
    else if s.busy then s.reply 0x03 tag .busy
    else (s.beginEntry .request).reply 0x03 tag .ok

/-- IGNITION_RISE (R183, R185, R186): the line goes high; the timer is idle, an entry phase is aborted, or standby ends. -/
def execIgnitionRise (s : State) : Result :=
  .next <|
    if s.power.ignition then s
    else
      let s := { s with power := { s.power with ignition := true, offTimer := none } }
      if s.running then (s.wakeInput .ignition).endEvent else s.wakeInput .ignition

/-- IGNITION_FALL (R183): the line goes low, and the timer is set. -/
def execIgnitionFall (s : State) : Result :=
  .next <|
    if s.power.ignition then
      let s := { s with power := { s.power with ignition := false } }
      if s.running then s.armTimer else s
    else s

/-- Whether the ignition-off timer has expired. -/
def State.offDue (s : State) : Bool := s.power.offTimer.any fun t => reached s.clock t

/-- IGNITION_OFF_TIMER (R183). -/
def execIgnitionOffTimer (s : State) : Result :=
  s.event fun s =>
    if s.offDue then
      if s.power.state = .entering then s.idleTimer
      else if s.ann.pressed || s.busy then s.armTimer
      else s.beginEntry .timer
    else s

/-- Whether the 500 ms of an entry phase have ended. -/
def State.phaseDue (s : State) : Bool :=
  decide (s.power.state = .entering) && !s.power.phaseOver && s.power.phaseEnd.any fun t => reached s.clock t

/-- ENTRY_PHASE_END (R185): STANDBY, or ENTERING until the write in flight ends. This also with a RESTART taken whose reply is
not yet out: R181 has its start-up end the phase, R185 has the phase end in STANDBY at once, and no rule says which goes first;
the model enters STANDBY, the reply and the RESTART are lost (DESIGN CHOICE, log 38). -/
def execEntryPhaseEnd (s : State) : Result :=
  .next <|
    if s.phaseDue then
      match s.store.write with
      | none => s.enterStandby
      | some _ => { s with power := { s.power with phaseOver := true } }
    else s

end Sys2Proof.Machine
end

