-- ==== Sys2Proof/Machine/LinkCommands.lean ====
section
/-! DEFINITION. The message link's commands (10): received bytes, errors and timeouts, frames sent, GET_STATUS. -/

namespace Sys2Proof.Machine

/-- The state with the link changed. -/
def State.setLink (s : State) (f : Link → Link) : State := { s with link := f s.link }

/-- The link with its counters changed. -/
def Link.count (l : Link) (f : Counters → Counters) : Link := { l with counters := f l.counters }

/-! ### Receiving (R167 to R170, R173) -/

/-- A good frame joins the input queue, or is answered LINK_BUSY, or is discarded (R169, R173). -/
def Link.takeFrame (l : Link) (kind tag : Byte) (body : List Byte) : Link :=
  let l := l.count fun c => { c with goodFrames := c.goodFrames + 1 }
  if l.input.length < 4 then { l with input := l.input ++ [{ kind := kind, tag := tag, body := body }] }
  else if l.busy.length < 4 then
    { l.count fun c => { c with busyRefusals := bump c.busyRefusals } with
      busy := l.busy ++ [{ kind := replyKind kind, tag := tag, code := .linkBusy, order := l.formed, byLink := true }]
      formed := l.formed + 1 }
  else l.count fun c => { c with busyUnanswered := bump c.busyUnanswered }

/-- A complete frame is tested against its check (R169). -/
def Link.frameComplete (l : Link) (length : Nat) (received : List Byte) : Link :=
  if field received length 2 = (crc16 (beBytes 2 length ++ received.take length)).toNat then
    match received.take length with
    | kind :: tag :: body => l.takeFrame kind tag body
    | _ => l
  else l.count fun c => { c with crcErrors := bump c.crcErrors }

/-- A byte received in the middle of a frame (R167, R168). -/
def Link.gather (l : Link) (b : Byte) : Link :=
  match l.receiver with
  | .hunt => l
  | .length received =>
    if received.length = 0 then { l with receiver := .length [b] }
    else
      let n := beNat (received ++ [b])
      if n < 2 ∨ 602 < n then { l.count fun c => { c with lengthErrors := bump c.lengthErrors } with receiver := .hunt }
      else { l with receiver := .frame n [] }
  | .frame n received =>
    if received.length + 1 < n + 2 then { l with receiver := .frame n (received ++ [b]) }
    else { l with receiver := .hunt }.frameComplete n (received ++ [b])

/-- A byte received while the part runs (R167): in HUNT a start byte begins a frame and aborts an entry phase. -/
def State.receive (s : State) (b : Byte) : State :=
  match s.link.receiver with
  | .hunt =>
    if b = startByte then
      (s.wakeInput .link).setLink fun l => { l with receiver := .length [], lastByte := s.clock }
    else s.setLink fun l => l.count fun c => { c with noiseBytes := bump c.noiseBytes }
  | _ => s.setLink fun l => { l with lastByte := s.clock }.gather b

/-- LINK_BYTE (R167); in STANDBY and in a WAKE start-up a start byte is a wake cause alone (R186). -/
def execLinkByte (byte : Byte) (s : State) : Result :=
  .next <|
    if s.running then (s.receive byte).kick
    else if byte = startByte then s.wakeInput .link
    else s

/-- LINE_ERROR_BYTE (R170). -/
def execLineErrorByte (s : State) : Result :=
  .next <|
    if s.running then
      (s.setLink fun l =>
        { l.count fun c => { c with lineErrors := bump c.lineErrors } with receiver := .hunt }).kick
    else s

/-- Whether the frame in progress has timed out. -/
def State.frameDue (s : State) : Bool :=
  match s.link.receiver with
  | .hunt => false
  | _ => reached s.clock (after s.link.lastByte 20)

/-- FRAME_TIMEOUT (R170). -/
def execFrameTimeout (s : State) : Result :=
  .next <|
    if s.running && s.frameDue then
      (s.setLink fun l => { l.count fun c => { c with timeouts := bump c.timeouts } with receiver := .hunt }).kick
    else s

/-! ### BAD_KIND (R171, R172) -/

/-- BAD_KIND: a request of a kind outside Table 10-3 is taken. -/
def execBadKind (tag kind : Byte) (s : State) : Result :=
  .next <|
    if s.turnOf kind tag && !(requestKinds.contains kind.toNat) then
      ((s.setLink fun l => { l with input := takeFirst kind tag l.input }).reply kind.toNat tag .badKind).kick
    else s

/-! ### Sending (R174) -/

/-- The request that a sent reply answers leaves the input queue. -/
def leaveQueue (r : Reply) (input : List QueuedRequest) : List QueuedRequest :=
  input.eraseP fun q => q.taken && decide (replyKind q.kind = r.kind) && decide (q.tag = r.tag)

/-- FRAME_SENT: the last byte of the frame in the transmitter has gone; the next frame begins, or a RESTART start-up. -/
def execFrameSent (s : State) : Result :=
  .next <|
    match s.link.sending with
    | none => s
    | some (.reply r) =>
      let s := s.setLink fun l =>
        { l with sending := none, input := if r.byLink then l.input else leaveQueue r l.input }
      if r.kind = 0x82 ∧ r.code = .ok then s.beginStartUp .restart {} else s.kick
    | some (.report _) =>
      (s.setLink fun l =>
        { l.count fun c => { c with reportsSent := c.reportsSent + 1 } with sending := none }).kick

/-! ### GET_STATUS (R176) -/

/-- The fields of GET_STATUS. -/
def State.statusView (s : State) : StatusView :=
  { kind := s.power.kind, clock := s.clock, mode := s.store.mode, reloading := s.store.reload.isSome
    routeState := s.cues.routeState, routeNumber := s.cues.routeNumber, tracker := s.tracker.state, engine := s.comm.state
    active := s.ann.active.map fun e : Entry => (e.ticket, e.cls, e.phase)
    queued := s.ann.queue.length, stacked := s.ann.stack.length
    write := s.store.write.map fun w : WriteRecord => w.kind.name
    integrity := s.voices.integrity
    presentBoxes := (s.seats.boxes.list.filter SeatBox.present).length
    requests := s.link.input.length, reports := s.link.reports.length, counters := s.link.counters }

/-- GET_STATUS; with the clear flag the counters become 0 after they have been read. -/
def execGetStatus (tag : Byte) (clear : Bool) (s : State) : Result :=
  s.query 0x01 tag fun s =>
    let answered := s.reply 0x01 tag .ok (.status s.statusView)
    if clear then answered.setLink fun l => l.count fun _ => {} else answered

end Sys2Proof.Machine
end

