-- ==== Sys2Proof/Machine/Clock.lean ====
section
/-! DEFINITION. What an empty queue does (log 2): the events that have fallen due, their order, the hand-over of the next
request, and the passing of one millisecond. -/

namespace Sys2Proof.Machine

/-! ### Requests waiting in the input queue (R171) -/

/-- The kind and tag of a request command. -/
def requestOf : Instr → Option (Nat × Byte)
  | .getStatus tag _ => some (0x01, tag)
  | .restart tag => some (0x02, tag)
  | .standby tag => some (0x03, tag)
  | .getSetting tag _ => some (0x04, tag)
  | .setSetting tag _ _ => some (0x05, tag)
  | .saveSettings tag => some (0x06, tag)
  | .fixSoft tag _ _ _ => some (0x10, tag)
  | .fixHard tag _ _ => some (0x10, tag)
  | .detourBegin tag => some (0x11, tag)
  | .detourEnd tag => some (0x12, tag)
  | .getPosition tag => some (0x13, tag)
  | .selectRoute tag _ => some (0x14, tag)
  | .getCues tag _ _ => some (0x15, tag)
  | .forceCue tag _ => some (0x16, tag)
  | .setSeat tag _ _ => some (0x18, tag)
  | .seatApply tag _ => some (0x19, tag)
  | .getSeats tag _ _ => some (0x1A, tag)
  | .getStreams tag => some (0x1B, tag)
  | .announce tag _ _ _ => some (0x20, tag)
  | .cancelAnnounce tag _ => some (0x21, tag)
  | .getAnnouncements tag => some (0x22, tag)
  | .setPrecedence tag _ => some (0x23, tag)
  | .setZone tag _ _ _ => some (0x24, tag)
  | .setLight tag _ _ _ => some (0x28, tag)
  | .applyScene tag _ => some (0x29, tag)
  | .clearScene tag => some (0x2A, tag)
  | .setMaster tag _ => some (0x2B, tag)
  | .getLights tag => some (0x2C, tag)
  | .enterService tag => some (0x30, tag)
  | .leaveService tag => some (0x31, tag)
  | .storeRead tag _ => some (0x32, tag)
  | .storeProgram tag _ _ => some (0x33, tag)
  | .storeErase tag _ => some (0x34, tag)
  | .reloadDirectory tag => some (0x35, tag)
  | .lockPersistent tag _ _ => some (0x36, tag)
  | .volatileOn tag _ => some (0x36, tag)
  | .volatileOff tag _ => some (0x36, tag)
  | .lockdown tag _ => some (0x36, tag)
  | .unlockAll tag => some (0x37, tag)
  | .freezeLocks tag => some (0x38, tag)
  | .getStoreState tag _ _ => some (0x39, tag)
  | .clearStoreFaults tag => some (0x3A, tag)
  | _ => none

/-- The command of a kind with an empty body, or standing for a body that spells none. -/
def plainRequest (tag : Byte) : Nat → Option Instr
  | 0x01 => some (.getStatus tag false)
  | 0x02 => some (.restart tag)
  | 0x03 => some (.standby tag)
  | 0x04 => some (.getSetting tag 0)
  | 0x05 => some (.setSetting tag 0 [])
  | 0x06 => some (.saveSettings tag)
  | 0x10 => some (.fixHard tag 0 0)
  | 0x11 => some (.detourBegin tag)
  | 0x12 => some (.detourEnd tag)
  | 0x13 => some (.getPosition tag)
  | 0x14 => some (.selectRoute tag 0)
  | 0x15 => some (.getCues tag 0 0)
  | 0x16 => some (.forceCue tag 0)
  | 0x18 => some (.setSeat tag 0 ⟨none, none, none, none, none⟩)
  | 0x19 => some (.seatApply tag ⟨0, 0, .always, false, .keep, .keep, .keep, .keep, .keep⟩)
  | 0x1A => some (.getSeats tag 0 0)
  | 0x1B => some (.getStreams tag)
  | 0x20 => some (.announce tag none 0 none)
  | 0x21 => some (.cancelAnnounce tag 0)
  | 0x22 => some (.getAnnouncements tag)
  | 0x23 => some (.setPrecedence tag 0)
  | 0x24 => some (.setZone tag none none none)
  | 0x28 => some (.setLight tag 0 0 0)
  | 0x29 => some (.applyScene tag 0)
  | 0x2A => some (.clearScene tag)
  | 0x2B => some (.setMaster tag 0)
  | 0x2C => some (.getLights tag)
  | 0x30 => some (.enterService tag)
  | 0x31 => some (.leaveService tag)
  | 0x32 => some (.storeRead tag 0)
  | 0x33 => some (.storeProgram tag 0 [])
  | 0x34 => some (.storeErase tag 0)
  | 0x35 => some (.reloadDirectory tag)
  | 0x36 => some (.lockPersistent tag false 0)
  | 0x37 => some (.unlockAll tag)
  | 0x38 => some (.freezeLocks tag)
  | 0x39 => some (.getStoreState tag 0 0)
  | 0x3A => some (.clearStoreFaults tag)
  | _ => none

/-- The command that a queued request spells: by the layouts the spec gives, else by the free reading of its body (log 5).
A body of an unsuitable length is answered BAD_LENGTH whatever it is taken to spell; a reading of another kind or tag is none
of this request's. -/
def spelled (q : QueuedRequest) : Instr :=
  let kind := q.kind.toNat
  match plainRequest q.tag kind with
  | none => .badKind q.tag q.kind
  | some plain =>
    if q.body.isEmpty ∨ admits kind q.body = false then plain
    else
      match kind, q.body with
      | 0x04, id :: _ => .getSetting q.tag id.toNat
      | 0x05, id :: value => .setSetting q.tag id.toNat value
      | _, body =>
        match Config.readBody q.kind q.tag body with
        | some c => if requestOf c = some (kind, q.tag) then c else plain
        | none => plain

/-- The next request to be taken. -/
def State.nextRequest (s : State) : List Instr :=
  if s.replyOwed then [] else s.link.nextRequest.toList.map spelled

/-! ### Events that have fallen due -/

/-- An event if its condition holds. -/
def dueIf (due : Bool) (c : Instr) : List Instr := if due then [c] else []

/-- The poll of this millisecond, or first the missed reply of the poll before it (R41, R43, log 9). -/
def State.ringDue (s : State) : List Instr :=
  allBoxes.flatMap fun b => dueIf (s.missDue b) (.missedReply b) ++ dueIf (s.pollReady b) (.poll b)

/-- Whether a channel's ramp is to advance (R155). -/
def Channel.rampDue (c : Channel) (now : Clock) : Bool := c.ramp.any fun r : Ramp => r.due 10 now

/-- Whether a channel's flash phase has ended (R158). -/
def Channel.phaseDue (c : Channel) (now : Clock) : Bool :=
  match c.announce with
  | some (.flash _ since _) => reached now (after since 400)
  | _ => false

/-- Every event that has fallen due. -/
def State.dueEvents (s : State) : List Instr :=
  dueIf s.windowDue .speedWindow ++ s.ringDue ++ dueIf s.reportDue .positionReport ++
  dueIf s.listenersDue .listenersHoldEnd ++
  allSlots.flatMap (fun i => dueIf (s.delayDue i) (.streamDelayEnd i) ++ dueIf (s.segmentDue i) (.segmentTimeEnd i)) ++
  dueIf s.noticeDue .noticeMaxWait ++ dueIf s.hangDue .hangTimerExpiry ++
  (List.finRange 16).flatMap (fun v => dueIf (s.pageDue v) (.voicePageDue v) ++ dueIf (s.fadeOver v) (.fadeEnd v)) ++
  dueIf s.writeCanBegin .writeBegin ++
  dueIf (s.mixer.duckRamp.any fun r : Ramp => r.due 1 s.clock) .duckRampAdvance ++
  dueIf (s.mixer.outputRamp.any fun r : Ramp => r.due 1 s.clock) .outputRampAdvance ++
  (List.finRange 16).flatMap (fun c =>
    dueIf ((s.lights.channels.get c).rampDue s.clock) (.lightRampAdvance c) ++
      dueIf ((s.lights.channels.get c).phaseDue s.clock) (.flashPhaseEnd c)) ++
  dueIf s.frameDue .frameTimeout ++ dueIf s.offDue .ignitionOffTimer ++ dueIf s.phaseDue .entryPhaseEnd ++ s.nextRequest

/-- Puts an event among others at a place. -/
def placeAt (c : Instr) : Nat → List Instr → List Instr
  | _, [] => [c]
  | 0, d :: rest => c :: d :: rest
  | n + 1, d :: rest => d :: placeAt c n rest

/-- The order in which events of one moment are taken: free (log 3). -/
def arrange (serial : Nat) : List Instr → List Instr
  | [] => []
  | c :: rest =>
    match arrange serial rest with
    | [] => [c]
    | d :: others => placeAt c (Config.eventOrder serial rest.length % (rest.length + 1)) (d :: others)

/-! ### One millisecond -/

/-- A voice over one millisecond: 16 samples are output, and a fade goes one position further (R110, R111, log 11). -/
def Voice.tick (v : Voice) : Voice :=
  let out := { v with hold := (v.sounding.take 16).getLastD v.hold, sounding := v.sounding.drop 16 }
  match v.state with
  | .free | .priming => v
  | .playing => out
  | .stopping => { out with fade := min (v.fade + 1) 20 }

/-- One millisecond passes. -/
def State.tick (s : State) : State :=
  { s with
    clock := s.clock + 1
    pulseTimer := s.pulseTimer + 1000
    windowDue := decide ((s.clock + 1).toNat % 250 = 0)
    pollDue := true
    voices := { s.voices with voices := s.voices.voices.map Voice.tick } }

/-- The step of an empty queue: in STANDBY and start-up nothing; else the due events are queued, or a millisecond passes. -/
def State.idle (s : State) : State :=
  if s.running then
    match s.dueEvents with
    | [] => s.tick
    | c :: rest => { s with pending := arrange s.freeSerial (c :: rest), freeSerial := s.freeSerial + 1 }
  else s

end Sys2Proof.Machine
end

