-- ==== Sys2Proof/Machine/Dispatch.lean ====
section
/-! DEFINITION. One arm per command, in the order of the table. -/

namespace Sys2Proof.Machine

def exec (i : Instr) (s : State) : Host.Outcome State Fault Refusal :=
  match i with
  | .powerOn => Sys2Proof.Machine.execPowerOn s
  | .startupPageArrival failed => Sys2Proof.Machine.execStartupPageArrival failed s
  | .odometerPulse micros => Sys2Proof.Machine.execOdometerPulse micros s
  | .speedWindow => Sys2Proof.Machine.execSpeedWindow s
  | .positionReport => Sys2Proof.Machine.execPositionReport s
  | .fixSoft tag known chainage stamp => Sys2Proof.Machine.execFixSoft tag known chainage stamp s
  | .fixHard tag chainage stamp => Sys2Proof.Machine.execFixHard tag chainage stamp s
  | .detourBegin tag => Sys2Proof.Machine.execDetourBegin tag s
  | .detourEnd tag => Sys2Proof.Machine.execDetourEnd tag s
  | .getPosition tag => Sys2Proof.Machine.execGetPosition tag s
  | .selectRoute tag route => Sys2Proof.Machine.execSelectRoute tag route s
  | .routePageArrival failed => Sys2Proof.Machine.execRoutePageArrival failed s
  | .getCues tag first last => Sys2Proof.Machine.execGetCues tag first last s
  | .forceCue tag cue => Sys2Proof.Machine.execForceCue tag cue s
  | .poll box => Sys2Proof.Machine.execPoll box s
  | .missedReply box => Sys2Proof.Machine.execMissedReply box s
  | .pollReply reply => Sys2Proof.Machine.execPollReply reply s
  | .setSeat tag seat fields => Sys2Proof.Machine.execSetSeat tag seat fields s
  | .seatApply tag fields => Sys2Proof.Machine.execSeatApply tag fields s
  | .getSeats tag first last => Sys2Proof.Machine.execGetSeats tag first last s
  | .listenersHoldEnd => Sys2Proof.Machine.execListenersHoldEnd s
  | .streamDelayEnd slot => Sys2Proof.Machine.execStreamDelayEnd slot s
  | .segmentTimeEnd slot => Sys2Proof.Machine.execSegmentTimeEnd slot s
  | .getStreams tag => Sys2Proof.Machine.execGetStreams tag s
  | .announce tag cls clipSet maxWait => Sys2Proof.Machine.execAnnounce tag cls clipSet maxWait s
  | .noticeMaxWait => Sys2Proof.Machine.execNoticeMaxWait s
  | .pttPress => Sys2Proof.Machine.execPttPress s
  | .pttRelease => Sys2Proof.Machine.execPttRelease s
  | .hangTimerExpiry => Sys2Proof.Machine.execHangTimerExpiry s
  | .cancelAnnounce tag ticket => Sys2Proof.Machine.execCancelAnnounce tag ticket s
  | .getAnnouncements tag => Sys2Proof.Machine.execGetAnnouncements tag s
  | .setPrecedence tag code => Sys2Proof.Machine.execSetPrecedence tag code s
  | .voicePageArrival voice failed => Sys2Proof.Machine.execVoicePageArrival voice failed s
  | .voicePageDue voice => Sys2Proof.Machine.execVoicePageDue voice s
  | .fadeEnd voice => Sys2Proof.Machine.execFadeEnd voice s
  | .writeBegin => Sys2Proof.Machine.execWriteBegin s
  | .clearStoreFaults tag => Sys2Proof.Machine.execClearStoreFaults tag s
  | .enterService tag => Sys2Proof.Machine.execEnterService tag s
  | .leaveService tag => Sys2Proof.Machine.execLeaveService tag s
  | .storeRead tag page => Sys2Proof.Machine.execStoreRead tag page s
  | .storeReadData failed => Sys2Proof.Machine.execStoreReadData failed s
  | .storeProgram tag page data => Sys2Proof.Machine.execStoreProgram tag page data s
  | .blankCheckData failed => Sys2Proof.Machine.execBlankCheckData failed s
  | .pageProgramComplete => Sys2Proof.Machine.execPageProgramComplete s
  | .storeErase tag sector => Sys2Proof.Machine.execStoreErase tag sector s
  | .sectorEraseComplete => Sys2Proof.Machine.execSectorEraseComplete s
  | .reloadDirectory tag => Sys2Proof.Machine.execReloadDirectory tag s
  | .directoryPageArrival failed => Sys2Proof.Machine.execDirectoryPageArrival failed s
  | .residentPageArrival failed => Sys2Proof.Machine.execResidentPageArrival failed s
  | .lockPersistent tag known sector => Sys2Proof.Machine.execLockPersistent tag known sector s
  | .lockProgramComplete => Sys2Proof.Machine.execLockProgramComplete s
  | .volatileOn tag sector => Sys2Proof.Machine.execVolatileOn tag sector s
  | .volatileOff tag sector => Sys2Proof.Machine.execVolatileOff tag sector s
  | .lockdown tag sector => Sys2Proof.Machine.execLockdown tag sector s
  | .unlockAll tag => Sys2Proof.Machine.execUnlockAll tag s
  | .lockEraseComplete => Sys2Proof.Machine.execLockEraseComplete s
  | .freezeLocks tag => Sys2Proof.Machine.execFreezeLocks tag s
  | .getStoreState tag first last => Sys2Proof.Machine.execGetStoreState tag first last s
  | .setZone tag zone gain commentary => Sys2Proof.Machine.execSetZone tag zone gain commentary s
  | .duckRampAdvance => Sys2Proof.Machine.execDuckRampAdvance s
  | .outputRampAdvance => Sys2Proof.Machine.execOutputRampAdvance s
  | .setLight tag channel level ramp => Sys2Proof.Machine.execSetLight tag channel level ramp s
  | .applyScene tag scene => Sys2Proof.Machine.execApplyScene tag scene s
  | .clearScene tag => Sys2Proof.Machine.execClearScene tag s
  | .setMaster tag level => Sys2Proof.Machine.execSetMaster tag level s
  | .getLights tag => Sys2Proof.Machine.execGetLights tag s
  | .lightRampAdvance channel => Sys2Proof.Machine.execLightRampAdvance channel s
  | .flashPhaseEnd channel => Sys2Proof.Machine.execFlashPhaseEnd channel s
  | .linkByte byte => Sys2Proof.Machine.execLinkByte byte s
  | .lineErrorByte => Sys2Proof.Machine.execLineErrorByte s
  | .frameTimeout => Sys2Proof.Machine.execFrameTimeout s
  | .badKind tag kind => Sys2Proof.Machine.execBadKind tag kind s
  | .frameSent => Sys2Proof.Machine.execFrameSent s
  | .getStatus tag clear => Sys2Proof.Machine.execGetStatus tag clear s
  | .restart tag => Sys2Proof.Machine.execRestart tag s
  | .getSetting tag id => Sys2Proof.Machine.execGetSetting tag id s
  | .setSetting tag id value => Sys2Proof.Machine.execSetSetting tag id value s
  | .saveSettings tag => Sys2Proof.Machine.execSaveSettings tag s
  | .settingsEraseComplete => Sys2Proof.Machine.execSettingsEraseComplete s
  | .settingsSaved => Sys2Proof.Machine.execSettingsSaved s
  | .standby tag => Sys2Proof.Machine.execStandby tag s
  | .ignitionRise => Sys2Proof.Machine.execIgnitionRise s
  | .ignitionFall => Sys2Proof.Machine.execIgnitionFall s
  | .ignitionOffTimer => Sys2Proof.Machine.execIgnitionOffTimer s
  | .entryPhaseEnd => Sys2Proof.Machine.execEntryPhaseEnd s

end Sys2Proof.Machine
end

