-- ==== Sys2Proof/Safety.lean ====
section
/-! DEFINITION. What counts as a safe run, and the words the statements use: a request that is taken, a reply or a report
that the link holds, what a command's event leaves alone, and the invariants that every step keeps. -/

namespace Sys2Proof.Machine

/-! ### Runs -/

/-- A step is safe when it neither faults nor refuses. -/
def State.safe (s : State) : Prop := ∃ t, step s = .next t

/-- A property that every step keeps, from every state that has it. -/
def Kept (P : State → Prop) : Prop := ∀ s t, P s → step s = .next t → P t

/-! ### Requests, replies and reports -/

/-- A request of this kind and tag is handed to its owner: the blocks run, no reply is owed, no other request is before it, and
the queued frame that stands for it, if one does, has a body of a length that suits the kind (R171). -/
def State.takes (s : State) (kind : Nat) (tag : Byte) : Prop :=
  s.turnOf (BitVec.ofNat 8 kind) tag = true ∧ ∀ q, s.link.nextRequest = some q → admits kind q.body = true

/-- The link holds a reply: it waits, or it is being transmitted. -/
def State.holdsReply (s : State) (r : Reply) : Prop := r ∈ s.link.replies ∨ s.link.sending = some (.reply r)

/-- The link holds a report: it waits, or it is being transmitted. -/
def State.holdsReport (s : State) (r : Report) : Prop := r ∈ s.link.reports ∨ s.link.sending = some (.report r)

/-- Between `s` and `t` the request of this kind and tag has formed its reply. -/
def State.answered (s t : State) (kind : Nat) (tag : Byte) (code : ResultCode) (data : ReplyData := .none) : Prop :=
  t.holdsReply { kind := replyKind (BitVec.ofNat 8 kind), tag := tag, code := code, data := data, order := s.link.formed }

/-- A request as it stands in the input queue, whether or not it has been taken. -/
def QueuedRequest.frame (q : QueuedRequest) : QueuedRequest := { q with taken := false }

/-- What a command that receives and clears nothing leaves of the link: the receiver, the requests in their order, every
counter but that of lost reports. -/
structure LinkFrame (l l' : Link) : Prop where
  receiver : l'.receiver = l.receiver
  lastByte : l'.lastByte = l.lastByte
  input : l'.input.map QueuedRequest.frame = l.input.map QueuedRequest.frame
  counters : { l'.counters with reportsLost := 0 } = { l.counters with reportsLost := 0 }

/-- From `s`, a request has led to `t`, which is `u` but for the link, and in the link all that `LinkFrame` names is kept. -/
def State.onlyRepliesBut (s u t : State) : Prop := t = { u with link := t.link } ∧ LinkFrame s.link t.link

/-- What a request that hands out nothing leaves alone: everything but the link, and in the link all that `LinkFrame` names. -/
def State.onlyReplies (s t : State) : Prop := s.onlyRepliesBut s t

/-! ### The end of an event -/

/-- Every read at the port. -/
def Port.reads (p : Port) : List PortRead := p.serving.toList ++ p.fetches ++ p.second

/-- The fields of a seat that only events of the seat table write (03 Table 3-2). -/
def Seat.stored (seat : Seat) : Bool × Fin 12 × Nat × Nat × Bool × Option (Fin 64) :=
  (seat.plugged, seat.chosen, seat.volume, seat.cap, seat.muted, seat.follow)

/-- The base and the scene layer of a light channel. -/
def Channel.layers (c : Channel) : Nat × Option Nat := (c.base, c.scene)

/-- A write without its phase. -/
def WriteRecord.target (w : WriteRecord) : WriteKind × Nat × Option Nat := (w.kind, w.sector, w.page)

/-- The state at the end of an event, `t`, against the state `s` that the command itself has made: the arbiter may have
granted voices, the announcement engine has handed its state, the port and the transmitter have chosen. All that this can
not touch is as in `s`; and when no voice request could be granted, the engines are as in `s` too. -/
structure EventFrame (s t : State) : Prop where
  pending : t.pending = s.pending
  clock : t.clock = s.clock
  pulseTimer : t.pulseTimer = s.pulseTimer
  windowDue : t.windowDue = s.windowDue
  pollDue : t.pollDue = s.pollDue
  freeSerial : t.freeSerial = s.freeSerial
  tracker : t.tracker = s.tracker
  cues : t.cues = s.cues
  power : t.power = s.power
  settings : t.settings = s.settings
  inForce : t.inForce = s.inForce
  /-- The seat table but for the derived fields that a WARNING changes. -/
  seatTable : { t.seats with seats := s.seats.seats, warningActive := s.seats.warningActive } = s.seats
  stored : t.seats.seats.map Seat.stored = s.seats.seats.map Seat.stored
  /-- The store and its controller but for the phase of the write in flight. -/
  store : { t.store with write := s.store.write } = s.store
  write : t.store.write.map WriteRecord.target = s.store.write.map WriteRecord.target
  /-- Every read that waited or was served still waits or is served. -/
  reads : ∀ r ∈ s.port.reads, r ∈ t.port.reads
  /-- The announcement engine's counters, code and press-to-talk state. -/
  tickets : t.ann.ticketCounter = s.ann.ticketCounter
  admissions : t.ann.admissionCounter = s.ann.admissionCounter
  code : t.ann.code = s.ann.code
  pressed : t.ann.pressed = s.ann.pressed
  /-- Page faults and resident buffers. -/
  integrity : t.voices.integrity = s.voices.integrity
  firstFault : t.voices.firstFault = s.voices.firstFault
  residents : t.voices.residents = s.voices.residents
  /-- The zones, the quiet-zone flag, the need and the output fade. -/
  zones : (t.mixer.upper, t.mixer.lower, t.mixer.quiet, t.mixer.need) = (s.mixer.upper, s.mixer.lower, s.mixer.quiet, s.mixer.need)
  output : (t.mixer.output, t.mixer.outputRamp) = (s.mixer.output, s.mixer.outputRamp)
  /-- The lights but for their announce layers, ramps and outputs. -/
  master : t.lights.master = s.lights.master
  blank : t.lights.blank = s.lights.blank
  layers : t.lights.channels.map Channel.layers = s.lights.channels.map Channel.layers
  link : LinkFrame s.link t.link
  replies : ∀ r, s.holdsReply r → t.holdsReply r
  reports : ∀ r, r.isPosition = false → s.holdsReport r → t.holdsReport r
  /-- With no request waiting or no voice free, nothing is granted. -/
  ungranted : s.voices.requests = [] ∨ s.freeVoice = none →
    t.comm = s.comm ∧ t.ann = s.ann ∧ t.voices = s.voices ∧
    t.mixer = { s.mixer with microphone := s.ann.microphone } ∧
    t.lights = s.lights.handClass s.ann.announceClass s.settings.warningGroup s.settings.stopGroup s.clock

/-! ### Invariants -/

/-- The settings lie in the ranges of Table 11-2. -/
structure Settings.Valid (g : Settings) : Prop where
  pulseLength : 1000 ≤ g.pulseLength ∧ g.pulseLength ≤ 999999
  pulseSpacing : 100 ≤ g.pulseSpacing ∧ g.pulseSpacing ≤ 20000
  slewLimit : g.slewLimit ≤ 100000
  rearmDistance : 10000 ≤ g.rearmDistance ∧ g.rearmDistance ≤ 1000000
  maxLead : g.maxLead ≤ 500000
  crawlSpeed : g.crawlSpeed ≤ 2000
  resumeLimit : g.resumeLimit ≤ 2000000
  resumeRewind : g.resumeRewind ≤ 15
  defaultVolume : g.defaultVolume ≤ 15
  warningFloor : g.warningFloor ≤ 15
  chimes : g.stopChime ≤ 4095 ∧ g.noticeChime ≤ 4095 ∧ g.warningChime ≤ 4095
  liveHang : g.liveHang ≤ 2000
  positionPeriod : g.positionPeriod = 0 ∨ (100 ≤ g.positionPeriod ∧ g.positionPeriod ≤ 10000)
  standbyDelay : g.standbyDelay ≤ 3600
  masterLevel : g.masterLevel ≤ 4095
  residentList : ∀ i, g.residentList.get i ≤ 4095

/-- The tracker's quantities lie in their ranges (01 Table 1-1), an UNPLACED tracker stands at 0 (R16), no correction is
pending in DETOUR (R14) or beyond the slew limit (R17), only a READY route places the tracker (R9, R16), and only a LOADING
route has a load in progress (R25, R27). -/
structure TrackerInv (s : State) : Prop where
  chainage : s.tracker.chainage ≤ 999999999
  residue : s.tracker.residue < 1000
  travelResidue : s.tracker.travelResidue < 1000
  windowCount : s.tracker.windowCount ≤ 65535
  speed : s.tracker.speed ≤ 65535
  detour : s.tracker.detour ≤ 999999999
  detourResidue : s.tracker.detourResidue < 1000
  noise : s.tracker.noise ≤ 65535
  correction : s.tracker.correction.natAbs ≤ s.settings.slewLimit * 1000
  unplaced : s.tracker.state = .unplaced → s.tracker.chainage = 0 ∧ s.tracker.residue = 0 ∧ s.tracker.correction = 0
  inDetour : s.tracker.state = .detour → s.tracker.correction = 0
  route : s.cues.routeState ≠ .ready → s.tracker.state = .unplaced
  load : s.cues.load ≠ none → s.cues.routeState = .loading

/-- Only a LOADING route has a load in progress (R25, R27), and only a READY route places the tracker; and with the tracker
PLACED, the route READY and the mode RUN, no ARMED cue has a trigger at or below the chainage (R30). -/
structure CueInv (s : State) : Prop where
  load : s.cues.load ≠ none → s.cues.routeState = .loading
  route : s.cues.routeState ≠ .ready → s.tracker.state = .unplaced
  due : s.cues.routeState = .ready → s.tracker.state = .placed → s.store.mode = .run →
    ∀ c ∈ s.cues.cues, c.state = .armed → s.tracker.chainage < s.trigger c

/-- Volumes lie within their caps (R50), and follow links are one deep with the leader's slot (R49, R51, R54). -/
structure SeatInv (s : State) : Prop where
  settings : s.settings.Valid
  volume : ∀ i, (s.seats.seats.get i).volume ≤ (s.seats.seats.get i).cap
  cap : ∀ i, (s.seats.seats.get i).cap ≤ 15
  link : ∀ i l, (s.seats.seats.get i).follow = some l →
    l ≠ i ∧ (s.seats.seats.get l).follow = none ∧ (s.seats.seats.get i).chosen = (s.seats.seats.get l).chosen
  missed : ∀ b, (s.seats.boxes.get b).missed < 3

/-- What the blocks derive from one another's state is current: enabled slots (R45), served slots (R46), effective volumes
(R56), listener counts (R47), the commentary need (R145), every stream's demand (R63), WARNING active, the microphone and the
announce class (R100). Only a LOADING route has a load in progress (R25, R27), or a failing load would change the enabled
slots. -/
structure DerivedInv (s : State) : Prop where
  load : s.cues.load ≠ none → s.cues.routeState = .loading
  enabled : s.seats.enabled = s.enabledNow
  derived : s.seats.derive s.settings = s.seats
  counts : s.seats.counts = s.seats.countsNow
  need : s.mixer.need = s.mixer.needNow
  demand : ∀ i, (s.stream i).demand = s.demandNow i
  warning : s.seats.warningActive = s.ann.warningActive
  microphone : s.mixer.microphone = s.ann.microphone
  cls : s.lights.cls = s.ann.announceClass

/-- The announcement engine's bounds (R85, R87, R88), and what it does to commentary (R61, R90, R91): commentary is
SUSPENDED exactly while an entry heard alone is active, and then no stream holds a segment; nor does a stream that is OFF
(R62), and a next segment waits behind a current one alone (R65, R71). -/
structure AnnInv (s : State) : Prop where
  queue : s.ann.queue.length ≤ 8
  stack : s.ann.stack.length ≤ 4
  empty : s.ann.active = none → s.ann.queue = [] ∧ s.ann.stack = []
  suspended : s.comm.state = .suspended ↔ ∃ e, s.ann.active = some e ∧ e.cls ≠ .notice
  silent : s.comm.state = .suspended → ∀ i, (s.stream i).current = none
  off : ∀ i, (s.stream i).state = .off → (s.stream i).current = none
  behind : ∀ i, (s.stream i).current = none → (s.stream i).next = none

/-- A page of the store. -/
def pageOk (page : Nat) : Prop := page ≤ 1048575

/-- The write in flight, as the commands that accept one form it; a program of STORE_PROGRAM or an erase of STORE_ERASE
never has a reserved or locked sector for its target (R128). -/
def WriteRecord.sound (st : Store) (w : WriteRecord) : Prop :=
  match w.kind with
  | .pageProgram data _ =>
    data.length = 512 ∧ (∃ p, w.page = some p ∧ pageOk p ∧ w.sector = sectorOf p) ∧
      reserved w.sector = false ∧ st.isLocked w.sector = false
  | .sectorErase => w.sector ≤ 2047 ∧ reserved w.sector = false ∧ st.isLocked w.sector = false
  | .lockProgram target _ => w.sector = 2047 ∧ target ≤ 2047 ∧ st.freeze = false
  | .lockErase => w.sector = 2047 ∧ st.freeze = false
  | .settingsSave record _ => w.sector = 0 ∧ record.length = 512

/-- The store's bytes are in canonical form, no write is in flight in STANDBY or a start-up (R138), the write in flight is
sound, and every blank check is of a page of the store with a page of data. -/
structure StoreInv (s : State) : Prop where
  cells : s.store.cells.wf = true
  asleep : s.running = false → s.store.write = none
  write : ∀ w, s.store.write = some w → w.sound s.store
  checks : ∀ r ∈ s.port.reads, ∀ tag data, r.use = .blankCheck tag data → data.length = 512 ∧ pageOk r.page

/-- Page faults are counted to 15, and one is recorded exactly when the count is above 0 (R113). -/
structure FaultInv (s : State) : Prop where
  integrity : s.voices.integrity ≤ 15
  firstFault : s.voices.firstFault.isSome = true ↔ 0 < s.voices.integrity

/-- The link's queues keep their sizes (10 Table 10-1). -/
structure LinkInv (s : State) : Prop where
  input : s.link.input.length ≤ 4
  busy : s.link.busy.length ≤ 4
  reports : s.link.reports.length ≤ 16

/-- A ramp between levels of a light channel. -/
def Ramp.levels (r : Ramp) : Prop := r.start ≤ 4095 ∧ r.target ≤ 4095 ∧ r.position < r.length

/-- Levels lie within 0..4095, the effective duty is what R156 says, and so a channel whose announce layer is inactive is not
above the master level (R156). -/
structure LightInv (s : State) : Prop where
  settings : s.settings.Valid
  master : s.lights.master ≤ 4095
  scenes : ∀ sc ∈ s.cues.scenes, ∀ e ∈ sc, e.level ≤ 4095
  base : ∀ i, (s.lights.channels.get i).base ≤ 4095
  scene : ∀ i n, (s.lights.channels.get i).scene = some n → n ≤ 4095
  output : ∀ i, (s.lights.channels.get i).output ≤ 4095
  ramp : ∀ i r, (s.lights.channels.get i).ramp = some r → r.levels
  duty : ∀ i, (s.lights.channels.get i).duty = (s.lights.channels.get i).dutyNow s.lights.master s.lights.blank

end Sys2Proof.Machine
end

