-- ==== Sys2Proof/Certificates/Slice0/Obligations.lean ====
section
/-! DEFINITION. The statements for the provers. Each docstring says what the statement formalises. -/

section Statements
open Sys2Proof Sys2Proof.Machine

/-- A step runs the command at the front of the queue -/
def Obligations.StepRunsFrontCommand : Prop :=
  ∀ (c : Instr) (rest : List Instr) (s : State),
    step { s with pending := c :: rest } = exec c { s with pending := rest }

/-- An empty queue hands over the due events in some order, or lets one millisecond pass. The model's choice: logs 2 and
3. -/
def Obligations.EmptyQueueStep : Prop :=
  ∀ s : State, s.pending = [] →
    (s.running = false → step s = .next s) ∧
    (s.running = true → s.dueEvents ≠ [] →
      ∃ l, l.Perm s.dueEvents ∧ step s = .next { s with pending := l, freeSerial := s.freeSerial + 1 }) ∧
    (s.running = true → s.dueEvents = [] →
      ∃ t, step s = .next t ∧
        t = { s with
          clock := s.clock + 1, pulseTimer := s.pulseTimer + 1000, pollDue := true
          windowDue := decide ((s.clock + 1).toNat % 250 = 0), voices := t.voices } ∧
        t.voices = { s.voices with voices := t.voices.voices } ∧
        ∀ v, (t.voice v).state = (s.voice v).state ∧
          ((s.voice v).state = .stopping → (t.voice v).fade = min ((s.voice v).fade + 1) 20))

/-- No command faults or refuses in any state -/
def Obligations.EveryCommandAnswersNext : Prop :=
  ∀ (c : Instr) (s : State), ∃ t, exec c s = .next t

/-- Reset leaves every block at its values after a POWER_ON start-up. That the store is erased is the model's choice:
log 1. -/
def Obligations.ResetValues : Prop :=
  State.reset.tracker = { reportTimer := some 1000 } ∧
  State.reset.cues = {} ∧
  (∀ i, (State.reset.seats.seats.get i).stored = (false, 0, 8, 15, false, none) ∧
    (State.reset.seats.seats.get i).served = some 0 ∧ (State.reset.seats.seats.get i).effective = 8) ∧
  (∀ b, State.reset.seats.boxes.get b = { present := false, missed := 0, lastSequence := none }) ∧
  State.reset.comm.state = .idle ∧ State.reset.comm.cueList = [] ∧ State.reset.comm.suspend = none ∧
  State.reset.ann = { code := 0, ticketCounter := 0, admissionCounter := 0 } ∧
  (∀ v, (State.reset.voice v).state = .free ∧ (State.reset.voice v).owner = none) ∧
  State.reset.voices.integrity = 0 ∧ State.reset.voices.firstFault = none ∧
  State.reset.store.mode = .run ∧ State.reset.store.write = none ∧ State.reset.store.freeze = false ∧
  State.reset.store.locked = [] ∧ State.reset.store.volatileLocks = [] ∧ State.reset.store.lockdowns = [] ∧
  State.reset.mixer.upper = { gain := 12, commentary := true } ∧
  State.reset.mixer.lower = { gain := 12, commentary := true } ∧
  State.reset.mixer.duck = 32767 ∧ State.reset.mixer.output = 32767 ∧ State.reset.mixer.quiet = false ∧
  (∀ c, State.reset.lights.channels.get c = {}) ∧ State.reset.lights.master = 4095 ∧ State.reset.lights.blank = false ∧
  State.reset.lights.warningGroup = State.reset.settings.warningGroup ∧
  State.reset.lights.stopGroup = State.reset.settings.stopGroup ∧
  State.reset.link = { sending := some (.report (.started .powerOn true {} 0 0 0)) } ∧
  State.reset.power.state = .awake ∧ State.reset.power.latches = {} ∧ State.reset.clock = 0 ∧ State.reset.pulseTimer = 0

/-- The reset state meets every invariant that is stated to be kept -/
def Obligations.ResetMeetsInvariants : Prop :=
  State.reset.settings.Valid ∧ TrackerInv State.reset ∧ CueInv State.reset ∧ SeatInv State.reset ∧ DerivedInv State.reset ∧
    AnnInv State.reset ∧ StoreInv State.reset ∧ FaultInv State.reset ∧ LinkInv State.reset ∧ LightInv State.reset

/-- POWER_ON over an erased store, and its 268 pages, lead to the reset state. That the reset state is this start-up
over an erased store is the model's choice (log 1). -/
def Obligations.PowerOnOverErasedStoreGivesReset : Prop :=
  ∀ (s : State) (rest : List Instr), s.store.cells = [] → s.store.interrupted = [] → s.store.write = none →
    s.power.ignition = true → s.power.pttLine = false →
    Sys2Proof.core.run 269
        { s with pending := .powerOn :: (List.replicate 268 (Instr.startupPageArrival false) ++ rest) } =
      .next { State.reset with pending := rest, freeSerial := s.freeSerial + 1 }

/-- POWER_ON begins a start-up over what the store holds. That the settings page is read in the same command, and fails
to read by a free value, is the model's choice (log 8). -/
def Obligations.PowerOnBeginsStartUp : Prop :=
  ∀ s : State, ∃ t, exec .powerOn s = .next t ∧
    t.power.state = .starting ∧ t.power.kind = .powerOn ∧ t.power.latches = {} ∧
    t.power.ignition = s.power.ignition ∧ t.power.pttLine = s.power.pttLine ∧
    t.store.cells = s.store.cells ∧ t.store.write = none ∧
    (∀ x, x ∈ t.store.interrupted ↔
      x ∈ s.store.interrupted ∨ ∃ w, s.store.write = some w ∧ w.begun = true ∧ x = w.sector) ∧
    (0 ∉ t.store.interrupted →
      ∀ g, Settings.ofRecord (s.store.cells.readRun 0 512) = some g →
        t.settings = (if Config.settingsReadFails s.freeSerial then {} else g) ∧
        t.power.defaulted = Config.settingsReadFails s.freeSerial) ∧
    (0 ∈ t.store.interrupted ∨ Settings.ofRecord (s.store.cells.readRun 0 512) = none →
      t.settings = {} ∧ t.power.defaulted = true) ∧
    t.inForce = t.settings.inForce ∧ t.freeSerial = s.freeSerial + 1 ∧
    t.port = { serving := some { page := 512, use := .routeDirectory 0 } } ∧
    t.tracker = {} ∧ t.cues = {} ∧ t.ann = { code := t.settings.precedenceCode } ∧ t.voices = {} ∧ t.link = {} ∧
    t.pending = s.pending

/-- A start-up reads the route directory, the clip directory, the resident buffers and the lock map, and then completes -/
def Obligations.StartUpLoadsInOrder : Prop :=
  ∀ (failed : Bool) (s : State), s.power.state = .starting →
    (∀ i < 8, s.port.serving = some { page := 512 + i, use := .routeDirectory i } →
      ∃ t, exec (.startupPageArrival failed) s = .next t ∧ t.power.state = .starting ∧ t.store.cells = s.store.cells ∧
        t.cues.directory =
          s.cues.directory ++ routesOfPage s.inForce.partition.val (s.readPage (512 + i) failed).1 i ∧
        t.port.serving =
          some (if i < 7 then { page := 512 + (i + 1), use := .routeDirectory (i + 1) }
            else { page := (16 * s.inForce.partition.val + 17) * 512, use := .clipDirectory 0 })) ∧
    (∀ i < 255, s.port.serving = some { page := clipDirectoryPage s.inForce.partition i, use := .clipDirectory i } →
      ∃ t, exec (.startupPageArrival failed) s = .next t ∧ t.power.state = .starting ∧ t.store.cells = s.store.cells ∧
        t.store.clips =
          s.store.clips ++
            (clipsOfPage s.inForce.partition.val (s.readPage (clipDirectoryPage s.inForce.partition i) failed).1 i).1 ∧
        t.port.serving =
          some { page := clipDirectoryPage s.inForce.partition (i + 1), use := .clipDirectory (i + 1) }) ∧
    (s.port.serving = some { page := clipDirectoryPage s.inForce.partition 255, use := .clipDirectory 255 } →
      ∃ t, exec (.startupPageArrival failed) s = .next t ∧ t.power.state = .starting ∧ t.store.cells = s.store.cells ∧
        (t.voices.residents = [] → t.port.serving = some { page := 1048064, use := .lockMap 0 }) ∧
        (∀ r rs, t.voices.residents = r :: rs → 0 < r.need →
          t.port.serving = some { page := r.first, use := .resident 0 0 })) ∧
    (∀ page b i r, s.port.serving = some { page := page, use := .resident b i } → s.voices.residents[b]? = some r →
      ∃ t, exec (.startupPageArrival failed) s = .next t ∧ t.power.state = .starting ∧ t.store.cells = s.store.cells ∧
        (i + 1 < r.need → t.port.serving = some { page := r.first + (i + 1), use := .resident b (i + 1) }) ∧
        (∀ r', r.need ≤ i + 1 → s.voices.residents[b + 1]? = some r' →
          t.port.serving = some { page := r'.first, use := .resident (b + 1) 0 }) ∧
        (r.need ≤ i + 1 → s.voices.residents[b + 1]? = none →
          t.port.serving = some { page := 1048064, use := .lockMap 0 })) ∧
    (∀ i < 3, s.port.serving = some { page := 1048064 + i, use := .lockMap i } →
      ∃ t, exec (.startupPageArrival failed) s = .next t ∧ t.power.state = .starting ∧ t.store.cells = s.store.cells ∧
        t.port.serving = some { page := 1048064 + (i + 1), use := .lockMap (i + 1) }) ∧
    (s.port.serving = some { page := 1048067, use := .lockMap 3 } → s.link = {} →
      ∃ t, exec (.startupPageArrival failed) s = .next t ∧ t.power.state = .awake ∧ t.store.cells = s.store.cells ∧
        t.clock = 0 ∧ t.pulseTimer = 0 ∧ t.power.latches = {} ∧ t.ann.pressed = s.power.pttLine ∧
        t.link.sending =
          some (.report (.started s.power.kind s.power.defaulted s.power.latches s.store.clips.length
            s.cues.directory.length 0)) ∧
        (s.power.ignition = true → t.power.offTimer = s.power.offTimer) ∧
        (s.power.ignition = false →
          t.power.offTimer =
            if s.settings.standbyDelay = 0 then none else some (BitVec.ofNat 32 (s.settings.standbyDelay * 1000))) ∧
        (s.power.faults.length < 15 →
          t.link.reports =
            (s.power.faults ++
              (if (s.readPage 1048067 failed).1 = none then
                [({ page := 1048067, clip := 0, index := 3, kind := .unreadable, clock := s.clock } : FaultRecord)]
              else [])).map Report.storeFault)) ∧
    (∀ i : Fin 4, s.port.serving = some { page := 1048064 + i.val, use := .lockMap i.val } →
      ∃ t, exec (.startupPageArrival failed) s = .next t ∧
        (∀ bytes, (s.readPage (1048064 + i.val) failed).1 = some bytes →
          t.store.lockFaults = s.store.lockFaults ∧
          ∀ x, x ∈ t.store.locked ↔
            x ∈ s.store.locked ∨ ∃ k < 512, x = 512 * i.val + k ∧ bytes.getD k 0xFF ≠ 0xFF) ∧
        ((s.readPage (1048064 + i.val) failed).1 = none →
          t.store.lockFaults = s.store.lockFaults.set i true ∧
          ∀ x, x ∈ t.store.locked ↔ x ∈ s.store.locked ∨ (512 * i.val ≤ x ∧ x < 512 * i.val + 512)))

/-- STANDBY and the ignition-off timer begin an entry phase or are turned away; its end is STANDBY, once no write is in
flight. That the phase ends in STANDBY also with a RESTART taken whose reply is not yet out is the model's choice (log
38). -/
def Obligations.Standby : Prop :=
  ((∀ (tag : Byte) (s : State), s.takes 0x03 tag →
    ∃ t, exec (.standby tag) s = .next t ∧
      (s.power.state = .entering → s.onlyReplies t ∧ s.answered t 0x03 tag .wrongState) ∧
      (s.power.state ≠ .entering → s.power.ignition = true ∨ s.ann.pressed = true →
        s.onlyReplies t ∧ s.answered t 0x03 tag .wakePending) ∧
      (s.power.state ≠ .entering → s.power.ignition = false → s.ann.pressed = false →
        s.ann.active ≠ none ∨ s.store.write ≠ none → s.onlyReplies t ∧ s.answered t 0x03 tag .busy) ∧
      (s.power.state ≠ .entering → s.power.ignition = false → s.ann.pressed = false → s.ann.active = none →
        s.store.write = none →
        s.answered t 0x03 tag .ok ∧ LinkFrame s.link t.link ∧
        t = { s with
          power := { s.power with
            state := .entering, cause := .request, phaseEnd := some (s.clock + 500), phaseOver := false, offTimer := none }
          mixer := { s.mixer with
            outputRamp := some { start := s.mixer.output, target := 0, length := 500, position := 0, startTime := s.clock } }
          lights := s.lights.setBlank true
          link := t.link })) ∧
  (∀ (s : State) (d : Clock), s.running = true → s.power.offTimer = some d → reached s.clock d = true →
    ∃ t, exec .ignitionOffTimer s = .next t ∧
      (s.power.state = .entering → EventFrame { s with power := { s.power with offTimer := none } } t) ∧
      (s.power.state = .awake → s.ann.pressed = true ∨ s.ann.active ≠ none ∨ s.store.write ≠ none →
        EventFrame
          { s with
            power := { s.power with
              offTimer := if s.settings.standbyDelay = 0 then none
                else some (s.clock + BitVec.ofNat 32 (s.settings.standbyDelay * 1000)) } } t) ∧
      (s.power.state = .awake → s.ann.pressed = false → s.ann.active = none → s.store.write = none →
        EventFrame
          { s with
            power := { s.power with
              state := .entering, cause := .timer, phaseEnd := some (s.clock + 500), phaseOver := false, offTimer := none }
            mixer := s.mixer.fadeOut s.clock
            lights := s.lights.setBlank true } t))) ∧
  ((∀ (s : State) (d : Clock), s.power.state = .entering → s.power.phaseOver = false → s.power.phaseEnd = some d →
    reached s.clock d = true →
    ∃ t, exec .entryPhaseEnd s = .next t ∧
      (s.store.write = none →
        t.power.state = .standby ∧ t.power.latches = {} ∧ t.settings = s.settings ∧ t.store.cells = s.store.cells ∧
        t.tracker = {} ∧ t.cues = {} ∧ t.voices = {} ∧ t.link = {} ∧ t.pending = s.pending) ∧
      (s.store.write ≠ none → t = { s with power := { s.power with phaseOver := true } })) ∧
  (∀ (s : State) (w : WriteRecord) (record : List Byte), s.power.state = .entering → s.power.phaseOver = true →
    s.store.write = some w → w.phase = .running →
    (w.kind = .settingsSave record true → ∃ t, exec .settingsSaved s = .next t ∧ t.power.state = .standby) ∧
    (w.kind = .sectorErase → ∃ t, exec .sectorEraseComplete s = .next t ∧ t.power.state = .standby) ∧
    (∀ data tag page, w.kind = .pageProgram data tag → w.page = some page →
      ∃ t, exec .pageProgramComplete s = .next t ∧ t.power.state = .standby) ∧
    (∀ target tag, w.kind = .lockProgram target tag →
      ∃ t, exec .lockProgramComplete s = .next t ∧ t.power.state = .standby) ∧
    (w.kind = .lockErase → ∃ t, exec .lockEraseComplete s = .next t ∧ t.power.state = .standby)))

/-- A rise of the ignition line, a press and a start byte abort an entry phase, wake the part, and are latched while it
wakes. That a line keeps its level is held as the model has it (log 30). -/
def Obligations.WakeInputs : Prop :=
  (∀ s : State, s.power.ignition = false →
    ∃ t, exec .ignitionRise s = .next t ∧ t.power.ignition = true ∧
      (s.running = true → t.power.offTimer = none) ∧
      (s.power.state = .awake → EventFrame { s with power := { s.power with ignition := true, offTimer := none } } t) ∧
      (s.power.state = .entering →
        t.power.state = .awake ∧ t.mixer.output = 32767 ∧ t.mixer.outputRamp = none ∧ t.lights.blank = false ∧
        (s.link.reports.length < 16 → t.holdsReport (.standbyAborted .ignition s.power.cause s.clock))) ∧
      (s.power.state = .standby →
        t.power.state = .starting ∧ t.power.kind = .wake ∧ t.power.latches = { s.power.latches with ignition := true }) ∧
      (s.power.state = .starting → s.power.kind = .wake →
        t.power.latches = { s.power.latches with ignition := true } ∧ t.power.state = .starting)) ∧
  (∀ s : State, s.power.ignition = true →
    ∃ t, exec .ignitionFall s = .next t ∧
      (s.running = true →
        t = { s with
          power := { s.power with
            ignition := false
            offTimer := if s.settings.standbyDelay = 0 then none
              else some (s.clock + BitVec.ofNat 32 (s.settings.standbyDelay * 1000)) } }) ∧
      (s.running = false → t = { s with power := { s.power with ignition := false } })) ∧
  (∀ s : State, s.power.pttLine = false →
    ∃ t, exec .pttPress s = .next t ∧ t.power.pttLine = true ∧
      (s.power.state = .entering →
        t.power.state = .awake ∧ t.mixer.output = 32767 ∧ t.lights.blank = false ∧ t.ann.pressed = true ∧
        (s.power.ignition = false → t.power.offTimer = (if s.settings.standbyDelay = 0 then none
          else some (s.clock + BitVec.ofNat 32 (s.settings.standbyDelay * 1000)))) ∧
        (s.link.reports.length < 16 → t.holdsReport (.standbyAborted .ptt s.power.cause s.clock))) ∧
      (s.power.state = .standby →
        t.power.state = .starting ∧ t.power.kind = .wake ∧ t.power.latches = { s.power.latches with ptt := true }) ∧
      (s.power.state = .starting → s.power.kind = .wake →
        t.power.latches = { s.power.latches with ptt := true } ∧ t.power.state = .starting)) ∧
  (∀ s : State,
    (s.power.state = .standby →
      ∃ t, exec (.linkByte 0xA5) s = .next t ∧
        t.power.state = .starting ∧ t.power.kind = .wake ∧ t.power.latches = { s.power.latches with link := true }) ∧
    (s.power.state = .starting → s.power.kind = .wake →
      ∃ t, exec (.linkByte 0xA5) s = .next t ∧
        t.power.latches = { s.power.latches with link := true } ∧ t.power.state = .starting) ∧
    (s.power.state = .entering → s.link.receiver = .hunt →
      ∃ t, exec (.linkByte 0xA5) s = .next t ∧
        t.power.state = .awake ∧ t.mixer.output = 32767 ∧ t.lights.blank = false ∧ t.link.receiver = .length [] ∧
        (s.power.ignition = false → t.power.offTimer = (if s.settings.standbyDelay = 0 then none
          else some (s.clock + BitVec.ofNat 32 (s.settings.standbyDelay * 1000)))) ∧
        (s.link.reports.length < 16 → t.holdsReport (.standbyAborted .link s.power.cause s.clock))))

/-- SET_SETTING writes the active value alone, and its owner acts at once. A write acts also when the value is the one
held (log 28). That the zone flags are set before the streams' demand changes is the model's choice (log 34). -/
def Obligations.SetSettingTaken : Prop :=
  ∀ (tag : Byte) (id : Nat) (value : List Byte) (s : State), s.takes 0x05 tag →
    ∃ t, exec (.setSetting tag id value) s = .next t ∧ t.inForce = s.inForce ∧ t.store.cells = s.store.cells ∧
      LinkFrame s.link t.link ∧
      (settingWidth id = none → EventFrame s t ∧ s.answered t 0x05 tag .notFound) ∧
      (settingWidth id = some value.length → s.settings.write id value = none →
        EventFrame s t ∧ s.answered t 0x05 tag .range) ∧
      (∀ g, settingWidth id = some value.length → s.settings.write id value = some g →
        t.settings = g ∧ s.answered t 0x05 tag .ok ∧ t.clock = s.clock ∧ t.pending = s.pending ∧
        (id = 3 → t.tracker = { s.tracker with
          correction := max (-((beNat value * 1000 : Nat) : Int)) (min s.tracker.correction ((beNat value * 1000 : Nat) : Int)) }) ∧
        (id ≠ 3 → id ≠ 18 → t.tracker = s.tracker) ∧
        (id = 15 → t.ann.code = g.precedenceCode) ∧
        (id = 18 → t.tracker = { s.tracker with
          reportTimer := if g.positionPeriod = 0 then none else some (s.clock + BitVec.ofNat 32 g.positionPeriod) }) ∧
        (id = 19 → t.power = { s.power with
          offTimer := if s.power.ignition = true then s.power.offTimer
            else if g.standbyDelay = 0 then none else some (s.clock + BitVec.ofNat 32 (g.standbyDelay * 1000)) }) ∧
        (id ≠ 19 → t.power = s.power) ∧
        (id = 20 → t.mixer.upper.gain = g.upperGain ∧ t.mixer.lower.gain = g.lowerGain) ∧
        (id = 21 → t.mixer.upper.commentary = g.upperCommentary ∧ t.mixer.lower.commentary = g.lowerCommentary) ∧
        (id = 24 → t.lights.master = g.masterLevel) ∧
        (id = 14 → EventFrame
          { s with
            settings := g
            mixer := { s.mixer with
              duckRamp := if s.mixer.sounding = true then
                some { start := s.mixer.duck, target := gainFactor g.duckDepth.val, length := 100, startTime := s.clock }
                else s.mixer.duckRamp } } t) ∧
        (id = 5 ∨ id = 6 → s.store.mode = .run → EventFrame ({ s with settings := g }.advance) t) ∧
        (id = 6 → s.store.mode = .service →
          (s.tracker.speed < g.crawlSpeed → EventFrame { s with settings := g } t) ∧
          (g.crawlSpeed ≤ s.tracker.speed →
            (s.store.reload = none → t.store.mode = .run ∧ t.store.motionPending = false) ∧
            (s.store.reload ≠ none → t.store.mode = .service ∧ t.store.motionPending = true))) ∧
        (id = 11 → s.freeVoice = none →
          (∀ v d, s.mixer.destinations.get v = some d →
            t.mixer.destinations.get v =
              if d.kind = .commentary ∧ ((s.voice v).state = .priming ∨ (s.voice v).state = .playing) then
                some { d with zone := decide (g.speakerSlot ∈ d.slots) }
              else some d) ∧
          ∀ i, (t.stream i).demand =
              (s.seats.enabled.get i && (decide (0 < s.seats.counts.get i) || (decide (i = g.speakerSlot) && t.mixer.need))) ∧
            ∀ v, (s.stream i).demand = true → (t.stream i).demand = false → (s.stream i).state = .playing →
              (s.stream i).voice = some v →
              (t.stream i).state = .quiet ∧ (t.stream i).current = (s.stream i).current ∧ t.voice v = (s.voice v).released) ∧
        (id ∈ [1, 2, 4, 7, 8, 12, 16, 17, 22, 23, 25, 26, 27, 28, 29] → EventFrame { s with settings := g } t))

/-- SAVE_SETTINGS erases sector 0 and programs its first page with the snapshot, a record that reads back as the
settings -/
def Obligations.SettingsSave : Prop :=
  (∀ g : Settings, g.Valid → g.record.length = 512 ∧ Settings.ofRecord g.record = some g) ∧
  ((∀ (tag : Byte) (s : State), s.takes 0x06 tag →
    ∃ t, exec (.saveSettings tag) s = .next t ∧
      (s.store.write ≠ none → EventFrame s t ∧ s.answered t 0x06 tag .storeBusy) ∧
      (s.store.write = none →
        s.answered t 0x06 tag .accepted ∧
        EventFrame
          { s with
            store := { s.store with
              write := some { kind := .settingsSave s.settings.record false, sector := 0, page := none, phase := .waiting } } }
          t)) ∧
  (∀ (s : State) (w : WriteRecord) (record : List Byte), s.running = true → s.store.write = some w → w.phase = .running →
    w.kind = .settingsSave record false →
    ∃ t, exec .settingsEraseComplete s = .next t ∧ t.settings = s.settings ∧ t.tracker = s.tracker ∧
      (∀ a, t.store.cells.read a = if a / 262144 = 0 then 0xFF else s.store.cells.read a) ∧
      (∀ x, x ∈ t.store.interrupted ↔ x ∈ s.store.interrupted ∧ x ≠ 0) ∧
      t.store.write.map WriteRecord.target = some (.settingsSave record true, 0, some 0)) ∧
  (∀ (s : State) (w : WriteRecord) (record : List Byte), s.running = true → StoreInv s → s.store.write = some w →
    w.phase = .running → w.kind = .settingsSave record true →
    ∃ t, exec .settingsSaved s = .next t ∧ t.store.write = none ∧ t.settings = s.settings ∧
      (∀ a, t.store.cells.read a =
        if a < 512 then s.store.cells.read a &&& record.getD a 0 else s.store.cells.read a) ∧
      (s.power.phaseOver = false → s.link.reports.length < 16 → t.holdsReport (.settingsSaved s.clock))))

/-- A pulse is accepted unless it follows the last accepted one by less than the pulse spacing. That a pulse outside
AWAKE and ENTERING changes nothing is deduced (log 18). -/
def Obligations.PulseAcceptance : Prop :=
  ∀ (micros : Nat) (s : State), micros < 1000 →
    (s.running = false → exec (.odometerPulse micros) s = .next s) ∧
    (s.running = true → ∃ t, exec (.odometerPulse micros) s = .next t ∧
      (∀ p, s.tracker.lastPulse = some p →
        (s.pulseTimer + BitVec.ofNat 32 micros - p).toNat < s.settings.pulseSpacing →
        EventFrame { s with tracker := { s.tracker with noise := min (s.tracker.noise + 1) 65535 } } t) ∧
      ((∀ p, s.tracker.lastPulse = some p →
          s.settings.pulseSpacing ≤ (s.pulseTimer + BitVec.ofNat 32 micros - p).toNat) →
        t.tracker.lastPulse = some (s.pulseTimer + BitVec.ofNat 32 micros) ∧
        t.tracker.stamp = s.tracker.stamp + 1 ∧ t.tracker.noise = s.tracker.noise))

/-- An accepted pulse advances stamp, window count and travel, and chainage or the detour distance by the tracker state -/
def Obligations.AcceptedPulseWork : Prop :=
  ∀ (micros : Nat) (s : State), micros < 1000 → s.running = true →
    s.tracker.accepts s.settings.pulseSpacing (s.pulseTimer + BitVec.ofNat 32 micros) = true →
    let l := s.settings.pulseLength
    let counted : Tracker :=
      { s.tracker with
        stamp := s.tracker.stamp + 1
        windowCount := min (s.tracker.windowCount + 1) 65535
        travel := s.tracker.travel + BitVec.ofNat 32 ((s.tracker.travelResidue + l) / 1000)
        travelResidue := (s.tracker.travelResidue + l) % 1000
        lastPulse := some (s.pulseTimer + BitVec.ofNat 32 micros) }
    let a : Int := max (-((l / 4 : Nat) : Int)) (min s.tracker.correction ((l / 4 : Nat) : Int))
    let sum : Nat := ((s.tracker.residue : Int) + l + a).toNat
    let placed : Tracker :=
      { counted with
        chainage := min (s.tracker.chainage + sum / 1000) 999999999, residue := sum % 1000
        correction := s.tracker.correction - a }
    ∃ t, exec (.odometerPulse micros) s = .next t ∧
      (s.tracker.state = .unplaced → EventFrame { s with tracker := counted } t) ∧
      (s.tracker.state = .detour →
        EventFrame
          { s with
            tracker := { counted with
              detour := min (s.tracker.detour + (s.tracker.detourResidue + l) / 1000) 999999999
              detourResidue := (s.tracker.detourResidue + l) % 1000 } } t) ∧
      (s.tracker.state = .placed →
        t.tracker = placed ∧ (sum : Int) = s.tracker.residue + l + a ∧ a.natAbs ≤ s.tracker.correction.natAbs ∧
        (placed.chainage = s.tracker.chainage → EventFrame { s with tracker := placed } t) ∧
        (placed.chainage ≠ s.tracker.chainage → EventFrame { s with tracker := placed }.advance t))

/-- The end of a speed window renews the speed, and the part leaves SERVICE when the bus moves. A command that is not
due changes nothing that the end of an event leaves alone: the model's choice (log 19). -/
def Obligations.SpeedWindowEnds : Prop :=
  ∀ s : State, s.running = true →
    (s.windowDue = false → ∃ t, exec .speedWindow s = .next t ∧ EventFrame s t) ∧
    (s.windowDue = true →
    let w := s.tracker.windowCount * s.settings.pulseLength / 250
    let v := s.tracker.speed
    let tracker : Tracker :=
      { s.tracker with
        speed := min (if v < w then v + (w - v + 3) / 4 else v - (v - w + 3) / 4) 65535, windowCount := 0 }
    ∃ t, exec .speedWindow s = .next t ∧ t.tracker = tracker ∧ t.windowDue = false ∧ t.clock = s.clock ∧
      t.settings = s.settings ∧ t.power = s.power ∧ t.store.cells = s.store.cells ∧
      (s.store.mode = .run → EventFrame ({ s with tracker := tracker, windowDue := false }.advance) t) ∧
      (s.store.mode = .service → tracker.speed < s.settings.crawlSpeed →
        EventFrame { s with tracker := tracker, windowDue := false } t) ∧
      (s.store.mode = .service → s.settings.crawlSpeed ≤ tracker.speed →
        (s.store.reload = none → t.store.mode = .run ∧ t.store.motionPending = false) ∧
        (s.store.reload ≠ none → t.store.mode = .service ∧ t.store.motionPending = true)))

/-- POSITION goes at each expiry of the report timer, a pending LISTENERS 250 ms after the last one if the counts have
changed. That a command that is not due acts so is the model's choice (log 19). -/
def Obligations.TimedReports : Prop :=
  (∀ s : State, s.running = true →
    (∀ d, s.tracker.reportTimer = some d → reached s.clock d = true →
      ∃ t, exec .positionReport s = .next t ∧
        EventFrame
          { s with
            tracker := { s.tracker with reportTimer := some (d + BitVec.ofNat 32 s.settings.positionPeriod) } } t ∧
        (s.link.reports.length < 16 → s.voices.requests = [] → t.holdsReport (.position s.positionView))) ∧
    ((∀ d, s.tracker.reportTimer = some d → reached s.clock d = false) →
      ∃ t, exec .positionReport s = .next t ∧ EventFrame s t)) ∧
  (∀ s : State, s.running = true →
    (∀ d, s.seats.reportPending = true → s.seats.lastReport = some d → reached s.clock (d + 250) = true →
      ∃ t, exec .listenersHoldEnd s = .next t ∧
        (s.seats.counts = s.seats.reported →
          EventFrame { s with seats := { s.seats with reportPending := false } } t) ∧
        (s.seats.counts ≠ s.seats.reported →
          EventFrame
            { s with
              seats := { s.seats with reportPending := false, reported := s.seats.counts, lastReport := some s.clock } } t ∧
          (s.link.reports.length < 16 → t.holdsReport (.listeners s.seats.counts s.clock)))) ∧
    (s.seats.reportPending = false → ∃ t, exec .listenersHoldEnd s = .next t ∧ EventFrame s t))

/-- A SOFT fix within the slew limit becomes the pending correction; a HARD fix places the tracker at the projected
chainage and runs the jump rule -/
def Obligations.FixTaken : Prop :=
  (∀ (tag : Byte) (chainage : Nat) (stamp : BitVec 32) (s : State), s.takes 0x10 tag →
    s.cues.routeState = .ready → chainage ≤ 999999999 → s.tracker.state = .placed →
    (s.tracker.stamp - stamp).toNat ≤ 65535 →
    let projected := min (chainage + (s.tracker.stamp - stamp).toNat * s.settings.pulseLength / 1000) 999999999
    let e : Int := (projected : Int) - s.tracker.chainage
    ∃ t, exec (.fixSoft tag true chainage stamp) s = .next t ∧
      (e.natAbs ≤ s.settings.slewLimit →
        s.onlyRepliesBut { s with tracker := { s.tracker with correction := e * 1000 } } t ∧
        s.answered t 0x10 tag .ok (.fix projected e)) ∧
      (s.settings.slewLimit < e.natAbs → s.onlyReplies t ∧ s.answered t 0x10 tag .outOfWindow)) ∧
  (∀ (tag : Byte) (chainage : Nat) (stamp : BitVec 32) (s : State), s.takes 0x10 tag →
    s.cues.routeState = .ready → chainage ≤ 999999999 → (s.tracker.stamp - stamp).toNat ≤ 65535 →
    let projected := min (chainage + (s.tracker.stamp - stamp).toNat * s.settings.pulseLength / 1000) 999999999
    let tracker : Tracker := { s.tracker with state := .placed, chainage := projected, residue := 0, correction := 0 }
    ∃ t, exec (.fixHard tag chainage stamp) s = .next t ∧ t.tracker = tracker ∧
      s.answered t 0x10 tag .ok (.fix projected ((projected : Int) - s.tracker.chainage)) ∧
      (s.tracker.state = .unplaced ∨ s.tracker.chainage ≤ projected →
        t.cues = ({ s with tracker := tracker }.jumpForward).cues) ∧
      (s.tracker.state ≠ .unplaced → projected < s.tracker.chainage →
        t.cues = ({ s with tracker := tracker }.jumpBackward (s.tracker.chainage - projected)).cues) ∧
      t.store.cells = s.store.cells ∧ t.settings = s.settings ∧ t.power = s.power ∧ t.clock = s.clock)

/-- A FIX is refused in the order of its checks; DETOUR_BEGIN freezes chainage and DETOUR_END returns to it and runs the
advance rule. The flag of an unknown mode is the model's own (log 22). -/
def Obligations.FixRefusalsAndDetours : Prop :=
  (∀ (tag : Byte) (known : Bool) (chainage : Nat) (stamp : BitVec 32) (s : State), s.takes 0x10 tag →
    (∃ t, exec (.fixSoft tag known chainage stamp) s = .next t ∧
      (s.cues.routeState ≠ .ready → s.onlyReplies t ∧ s.answered t 0x10 tag .wrongState) ∧
      (s.cues.routeState = .ready → 999999999 < chainage ∨ known = false →
        s.onlyReplies t ∧ s.answered t 0x10 tag .range) ∧
      (s.cues.routeState = .ready → chainage ≤ 999999999 → known = true → s.tracker.state ≠ .placed →
        s.onlyReplies t ∧ s.answered t 0x10 tag .wrongState) ∧
      (s.cues.routeState = .ready → chainage ≤ 999999999 → known = true → s.tracker.state = .placed →
        65535 < (s.tracker.stamp - stamp).toNat → s.onlyReplies t ∧ s.answered t 0x10 tag .stale)) ∧
    (∃ t, exec (.fixHard tag chainage stamp) s = .next t ∧
      (s.cues.routeState ≠ .ready → EventFrame s t ∧ s.answered t 0x10 tag .wrongState) ∧
      (s.cues.routeState = .ready → 999999999 < chainage → EventFrame s t ∧ s.answered t 0x10 tag .range) ∧
      (s.cues.routeState = .ready → chainage ≤ 999999999 → 65535 < (s.tracker.stamp - stamp).toNat →
        EventFrame s t ∧ s.answered t 0x10 tag .stale))) ∧
  (∀ (tag : Byte) (s : State), s.takes 0x11 tag →
    ∃ t, exec (.detourBegin tag) s = .next t ∧
      (s.tracker.state = .placed →
        s.onlyRepliesBut
          { s with tracker := { s.tracker with state := .detour, detour := 0, detourResidue := 0, correction := 0 } } t ∧
        s.answered t 0x11 tag .ok) ∧
      (s.tracker.state ≠ .placed → s.onlyReplies t ∧ s.answered t 0x11 tag .wrongState)) ∧
  (∀ (tag : Byte) (s : State), s.takes 0x12 tag →
    ∃ t, exec (.detourEnd tag) s = .next t ∧
      (s.tracker.state = .detour →
        t.tracker = { s.tracker with state := .placed } ∧
        t.cues = ({ s with tracker := { s.tracker with state := .placed } }.advance).cues ∧
        s.answered t 0x12 tag .ok (.detour s.tracker.detour) ∧
        t.store.cells = s.store.cells ∧ t.settings = s.settings ∧ t.power = s.power ∧ t.clock = s.clock) ∧
      (s.tracker.state ≠ .detour → EventFrame s t ∧ s.answered t 0x12 tag .wrongState))

/-- The active settings stay in the ranges of Table 11-2, and the tracker invariant is kept by every step -/
def Obligations.TrackerStaysInRange : Prop :=
  Kept fun s => TrackerInv s ∧ s.settings.Valid

/-- The reading requests answer with the state or are refused, and change nothing but the link; the two clearing
requests set their counts to 0 -/
def Obligations.ReadingRequests : Prop :=
  (((∀ (tag : Byte) (s : State), s.takes 0x13 tag →
    ∃ t, exec (.getPosition tag) s = .next t ∧ s.onlyReplies t ∧ s.answered t 0x13 tag .ok (.position s.positionView)) ∧
  (∀ (tag : Byte) (first last : Nat) (s : State), s.takes 0x15 tag → s.cues.routeState = .ready → first ≤ last →
    last < s.cues.cues.length → last - first < 32 →
    ∃ t, exec (.getCues tag first last) s = .next t ∧ s.onlyReplies t ∧
      s.answered t 0x15 tag .ok
        (.cues s.cues.routeNumber s.cues.mask s.cues.cues.length s.cues.clipSets.length s.cues.scenes.length
          (s.cueViews first last))) ∧
  (∀ (tag : Byte) (first last : Nat) (s : State), s.takes 0x15 tag →
    ∃ t, exec (.getCues tag first last) s = .next t ∧ s.onlyReplies t ∧
      (s.cues.routeState ≠ .ready → s.answered t 0x15 tag .wrongState) ∧
      (s.cues.routeState = .ready → last < first ∨ s.cues.cues.length ≤ last ∨ first + 32 ≤ last →
        s.answered t 0x15 tag .range)) ∧
  (∀ (tag : Byte) (s : State), s.takes 0x1B tag →
    ∃ t, exec (.getStreams tag) s = .next t ∧ s.onlyReplies t ∧ s.answered t 0x1B tag .ok s.streamsView) ∧
  (∀ (tag : Byte) (s : State), s.takes 0x22 tag →
    ∃ t, exec (.getAnnouncements tag) s = .next t ∧ s.onlyReplies t ∧ s.answered t 0x22 tag .ok s.ann.view) ∧
  (∀ (tag : Byte) (first last : Nat) (s : State), s.takes 0x39 tag → first ≤ last → last ≤ 2047 → last - first < 256 →
    ∃ t, exec (.getStoreState tag first last) s = .next t ∧ s.onlyReplies t ∧
      s.answered t 0x39 tag .ok (.storeState (s.storeView first last))) ∧
  (∀ (tag : Byte) (first last : Nat) (s : State), s.takes 0x39 tag →
    last < first ∨ 2047 < last ∨ first + 256 ≤ last →
    ∃ t, exec (.getStoreState tag first last) s = .next t ∧ s.onlyReplies t ∧ s.answered t 0x39 tag .range) ∧
  (∀ (tag : Byte) (s : State), s.takes 0x2C tag →
    ∃ t, exec (.getLights tag) s = .next t ∧ s.onlyReplies t ∧ s.answered t 0x2C tag .ok s.lightsView) ∧
  (∀ (tag : Byte) (id : Nat) (s : State), s.takes 0x04 tag → 1 ≤ id → id ≤ 29 →
    ∃ t, exec (.getSetting tag id) s = .next t ∧ s.onlyReplies t ∧
      s.answered t 0x04 tag .ok
        (.setting (BitVec.ofNat 8 id) (s.settings.read id) (if 25 ≤ id then some (s.inForce.asSettings.read id) else none))) ∧
  (∀ (tag : Byte) (id : Nat) (s : State), s.takes 0x04 tag → id = 0 ∨ 29 < id →
    ∃ t, exec (.getSetting tag id) s = .next t ∧ s.onlyReplies t ∧ s.answered t 0x04 tag .notFound) ∧
  (∀ (tag : Byte) (s : State), s.takes 0x01 tag →
    ∃ t, exec (.getStatus tag false) s = .next t ∧ s.onlyReplies t ∧ s.answered t 0x01 tag .ok (.status s.statusView))) ∧
  (∀ (tag : Byte) (s : State), s.takes 0x01 tag →
    ∃ t, exec (.getStatus tag true) s = .next t ∧ t = { s with link := t.link } ∧ t.link.counters = {} ∧
      s.answered t 0x01 tag .ok (.status s.statusView))) ∧
  (∀ (tag : Byte) (first last : Nat) (s : State), s.takes 0x1A tag →
    ∃ t, exec (.getSeats tag first last) s = .next t ∧ s.onlyReplies t ∧
      (last < first ∨ 63 < last → s.answered t 0x1A tag .range) ∧
      (first ≤ last → last ≤ 63 →
        s.answered t 0x1A tag .ok
          (.seats
            (((List.finRange 64).filter fun i => decide (first ≤ i.val ∧ i.val ≤ last)).map fun i =>
              { number := i, seat := s.seats.seats.get i, boxPresent := (s.seats.boxes.get (boxOf i)).present })
            s.seats.enabled s.seats.counts))) ∧
  (∀ (tag : Byte) (s : State), s.takes 0x3A tag →
    ∃ t, exec (.clearStoreFaults tag) s = .next t ∧ s.answered t 0x3A tag .ok ∧
      s.onlyRepliesBut { s with voices := { s.voices with integrity := 0, firstFault := none } } t)

/-- A SELECT_ROUTE that is taken leaves the old route, its commentary, its waiting CUE entries and its scene, and begins
the load of the new one; or nothing changes -/
def Obligations.RouteSelected : Prop :=
  (∀ (tag : Byte) (s : State), s.takes 0x14 tag →
    let tracker : Tracker := { s.tracker with state := .unplaced, chainage := 0, residue := 0, correction := 0 }
    let rest (t : State) : Prop :=
      t.tracker = tracker ∧ t.cues.cues = [] ∧ t.cues.clipSets = [] ∧ t.cues.scenes = [] ∧ t.mixer.quiet = false ∧
      (∀ i, (t.lights.channels.get i).scene = none ∧
        (t.lights.channels.get i).base = (s.lights.channels.get i).base) ∧
      t.settings = s.settings ∧ t.power = s.power ∧ t.clock = s.clock ∧ t.store.cells = s.store.cells ∧
      t.store.mode = s.store.mode ∧ t.cues.directory = s.cues.directory ∧
      (AnnInv s →
        (∀ i, (t.stream i).current = none ∧ (t.stream i).next = none ∧
          ((t.stream i).state = .off ∨ (t.stream i).state = .quiet)) ∧
        t.comm.pendingFiring = none ∧ (∀ r, t.comm.suspend = some r → r.entries = []) ∧
        (s.voices.requests = [] →
          t.ann = { s.ann with
            queue := s.ann.queue.filter fun e => decide (e.source ≠ .cue)
            stack := s.ann.stack.filter fun e => decide (e.source ≠ .cue) } ∧
          (s.comm.state = .suspended → t.comm.state = .suspended ∧
            t.comm.suspend = some { travel := s.tracker.travel, entries := [] }) ∧
          ∀ i v, (s.stream i).state ≠ .off → (s.stream i).voice = some v → t.voice v = (s.voice v).released)) ∧
      ∀ e ∈ t.ann.queue ++ t.ann.stack, e.source ≠ .cue
    (∃ t, exec (.selectRoute tag 0) s = .next t ∧ rest t ∧ t.cues.routeState = .none ∧ t.cues.routeNumber = 0 ∧
      t.cues.extent = none ∧ t.cues.load = none ∧ s.answered t 0x14 tag .ok) ∧
    (∀ route e, route ≠ 0 → s.store.reload = none →
      (s.cues.directory.find? fun e : RouteEntry => decide (e.route = route)) = some e →
      ∃ t, exec (.selectRoute tag route) s = .next t ∧ rest t ∧ t.cues.routeState = .loading ∧
        t.cues.routeNumber = route ∧ t.cues.extent = some e.extent ∧
        { page := e.extent.first, use := .route t.cues.loadSerial 0 } ∈ t.port.reads ∧
        t.cues.load = some { serial := t.cues.loadSerial, next := 0, stream := [] } ∧
        s.answered t 0x14 tag .accepted)) ∧
  (∀ (tag : Byte) (route : Nat) (s : State), s.takes 0x14 tag → route ≠ 0 →
    ∃ t, exec (.selectRoute tag route) s = .next t ∧
      (s.store.reload ≠ none → EventFrame s t ∧ s.answered t 0x14 tag .busy) ∧
      (s.store.reload = none → (∀ e ∈ s.cues.directory, e.route ≠ route) → EventFrame s t ∧ s.answered t 0x14 tag .notFound))

/-- A route page that fails its check, breaks a rule or ends the records ends the load; any other asks for the next page
-/
def Obligations.RoutePageTaken : Prop :=
  ∀ (failed : Bool) (s : State) (page serial index : Nat) (load : Load) (extent : Extent), s.running = true →
    s.port.serving = some { page := page, use := .route serial index } → s.cues.load = some load →
    load.serial = serial → load.next = index → s.cues.extent = some extent →
    let data := (s.readRoutePage page failed).1
    let stream := load.stream ++ (data.getD []).take 506
    let ended (t : State) : Prop :=
      t.cues.routeState = .none ∧ t.cues.routeNumber = 0 ∧ t.cues.cues = [] ∧ t.cues.clipSets = [] ∧
        t.cues.scenes = [] ∧ t.cues.load = none
    ∃ t, exec (.routePageArrival failed) s = .next t ∧ t.tracker = s.tracker ∧ t.settings = s.settings ∧
      t.power = s.power ∧ t.store.cells = s.store.cells ∧
      (failed = true ∨ s.store.erasing (page / 512) = true → data = none) ∧
      (readFault data s.cues.routeNumber index ≠ none →
        ended t ∧ (s.link.reports.length < 16 → t.holdsReport (.routeFailed s.cues.routeNumber (.check page)))) ∧
      (readFault data s.cues.routeNumber index = none →
        (∀ r i, scanRoute s.cues.routeNumber extent.count stream = .bad r i ∨
            (scanRoute s.cues.routeNumber extent.count stream = .short r i ∧ extent.count ≤ index + 1) →
          ended t ∧ (s.link.reports.length < 16 → t.holdsReport (.routeFailed s.cues.routeNumber (.format r i)))) ∧
        (∀ p bytes, scanRoute s.cues.routeNumber extent.count stream = .done p bytes →
          t.cues = { s.cues with
            routeState := .ready, mask := p.mask, cues := p.cues, clipSets := p.clipSets, scenes := p.scenes, load := none } ∧
          (s.link.reports.length < 16 →
            t.holdsReport
              (.routeReady s.cues.routeNumber p.cues.length p.clipSets.length p.scenes.length p.mask))) ∧
        (∀ r i, scanRoute s.cues.routeNumber extent.count stream = .short r i → index + 1 < extent.count →
          t.cues = { s.cues with load := some { serial := serial, next := index + 1, stream := stream } } ∧
          { page := extent.first + index + 1, use := .route serial (index + 1) } ∈ t.port.reads))

/-- FORCE_CUE fires the named ARMED cue, the advance rule the due ones in anchor order; the jump rules skip those passed
and arm again those ahead -/
def Obligations.CueRules : Prop :=
  (∀ (tag : Byte) (n : Nat) (s : State), s.takes 0x16 tag →
    ∃ t, exec (.forceCue tag n) s = .next t ∧ t.tracker = s.tracker ∧ t.settings = s.settings ∧ t.power = s.power ∧
      t.store.cells = s.store.cells ∧
      (s.cues.routeState ≠ .ready ∨ s.store.mode = .service → EventFrame s t ∧ s.answered t 0x16 tag .wrongState) ∧
      (s.cues.routeState = .ready → s.store.mode = .run → s.cues.cues.length ≤ n →
        EventFrame s t ∧ s.answered t 0x16 tag .notFound) ∧
      (∀ c, s.cues.routeState = .ready → s.store.mode = .run → s.cues.cues[n]? = some c →
        (c.state ≠ .armed → EventFrame s t ∧ s.answered t 0x16 tag .wrongState) ∧
        (c.state = .armed →
          t.cues = { s.cues with cues := s.cues.cues.set n { c with state := .fired } } ∧ s.answered t 0x16 tag .ok ∧
          ∃ l, LinkFrame s.link l ∧ l.reports = s.link.reports ∧
            EventFrame (State.fireCue true { s with link := l } n) t))) ∧
  ((∀ s : State,
    (s.cues.routeState = .ready → s.tracker.state = .placed → s.store.mode = .run →
      s.advance.cues = { s.cues with
        cues := s.cues.cues.map fun c =>
          if c.state = .armed ∧ c.anchor - s.lead c.mark ≤ s.tracker.chainage then { c with state := .fired } else c } ∧
      s.advance = s.dueCues.foldl (State.fireCue false) s ∧
      (∀ n, n ∈ s.dueCues ↔
        ∃ c, s.cues.cues[n]? = some c ∧ c.state = .armed ∧ c.anchor - s.lead c.mark ≤ s.tracker.chainage) ∧
      (s.dueCues.Pairwise fun m n => s.anchorOf m < s.anchorOf n ∨ (s.anchorOf m = s.anchorOf n ∧ m < n)) ∧
      s.advance.tracker = s.tracker ∧ s.advance.seats = s.seats ∧ s.advance.settings = s.settings ∧
      s.advance.store = s.store) ∧
    (s.cues.routeState ≠ .ready ∨ s.tracker.state ≠ .placed ∨ s.store.mode = .service → s.advance = s)) ∧
  (∀ (s : State) (distance : Nat), s.cues.routeState = .ready →
    let fire (c : Cue) : Cue :=
      if s.tracker.state = .placed ∧ s.store.mode = .run ∧ c.state = .armed ∧ s.trigger c ≤ s.tracker.chainage then
        { c with state := .fired } else c
    let skip (c : Cue) : Cue :=
      if c.state = .armed ∧ c.anchor + c.late * 1000 < s.tracker.chainage then { c with state := .skipped } else c
    let rearm (c : Cue) : Cue :=
      if c.state ≠ .armed ∧ s.tracker.chainage < c.anchor then { c with state := .armed } else c
    s.jumpForward.cues = { s.cues with cues := s.cues.cues.map fun c => fire (skip c) } ∧
    (s.settings.rearmDistance ≤ distance →
      (s.jumpBackward distance).cues = { s.cues with cues := s.cues.cues.map fun c => fire (rearm c) }) ∧
    (distance < s.settings.rearmDistance →
      (s.jumpBackward distance).cues = { s.cues with cues := s.cues.cues.map fire })))

/-- A fired cue hands on its content: COMMENTARY to the streams, STOP and WARNING as admissions, SCENE to the lights,
QUIET_ON and QUIET_OFF to the mixer. That what the content reports comes before CUE_EVENT is deduced (log 17). -/
def Obligations.FiredCueHandsOn : Prop :=
  ∀ (forced : Bool) (n : Nat) (c : Cue) (s : State), s.cues.cues[n]? = some c →
    let u := State.fireCue forced s n
    let v := { s with cues := { s.cues with cues := s.cues.cues.set n { c with state := .fired } } }
    let told (e : CueEvent) : Report := .cueEvent e n c.kind forced s.tracker.chainage s.clock
    u.cues = v.cues ∧ u.tracker = s.tracker ∧ u.settings = s.settings ∧ u.store = s.store ∧ u.power = s.power ∧
    u.seats = s.seats ∧
    (c.kind = .commentary ∨ c.kind = .stop ∨ c.kind = .warning → (∀ r, c.ref = some r → s.cues.clipSets.length ≤ r) →
      u = v.report (told .noContent)) ∧
    (c.kind = .scene → (∀ r, c.ref = some r → s.cues.scenes.length ≤ r) → u = v.report (told .noContent)) ∧
    (∀ r scene, c.kind = .scene → c.ref = some r → s.cues.scenes[r]? = some scene →
      u = ({ v with lights := s.lights.applyScene scene s.clock }).report (told .fired)) ∧
    (∀ quiet, (c.kind = .quietOn ∧ quiet = true) ∨ (c.kind = .quietOff ∧ quiet = false) →
      let need := s.mixer.lower.commentary || (s.mixer.upper.commentary && !quiet)
      u.mixer = { s.mixer with quiet := quiet, need := need } ∧ u.ann = s.ann ∧ u.lights = s.lights ∧
      (need = s.mixer.need → u = ({ v with mixer := { s.mixer with quiet := quiet } }).report (told .fired))) ∧
    (∀ r set, c.kind = .commentary → c.ref = some r → s.cues.clipSets[r]? = some set →
      u.ann = s.ann ∧ u.lights = s.lights ∧ u.mixer = s.mixer ∧
      (s.comm.state = .suspended →
        u.comm = { s.comm with pendingFiring := some { cue := n, clipSet := set, mark := c.mark } } ∧
        u.voices = s.voices ∧
        (s.link.reports.length < 15 → told .fired ∈ u.link.reports ∧
          ∀ p, s.comm.pendingFiring = some p →
            Report.commentaryEvent (.dropped .replaced) p.cue s.clock ∈ u.link.reports)) ∧
      (s.comm.state ≠ .suspended → ∀ i,
        (s.seats.enabled.get i = false ∨ (∀ e ∈ set, e.slot ≠ i) → u.stream i = s.stream i) ∧
        (∀ e, s.seats.enabled.get i = true → set.find? (fun e : ClipSetEntry => decide (e.slot = i)) = some e →
          let delay := e.mark.elim 0 fun m => c.mark - m
          let long := s.clip e.long
          let short := e.short.bind s.clip
          let fits (k : ClipEntry) : Prop := ∀ remaining, v.fitResult = some remaining → delay + k.count * 60 ≤ remaining
          let placed (variant : Variant) (k : ClipEntry) : Prop :=
            let g : Segment :=
              { firing := s.comm.nextFiring, cue := n, clip := k.clip, variant := variant, pages := k.count
                start := s.clock + BitVec.ofNat 32 delay }
            u.comm.state = .running ∧
            ((s.stream i).current = none →
              u.stream i =
                { s.stream i with
                  current := some g
                  state := if reached s.clock g.start = true then
                    (if (s.stream i).demand = true then .waitVoice else .quiet) else .delay } ∧
              (reached s.clock g.start = true → (s.stream i).demand = true →
                Requester.stream i ∈ u.voices.requests)) ∧
            ((s.stream i).current ≠ none → u.stream i = { s.stream i with next := some g })
          (long = none → short = none → u.stream i = s.stream i) ∧
          (∀ k, long = some k → short = none ∨ fits k → placed .long k) ∧
          (∀ k, short = some k → (∀ l, long = some l → ¬fits l) → placed .short k)))) ∧
    (∀ cls r set, (c.kind = .stop ∧ cls = .stop) ∨ (c.kind = .warning ∧ cls = .warning) → c.ref = some r →
      s.cues.clipSets[r]? = some set →
      let e : Entry :=
        { cls := cls, source := .cue, clipSet := some r, clips := set.map fun k => (k.slot, k.long)
          route := some s.cues.routeNumber, cue := some n
          expiry := .chainage (min (c.anchor + c.late * 1000) 999999999), admitted := s.clock }
      (∀ h, s.ann.duplicate e = some h → u = v.report (told .fired)) ∧
      (s.ann.duplicate e = none → s.ann.preempts e = false →
        (s.ann.queue.length < 8 → s.ann.active ≠ none →
          u.ann = { s.ann with
            queue := insertQueue s.ann.code s.ann.queue
              { e with ticket := s.ann.freshTicket, order := s.ann.admissionCounter }
            ticketCounter := (s.ann.freshTicket + 1) % 256, admissionCounter := s.ann.admissionCounter + 1 }) ∧
        (∀ old, 8 ≤ s.ann.queue.length → s.ann.evictable = some old →
          (rank s.ann.code old.cls ≤ rank s.ann.code cls →
            u = (v.report (.announceEvent .dropped cls .cue (some n) s.clock)).report (told .fired)) ∧
          (rank s.ann.code cls < rank s.ann.code old.cls → s.ann.active ≠ none →
            let left : Announcements := { s.ann with queue := s.ann.queue.erase old }
            u.ann = { left with
              queue := insertQueue s.ann.code left.queue
                { e with ticket := left.freshTicket, order := s.ann.admissionCounter }
              ticketCounter := (left.freshTicket + 1) % 256, admissionCounter := s.ann.admissionCounter + 1 })) ∧
        (s.ann.active = none → s.ann.queue = [] → s.ann.stack = [] →
          min (c.anchor + c.late * 1000) 999999999 < s.tracker.chainage → u.ann.active = none) ∧
        (s.ann.active = none → s.ann.queue = [] → s.ann.stack = [] → s.allFree = false →
          s.tracker.chainage ≤ min (c.anchor + c.late * 1000) 999999999 →
          u.ann.active = some { e with ticket := s.ann.freshTicket, order := s.ann.admissionCounter } ∧
          u.lights.cls = (if cls = .stop then .stop else .warning) ∧ u.comm.state = .suspended)) ∧
      (∀ x, s.ann.duplicate e = none → cls = .warning → s.ann.active = some x → x.cls ≠ .warning → s.allFree = false →
        (∃ ticket, u.ann.active = some { e with ticket := ticket, order := s.ann.admissionCounter }) ∧
        u.lights.cls = .warning ∧ u.comm.state = .suspended))

/-- With the route READY, the tracker PLACED and the mode RUN no ARMED cue is due after any step -/
def Obligations.NoDueCueWaits : Prop :=
  Kept CueInv

/-- A poll carries its box's slots, volumes and acknowledgement; a third missed reply in a row makes a PRESENT box
ABSENT. Which box a millisecond polls is the model's choice (log 9), and so is what a poll or a missed reply does that
is not due (log 19). -/
def Obligations.PollsAndMissedReplies : Prop :=
  (∀ (b : Fin 16) (s : State), s.running = true →
    (s.pollDue = true → s.seats.awaiting = none → s.clock.toNat % 16 = b.val →
      ∃ t, exec (.poll b) s = .next t ∧
        EventFrame
          { s with
            pollDue := false
            seats := { s.seats with
              awaiting := some b
              lastPoll := some
                { box := b
                  slots := Table.ofFn fun p => ((s.seats.seats.get (seatOf b p)).served.map Fin.val).getD 15
                  volumes := Table.ofFn fun p => (s.seats.seats.get (seatOf b p)).effective
                  ack := (s.seats.boxes.get b).lastSequence.getD false } } } t) ∧
    (s.pollDue = false ∨ s.seats.awaiting ≠ none ∨ s.clock.toNat % 16 ≠ b.val →
      ∃ t, exec (.poll b) s = .next t ∧ EventFrame s t)) ∧
  (∀ (b : Fin 16) (s : State), s.running = true →
    (s.pollDue = true → s.seats.awaiting = some b →
      ∃ t, exec (.missedReply b) s = .next t ∧ t.seats.awaiting = none ∧ t.pollDue = true ∧
        t.seats.seats.map Seat.stored = s.seats.seats.map Seat.stored ∧ t.settings = s.settings ∧
        t.store.cells = s.store.cells ∧
        ((s.seats.boxes.get b).present = true → (s.seats.boxes.get b).missed + 1 < 3 →
          EventFrame
            { s with
              seats := { s.seats with
                awaiting := none
                boxes := s.seats.boxes.set b { s.seats.boxes.get b with missed := (s.seats.boxes.get b).missed + 1 } } } t) ∧
        ((s.seats.boxes.get b).present = true → 3 ≤ (s.seats.boxes.get b).missed + 1 →
          t.seats.boxes = s.seats.boxes.set b { s.seats.boxes.get b with present := false, missed := 0 } ∧
          (s.link.reports.length < 16 → t.holdsReport (.boxEvent b none s.clock))) ∧
        ((s.seats.boxes.get b).present = false → t.seats.boxes = s.seats.boxes)) ∧
    (s.pollDue = false ∨ s.seats.awaiting ≠ some b →
      ∃ t, exec (.missedReply b) s = .next t ∧ EventFrame s t))

/-- A valid poll reply sets plugs and sequence; presses count only from a PRESENT box with a new sequence bit. A second
reply to one poll is one that is not awaited: the model's choice (log 32). -/
def Obligations.ReplyTaken : Prop :=
  ∀ (r : PollReply) (s : State), s.running = true →
    ∃ t, exec (.pollReply r) s = .next t ∧ t.settings = s.settings ∧ t.store.cells = s.store.cells ∧
      (s.seats.awaiting ≠ some r.box ∨ r.checked = false ∨ 4 < r.presses.length → EventFrame s t) ∧
      (s.seats.awaiting = some r.box → r.checked = true → r.presses.length ≤ 4 →
        t.seats.awaiting = none ∧
        t.seats.boxes = s.seats.boxes.set r.box { present := true, missed := 0, lastSequence := some r.sequence } ∧
        (∀ i, (t.seats.seats.get i).plugged =
          if boxOf i = r.box then r.plugs.get ⟨i.val % 4, by omega⟩ else (s.seats.seats.get i).plugged) ∧
        ((s.seats.boxes.get r.box).present = false ∨ (s.seats.boxes.get r.box).lastSequence = some r.sequence →
          ∀ i, { t.seats.seats.get i with plugged := false, served := none, effective := 0 } =
            { s.seats.seats.get i with plugged := false, served := none, effective := 0 }) ∧
        ((s.seats.boxes.get r.box).present = true → (s.seats.boxes.get r.box).lastSequence ≠ some r.sequence →
          let pressed := r.presses.foldl (fun t p => t.press (seatOf r.box p.position) p.button)
            ({ s.seats with awaiting := none }.plug r.box r.plugs)
          ∀ i, (t.seats.seats.get i).stored = (pressed.seats.get i).stored) ∧
        ((s.seats.boxes.get r.box).present = false → s.link.reports.length < 16 →
          t.holdsReport (.boxEvent r.box (some r.plugs) s.clock)))

/-- Volume presses move one seat's volume within its cap; LANG_UP and LANG_DOWN move the slot, end the link and take the
followers along -/
def Obligations.ButtonPresses : Prop :=
  ∀ (t : SeatTable) (i : Fin 64),
    let moved (u : SeatTable) (c : Fin 12) : Prop :=
      u.seats.get i = { t.seats.get i with chosen := c, follow := none } ∧
      ∀ j, j ≠ i → u.seats.get j =
        if (t.seats.get j).follow = some i then { t.seats.get j with chosen := c } else t.seats.get j
    ((t.seats.get i).volume ≤ (t.seats.get i).cap →
      ((t.press i .volUp).seats.get i) =
        { t.seats.get i with volume := min ((t.seats.get i).volume + 1) (t.seats.get i).cap }) ∧
    ((t.press i .volDown).seats.get i) = { t.seats.get i with volume := (t.seats.get i).volume - 1 } ∧
    (∀ j, j ≠ i →
      (t.press i .volUp).seats.get j = t.seats.get j ∧ (t.press i .volDown).seats.get j = t.seats.get j) ∧
    (t.press i .volUp).countsNow = t.countsNow ∧ (t.press i .volDown).countsNow = t.countsNow ∧
    (∀ c : Fin 12, t.enabled.get c = true → (t.seats.get i).chosen < c →
      (∀ d : Fin 12, t.enabled.get d = true → (t.seats.get i).chosen < d → c ≤ d) → moved (t.press i .langUp) c) ∧
    (∀ c : Fin 12, t.enabled.get c = true → (∀ d : Fin 12, t.enabled.get d = true → d ≤ (t.seats.get i).chosen ∧ c ≤ d) →
      moved (t.press i .langUp) c) ∧
    (∀ c : Fin 12, t.enabled.get c = true → c < (t.seats.get i).chosen →
      (∀ d : Fin 12, t.enabled.get d = true → d < (t.seats.get i).chosen → d ≤ c) → moved (t.press i .langDown) c) ∧
    (∀ c : Fin 12, t.enabled.get c = true → (∀ d : Fin 12, t.enabled.get d = true → (t.seats.get i).chosen ≤ d ∧ d ≤ c) →
      moved (t.press i .langDown) c) ∧
    ((∀ d : Fin 12, t.enabled.get d = false) → t.press i .langUp = t ∧ t.press i .langDown = t)

/-- SET_SEAT applies cap, volume, muted flag, follow and chosen slot in order, or is refused with nothing changed. That
the reply carries the seat's number beside its record is the model's choice (log 40). -/
def Obligations.SeatSet : Prop :=
  ∀ (tag : Byte) (n : Nat) (f : SeatFields) (s : State), s.takes 0x18 tag →
    ∃ t, exec (.setSeat tag n f) s = .next t ∧ t.settings = s.settings ∧ t.store.cells = s.store.cells ∧
      (63 < n ∨ (∃ c, f.chosen = some c ∧ 11 < c) ∨ (∃ v, f.volume = some v ∧ 15 < v) ∨ (∃ c, f.cap = some c ∧ 15 < c) ∨
          (∃ l, f.follow = some (some l) ∧ 63 < l) →
        EventFrame s t ∧ s.answered t 0x18 tag .range) ∧
      (∀ i : Fin 64, i.val = n → seatFieldsInRange f = true →
        let old := s.seats.seats.get i
        let cap := f.cap.getD old.cap
        let levels : Seat :=
          { old with cap := cap, volume := min (f.volume.getD old.volume) cap, muted := f.muted.getD old.muted }
        let kept (j : Fin 64) : Prop := (t.seats.seats.get j).stored = (s.seats.seats.get j).stored
        (∀ l : Fin 64, f.follow = some (some l.val) →
          (l = i ∨ (s.seats.seats.get l).follow ≠ none ∨ (∃ j, (s.seats.seats.get j).follow = some i) →
            EventFrame s t ∧ s.answered t 0x18 tag .linkDepth) ∧
          (l ≠ i → (s.seats.seats.get l).follow = none → (∀ j, (s.seats.seats.get j).follow ≠ some i) →
            (t.seats.seats.get i).stored =
              ({ levels with follow := some l, chosen := (s.seats.seats.get l).chosen } : Seat).stored ∧
            (∀ j, j ≠ i → kept j) ∧ t.seats.boxes = s.seats.boxes ∧
            ∃ view, s.answered t 0x18 tag .ok (.seat view) ∧ view.number = i ∧
              view.seat.stored = (t.seats.seats.get i).stored)) ∧
        (f.follow = none ∨ f.follow = some none → t.seats.boxes = s.seats.boxes ∧
          (∃ view, s.answered t 0x18 tag .ok (.seat view) ∧ view.number = i ∧
            view.seat.stored = (t.seats.seats.get i).stored) ∧
          (∀ c : Fin 12, f.chosen = some c.val →
            (t.seats.seats.get i).stored = ({ levels with follow := none, chosen := c } : Seat).stored ∧
            ∀ j, j ≠ i →
              if (s.seats.seats.get j).follow = some i then
                (t.seats.seats.get j).stored = ({ s.seats.seats.get j with chosen := c } : Seat).stored
              else kept j) ∧
          (f.chosen = none → (∀ j, j ≠ i → kept j) ∧
            (f.follow = some none → (t.seats.seats.get i).stored = ({ levels with follow := none } : Seat).stored) ∧
            (f.follow = none → (t.seats.seats.get i).stored = levels.stored))))

/-- SEAT_APPLY changes the selected seats as a whole, or is refused with nothing changed -/
def Obligations.SeatsApplied : Prop :=
  ∀ (tag : Byte) (f : SeatApply) (s : State), s.takes 0x19 tag →
    let outcome := s.seats.outcome f s.settings
    ∃ t, exec (.seatApply tag f) s = .next t ∧ t.settings = s.settings ∧ t.store.cells = s.store.cells ∧
      (seatApplyValid f = false → EventFrame s t ∧ s.answered t 0x19 tag .range) ∧
      (seatApplyValid f = true → linksTooDeep outcome = true → EventFrame s t ∧ s.answered t 0x19 tag .linkDepth) ∧
      (seatApplyValid f = true → linksTooDeep outcome = false →
        s.answered t 0x19 tag .ok (.seatCount (changedSeats s.seats.seats (copyLeaders outcome))) ∧
        t.seats.boxes = s.seats.boxes ∧
        ∀ i,
          (t.seats.seats.get i).stored = ((copyLeaders outcome).get i).stored ∧
          (t.seats.seats.get i).plugged = (s.seats.seats.get i).plugged ∧
          (s.seats.selects f i = false → (s.seats.seats.get i).follow = none →
            (t.seats.seats.get i).stored = (s.seats.seats.get i).stored) ∧
          (s.seats.selects f i = true →
            (t.seats.seats.get i).cap = seatActionValue f.cap (s.seats.seats.get i).cap 15 ∧
            (t.seats.seats.get i).volume =
              min (seatActionValue f.volume (s.seats.seats.get i).volume s.settings.defaultVolume)
                (t.seats.seats.get i).cap ∧
            (t.seats.seats.get i).muted = (match f.muted with | .set m => m | _ => (s.seats.seats.get i).muted) ∧
            (f.follow = .none → (t.seats.seats.get i).follow = none) ∧
            (∀ l : Fin 64, f.follow = .leader → f.first = l.val →
              (t.seats.seats.get i).follow = if i = l then (s.seats.seats.get i).follow else some l) ∧
            (f.follow = .keep →
              (t.seats.seats.get i).follow =
                if f.chosen = .keep then (s.seats.seats.get i).follow else none) ∧
            ((t.seats.seats.get i).follow = none →
              (t.seats.seats.get i).chosen.val =
                seatActionValue f.chosen (s.seats.seats.get i).chosen.val s.settings.defaultSlot.val)) ∧
          (∀ l, (t.seats.seats.get i).follow = some l →
            (t.seats.seats.get i).chosen = (t.seats.seats.get l).chosen ∧ l ≠ i ∧ (t.seats.seats.get l).follow = none))

/-- Volumes stay within their caps and follow links stay one deep -/
def Obligations.SeatsStaySound : Prop :=
  Kept SeatInv

/-- Enabled and served slots, effective volumes, listener counts, need, demand and the announcement engine's hand-overs
stay current -/
def Obligations.DerivedStateStaysCurrent : Prop :=
  Kept DerivedInv

/-- The end of a delay asks for a voice or enters virtual playback; the end of a segment's time makes the next one
current. The two last clauses, that a STREAM_DELAY_END and a SEGMENT_TIME_END which are not due (delayDue = false,
segmentDue = false) change nothing, are the model's choice (log 19). -/
def Obligations.StreamDelayAndTimeEnd : Prop :=
  ∀ (i : Fin 12) (s : State), s.running = true →
    (∀ g, (s.stream i).state = .delay → (s.stream i).current = some g → reached s.clock g.start = true →
      ∃ t, exec (.streamDelayEnd i) s = .next t ∧ t.tracker = s.tracker ∧ t.settings = s.settings ∧
        t.store.cells = s.store.cells ∧ t.power = s.power ∧
        (s.freeVoice = none → (s.stream i).demand = true →
          (t.stream i).state = .waitVoice ∧ (t.stream i).current = some g ∧ Requester.stream i ∈ t.voices.requests) ∧
        (s.voices.requests = [] → (s.stream i).demand = false →
          (t.stream i).state = .quiet ∧ (t.stream i).current = some g ∧ t.voices = s.voices)) ∧
    (∀ g, (s.stream i).state = .quiet ∨ (s.stream i).state = .waitVoice → (s.stream i).current = some g →
      reached s.clock (g.start + BitVec.ofNat 32 (g.pages * 60)) = true →
      s.voices.requests = [] ∨ s.freeVoice = none →
      ∃ t, exec (.segmentTimeEnd i) s = .next t ∧ t.tracker = s.tracker ∧ t.settings = s.settings ∧
        t.store.cells = s.store.cells ∧ t.power = s.power ∧
        ((s.stream i).next = none →
          (t.stream i).state = .quiet ∧ (t.stream i).current = none ∧ (t.stream i).voice = none ∧
          t.voices = { s.voices with requests := s.voices.requests.filter (· ≠ .stream i) }) ∧
        (∀ h, (s.stream i).next = some h →
          let begun : Segment := { h with start := later h.start s.clock }
          (reached s.clock begun.start = false →
            (t.stream i).state = .delay ∧ (t.stream i).current = some begun ∧ (t.stream i).next = none ∧
            Requester.stream i ∉ t.voices.requests) ∧
          (reached s.clock begun.start = true → (s.stream i).demand = false →
            (t.stream i).state = .quiet ∧ (t.stream i).current = some begun ∧ (t.stream i).next = none ∧
            Requester.stream i ∉ t.voices.requests) ∧
          (reached s.clock begun.start = true → (s.stream i).demand = true → s.freeVoice = none →
            (t.stream i).state = .waitVoice ∧ (t.stream i).current = some begun ∧ (t.stream i).next = none ∧
            Requester.stream i ∈ t.voices.requests))) ∧
    (s.delayDue i = false → ∃ t, exec (.streamDelayEnd i) s = .next t ∧ EventFrame s t) ∧
    (s.segmentDue i = false → ∃ t, exec (.segmentTimeEnd i) s = .next t ∧ EventFrame s t)

/-- A suspension records each passage at the page of its elapsed time; a resume restarts it rewound, or drops a stale or
replaced one -/
def Obligations.SuspendAndResume : Prop :=
  (∀ s : State, s.comm.state = .suspended → s.suspend = s) ∧
  (∀ s : State, s.comm.state ≠ .suspended → s.resume = s) ∧
  (∀ s : State, s.comm.state ≠ .suspended →
    let entry (i : Fin 12) : Option SuspendEntry :=
      (s.stream i).current.bind fun g =>
        let page := if (s.stream i).state = .delay then 0 else (s.clock - g.start).toNat / 60
        if page < g.pages then some { slot := i, segment := g, page := page, next := (s.stream i).next }
        else (s.stream i).next.map fun h => { slot := i, segment := h, page := 0, next := none }
    s.suspend.comm.state = .suspended ∧ s.suspend.comm.pendingFiring = s.comm.pendingFiring ∧
    s.suspend.comm.suspend = some { travel := s.tracker.travel, entries := (List.finRange 12).filterMap entry } ∧
    (∀ i, ((s.stream i).current = none → s.suspend.stream i = s.stream i) ∧
      ((s.stream i).current ≠ none →
        s.suspend.stream i = { s.stream i with state := .quiet, current := none, next := none, voice := none } ∧
        Requester.stream i ∉ s.suspend.voices.requests ∧
        ∀ v, (s.stream i).voice = some v → s.suspend.voice v = (s.voice v).released)) ∧
    (s.power.state = .awake → s.power.pttLine = false → s.ann.active = none → s.ann.queue = [] → s.ann.stack = [] →
      s.voices.requests = [] → ∃ t, exec .pttPress s = .next t ∧ t.comm = s.suspend.comm)) ∧
  (∀ (s : State) (r : SuspendRecord), s.comm.state = .suspended → s.comm.suspend = some r →
    let stale := s.settings.resumeLimit < (s.tracker.travel - r.travel).toNat
    s.resume.comm.suspend = none ∧ s.resume.comm.pendingFiring = none ∧
    (s.resume.comm.state = if s.resume.comm.streams.any (fun q : Stream => q.current.isSome) then .running else .idle) ∧
    (∀ e es, r.entries = e :: es → s.link.reports.length < 16 →
      (stale → Report.commentaryEvent (.dropped .stale) e.segment.cue s.clock ∈ s.resume.link.reports) ∧
      (¬stale → s.comm.pendingFiring ≠ none →
        Report.commentaryEvent (.dropped .replaced) e.segment.cue s.clock ∈ s.resume.link.reports)) ∧
    (∀ p i, s.comm.pendingFiring = some p → (∀ j, (s.stream j).current = none) →
      let formed : Option Segment :=
        if s.seats.enabled.get i = true then
          (p.clipSet.find? fun e : ClipSetEntry => decide (e.slot = i)).bind
            (s.formSegment s.comm.nextFiring p.cue p.mark s.fitResult)
        else none
      (formed = none → s.resume.stream i = s.stream i) ∧
      (∀ g, formed = some g →
        s.resume.stream i =
          { s.stream i with
            current := some g
            state := if reached s.clock g.start = true then
              (if (s.stream i).demand = true then .waitVoice else .quiet) else .delay } ∧
        (reached s.clock g.start = true → (s.stream i).demand = true →
          Requester.stream i ∈ s.resume.voices.requests))) ∧
    (s.comm.pendingFiring = none → stale →
      s.resume.comm.streams = s.comm.streams ∧ s.resume.voices = s.voices) ∧
    (s.comm.pendingFiring = none → ¬stale → (r.entries.map SuspendEntry.slot).Nodup →
      (∀ e ∈ r.entries,
        (s.seats.enabled.get e.slot = true →
          s.resume.stream e.slot =
            { s.stream e.slot with
              state := if (s.stream e.slot).demand = true then .waitVoice else .quiet
              current := some { e.segment with
                start := s.clock - BitVec.ofNat 32 ((e.page - s.settings.resumeRewind) * 60) }
              next := e.next } ∧
          ((s.stream e.slot).demand = true → Requester.stream e.slot ∈ s.resume.voices.requests)) ∧
        (s.seats.enabled.get e.slot = false → s.resume.stream e.slot = s.stream e.slot)) ∧
      ∀ i, (∀ e ∈ r.entries, e.slot ≠ i) → s.resume.stream i = s.stream i))

/-- ANNOUNCE admits, evicts, pre-empts, merges or refuses, CANCEL_ANNOUNCE takes an entry out, SET_PRECEDENCE sorts the
queue again -/
def Obligations.AnnouncementRequests : Prop :=
  (∀ (tag : Byte) (cls : Option AnnClass) (n : Nat) (w : Option Nat) (s : State), s.takes 0x20 tag →
    ∃ t, exec (.announce tag cls n w) s = .next t ∧ t.tracker = s.tracker ∧ t.settings = s.settings ∧
      t.store.cells = s.store.cells ∧ t.cues = s.cues ∧
      (cls = none ∨ cls = some .live ∨ (∃ x, w = some x ∧ (x < 1 ∨ 600000 < x)) →
        EventFrame s t ∧ s.answered t 0x20 tag .range) ∧
      (∀ c, cls = some c → c ≠ .live → (∀ x, w = some x → 1 ≤ x ∧ x ≤ 600000) →
        (s.cues.routeState ≠ .ready → EventFrame s t ∧ s.answered t 0x20 tag .wrongState) ∧
        (s.cues.routeState = .ready → s.cues.clipSets.length ≤ n → EventFrame s t ∧ s.answered t 0x20 tag .notFound) ∧
        (∀ set, s.cues.routeState = .ready → s.cues.clipSets[n]? = some set →
          (∀ h, s.ann.duplicate (s.linkEntry c n set w) = some h →
            EventFrame s t ∧ s.answered t 0x20 tag .merged (.ticket h.ticket)) ∧
          (s.ann.duplicate (s.linkEntry c n set w) = none → s.ann.preempts (s.linkEntry c n set w) = false →
            s.ann.queue.length < 8 →
            s.answered t 0x20 tag .ok (.ticket s.ann.freshTicket) ∧
            t.ann.ticketCounter = (s.ann.freshTicket + 1) % 256 ∧
            t.ann.admissionCounter = s.ann.admissionCounter + 1 ∧
            (s.ann.active ≠ none → s.voices.requests = [] →
              t.ann = { s.ann with
                queue := insertQueue s.ann.code s.ann.queue
                  { s.linkEntry c n set w with ticket := s.ann.freshTicket, order := s.ann.admissionCounter }
                ticketCounter := (s.ann.freshTicket + 1) % 256, admissionCounter := s.ann.admissionCounter + 1 })) ∧
          (∀ old, s.ann.duplicate (s.linkEntry c n set w) = none → s.ann.preempts (s.linkEntry c n set w) = false →
            8 ≤ s.ann.queue.length → s.ann.evictable = some old →
            (rank s.ann.code old.cls ≤ rank s.ann.code c →
              EventFrame s t ∧ s.answered t 0x20 tag .queueFull) ∧
            (rank s.ann.code c < rank s.ann.code old.cls → s.ann.active ≠ none → s.voices.requests = [] →
              let left : Announcements := { s.ann with queue := s.ann.queue.erase old }
              s.answered t 0x20 tag .ok (.ticket left.freshTicket) ∧
              t.ann = { left with
                queue := insertQueue s.ann.code left.queue
                  { s.linkEntry c n set w with ticket := left.freshTicket, order := s.ann.admissionCounter }
                ticketCounter := (left.freshTicket + 1) % 256, admissionCounter := s.ann.admissionCounter + 1 } ∧
              (s.link.reports.length < 16 →
                t.holdsReport (.announceEvent (.ended old.ticket .evicted) old.cls old.source old.cue s.clock)))) ∧
          (∀ x, s.ann.duplicate (s.linkEntry c n set w) = none → c = .warning → s.ann.active = some x →
            x.cls ≠ .warning → s.allFree = false → s.voices.requests = [] →
            t.ann.queue = s.ann.queue ∧ t.comm.state = .suspended ∧ t.ann.hangTimer = none ∧
            (∀ v ∈ x.voices ++ x.chimeVoice.toList, t.voice v = (s.voice v).released) ∧
            (∃ ticket, s.answered t 0x20 tag .ok (.ticket ticket) ∧ t.ann.ticketCounter = (ticket + 1) % 256 ∧
              t.ann.active =
                some { s.linkEntry c n set w with ticket := ticket, order := s.ann.admissionCounter, phase := .queued }) ∧
            (x.phase = .hang ∨ (x.source = .cue ∧ x.route ≠ some s.cues.routeNumber) →
              t.ann.stack = s.ann.stack) ∧
            (x.phase ≠ .hang → (x.source = .cue → x.route = some s.cues.routeNumber) →
              t.ann.stack =
                ({ x with
                    phase := .queued, map := none, speakerVoice := none, chimeVoice := none, restart := true
                    voices := [] } :: s.ann.stack).take 4))))) ∧
  (∀ a : Announcements, ∀ old, a.evictable = some old →
    old ∈ a.queue ∧ (∀ e ∈ a.queue, rank a.code e.cls ≤ rank a.code old.cls) ∧
    ∀ e ∈ a.queue, rank a.code e.cls = rank a.code old.cls →
      (a.admissionCounter - old.order).toNat ≤ (a.admissionCounter - e.order).toNat) ∧
  (∀ (tag : Byte) (ticket : Nat) (s : State), s.takes 0x21 tag →
    ∃ t, exec (.cancelAnnounce tag ticket) s = .next t ∧
      ((∀ e ∈ s.ann.held, e.ticket ≠ ticket) → EventFrame s t ∧ s.answered t 0x21 tag .notFound) ∧
      (∀ e, s.ann.byTicket ticket = some e →
        (e.cls = .live → EventFrame s t ∧ s.answered t 0x21 tag .wrongState) ∧
        (e.cls ≠ .live → s.answered t 0x21 tag .ok ∧ t.tracker = s.tracker ∧ t.settings = s.settings ∧
          t.store.cells = s.store.cells ∧
          ((∀ x, s.ann.active = some x → x.ticket ≠ ticket) →
            EventFrame
              { s with
                ann := { s.ann with
                  queue := s.ann.queue.filter fun e => decide (e.ticket ≠ ticket)
                  stack := s.ann.stack.filter fun e => decide (e.ticket ≠ ticket) } } t) ∧
          (∀ x, s.ann.active = some x → x.ticket = ticket → s.ann.queue = [] → s.ann.stack = [] →
            t.ann.active = none ∧ t.ann.hangTimer = none ∧ Requester.announcement ∉ t.voices.requests ∧
            (∀ v ∈ x.voices ++ x.chimeVoice.toList, (s.voice v).state ≠ .free → t.voice v = (s.voice v).released) ∧
            (s.link.reports.length < 16 →
              t.holdsReport (.announceEvent (.ended x.ticket .cancelled) x.cls x.source x.cue s.clock)))))) ∧
  (∀ (tag : Byte) (code : Nat) (s : State), s.takes 0x23 tag →
    ∃ t, exec (.setPrecedence tag code) s = .next t ∧
      (6 ≤ code → s.onlyReplies t ∧ s.answered t 0x23 tag .range) ∧
      (∀ c : Fin 6, c.val = code →
        s.onlyRepliesBut { s with ann := { s.ann with code := c, queue := resort c s.ann.queue } } t ∧
        s.answered t 0x23 tag .ok ∧ (resort c s.ann.queue).Perm s.ann.queue ∧
        (resort c s.ann.queue).Pairwise fun a b => rank c a.cls ≤ rank c b.cls))

/-- The fan-out gives the speaker clip the lowest FREE voice, then the ranked slots theirs by listeners, and FALLBACK
when no voice is left -/
def Obligations.FanOutFormed : Prop :=
  ∀ (s : State) (e : Entry),
    (∀ c, s.clipOf e s.settings.speakerSlot = some c → s.speakerClip e = some c) ∧
    (∀ i c, s.clipOf e s.settings.speakerSlot = none → s.clipOf e i = some c → (∀ j, j < i → s.clipOf e j = none) →
      s.speakerClip e = some c) ∧
    ((∀ i, s.clipOf e i = none) → (s.fanOut e).2.speaker = none ∧ (s.fanOut e).2.voices = [] ∧ (s.fanOut e).1 = s) ∧
    (∀ c v, s.speakerClip e = some c → s.freeVoice = some v → s.store.reload = none → (∀ k ∈ s.store.clips, 0 < k.count) →
      let f := (s.fanOut e).2
      f.speaker = some v ∧ f.voices.head? = some v ∧
      ((s.fanOut e).1.voice v).owner = some (.announcement e.ticket .speaker) ∧
      ((s.fanOut e).1.voice v).clip = some c ∧ ((s.fanOut e).1.voice v).startPage = 0 ∧
      (∀ i,
        (s.heard i = true →
          (s.clipOf e i = some c → f.map.get i = .own v) ∧
          (s.clipOf e i = none → f.map.get i = .fallback) ∧
          (∀ k, s.clipOf e i = some k → k ≠ c →
            (f.map.get i = .fallback ∧ (s.fanOut e).1.freeVoice = none) ∨
            ∃ w, f.map.get i = .own w ∧ w ∈ f.voices ∧ (s.voice w).state = .free ∧
              ((s.fanOut e).1.voice w).owner = some (.announcement e.ticket (.slot i)) ∧
              ((s.fanOut e).1.voice w).clip = some k)) ∧
        (s.heard i = false →
          f.map.get i =
            if s.seats.enabled.get i = true ∧ s.seats.counts.get i = 0 ∧ s.clipOf e i = some c then .own v else .none)) ∧
      (∀ i j, s.heard i = true → s.heard j = true → (∃ k, s.clipOf e i = some k ∧ k ≠ c) →
        (∃ k, s.clipOf e j = some k ∧ k ≠ c) →
        (s.seats.counts.get j < s.seats.counts.get i ∨ (s.seats.counts.get j = s.seats.counts.get i ∧ i < j)) →
        f.map.get i = .fallback → f.map.get j = .fallback))

/-- An entry starts with its chime or its fan-out, the end of the chime leads to the fan-out, the end of the last voice
to COMPLETED and the next candidate -/
def Obligations.AnnouncementProgress : Prop :=
  let begins (u t : State) (x : Entry) : Prop :=
    let chime := u.settings.chime x.cls
    let f := (u.fanOut x).2
    (u.link.reports.length < 15 →
      t.holdsReport (.announceEvent (.started x.ticket x.restart) x.cls x.source x.cue u.clock)) ∧
    (x.cls = .live → t.ann.active = some { x with phase := .playing }) ∧
    (∀ v, x.restart = false → chime ≠ 0 → u.clip chime ≠ none → u.freeVoice = some v →
      t.ann.active = some { x with phase := .chime, chimeVoice := some v } ∧
      (t.voice v).owner = some (.chime x.ticket) ∧ (t.voice v).clip = some chime ∧ (t.voice v).startPage = 0) ∧
    (x.cls ≠ .live → x.restart = true ∨ chime = 0 ∨ u.clip chime = none → f.voices ≠ [] →
      t.ann.active = some
        { x with
          phase := .playing, map := some f.map, voices := f.voices, chimeVoice := none
          speakerVoice := f.speaker.filter f.voices.contains })
  (∀ (tag : Byte) (c : AnnClass) (n : Nat) (w : Option Nat) (set : ClipSet) (s : State), s.takes 0x20 tag → c ≠ .live →
    (∀ k, w = some k → 1 ≤ k ∧ k ≤ 600000) → s.cues.routeState = .ready → s.cues.clipSets[n]? = some set →
    s.ann.active = none → s.ann.queue = [] → s.ann.stack = [] → s.voices.requests = [] → s.store.reload = none →
    (∀ k ∈ s.store.clips, 0 < k.count) →
    let x := { s.linkEntry c n set w with ticket := s.ann.freshTicket, order := s.ann.admissionCounter }
    ∃ t, exec (.announce tag (some c) n w) s = .next t ∧
      (c ≠ .notice → s.allFree = true → (∀ i, (s.stream i).current = none) → begins s t x) ∧
      (c ≠ .notice → s.allFree = false → t.ann.active = some x ∧ t.comm.state = .suspended) ∧
      (c = .notice → s.comm.state ≠ .suspended → s.freeVoice ≠ none → begins s t x) ∧
      (c = .notice → s.comm.state ≠ .suspended → s.freeVoice = none →
        t.ann.active = some x ∧ Requester.announcement ∈ t.voices.requests)) ∧
  (∀ (v : Fin 16) (x : Entry) (s : State), s.running = true → (s.voice v).state = .stopping → 20 ≤ (s.voice v).fade →
    (∀ w, w ≠ v → (s.voice w).state = .free) → s.ann.active = some x → x.cls ≠ .notice → x.phase = .queued →
    s.voices.requests = [] → s.store.reload = none → (∀ k ∈ s.store.clips, 0 < k.count) →
    ∃ t, exec (.fadeEnd v) s = .next t ∧ begins (s.dropVoice v) t x) ∧
  (∀ (v : Fin 16) (d : Clock) (e : Entry) (s : State), s.running = true → (s.voice v).state = .playing →
    (s.voice v).due = some d → reached s.clock d = true → (s.voice v).pageCount ≤ (s.voice v).nextPlay →
    s.ann.active = some e → s.voices.requests = [] → s.store.reload = none → (∀ k ∈ s.store.clips, 0 < k.count) →
    ∃ t, exec (.voicePageDue v) s = .next t ∧
      ((s.voice v).owner = some (.chime e.ticket) → e.phase = .chime → e.chimeVoice = some v →
        let f := ((s.dropVoice v).fanOut e).2
        let lacking :=
          (List.finRange 12).countP fun i => decide (0 < s.seats.counts.get i) && decide (f.map.get i = .fallback)
        (f.voices ≠ [] →
          t.ann.active = some
            { e with
              phase := .playing, map := some f.map, voices := f.voices, chimeVoice := none
              speakerVoice := f.speaker.filter f.voices.contains } ∧
          (0 < lacking → s.link.reports.length < 16 →
            t.holdsReport (.announceEvent (.degraded e.ticket lacking) e.cls e.source e.cue s.clock))) ∧
        (f.voices = [] → s.ann.queue = [] → s.ann.stack = [] → t.ann.active = none)) ∧
      (∀ role, (s.voice v).owner = some (.announcement e.ticket role) → e.phase = .playing → e.voices = [v] →
        e.chimeVoice = none →
        (s.link.reports.length < 16 →
          t.holdsReport (.announceEvent (.ended e.ticket .completed) e.cls e.source e.cue s.clock)) ∧
        (s.ann.queue = [] → s.ann.stack = [] →
          t.ann.active = none ∧ t.ann.hangTimer = none ∧ t.lights.cls = .none ∧ t.comm.state ≠ .suspended) ∧
        (∀ q left, s.ann.takeCandidate = some (q, left) →
          (s.expired q = true → left.queue = [] → left.stack = [] →
            t.ann.active = none ∧
            (s.link.reports.length < 15 →
              t.holdsReport (.announceEvent (.ended q.ticket .expired) q.cls q.source q.cue s.clock))) ∧
          (s.expired q = false → q.cls ≠ .notice → (∃ w, w ≠ v ∧ (s.voice w).state ≠ .free) →
            t.ann.active = some { q with phase := .queued } ∧ t.ann.queue = left.queue ∧ t.ann.stack = left.stack ∧
            t.comm.state = .suspended) ∧
          (s.expired q = false → q.cls ≠ .notice → (∀ w, w ≠ v → (s.voice w).state = .free) →
            (∀ i, (s.stream i).current = none) → s.link.reports.length < 14 →
            begins (s.dropVoice v) t { q with phase := .queued })))) ∧
  (∀ (a : Announcements) (top head : Entry) (ts qs : List Entry), a.stack = top :: ts → a.queue = head :: qs →
    (rank a.code head.cls < rank a.code top.cls → a.takeCandidate = some (head, { a with queue := qs })) ∧
    (rank a.code top.cls ≤ rank a.code head.cls → a.takeCandidate = some (top, { a with stack := ts })))

/-- The press-to-talk line, the hang timer and a waiting NOTICE's max wait. That the NOTICE still waits at the exact
time is deduced (log 14). That an edge to the level a line has changes nothing is the model's choice (log 30), and so is
that a command that is not due does (log 19). -/
def Obligations.PressToTalk : Prop :=
  (∀ s : State, s.power.state = .awake → s.power.pttLine = false →
    ∃ t, exec .pttPress s = .next t ∧ t.power.pttLine = true ∧ t.ann.pressed = true ∧ t.tracker = s.tracker ∧
      t.settings = s.settings ∧ t.store.cells = s.store.cells ∧ t.cues = s.cues ∧
      (s.ann.active = none → s.ann.queue = [] → s.ann.stack = [] → s.allFree = true → s.voices.requests = [] →
        (∀ i, (s.stream i).current = none) →
        ∃ e, t.ann.active = some e ∧ e.cls = .live ∧ e.phase = .playing ∧ e.ticket = s.ann.ticketCounter % 256 ∧
          t.mixer.microphone = true ∧ t.comm.state = .suspended) ∧
      (∀ e, s.ann.active = some e → e.cls = .live → e.phase = .hang → s.voices.requests = [] →
        t.ann.active = some { e with phase := .playing } ∧ t.ann.hangTimer = none)) ∧
  (∀ s : State, s.running = true → s.power.pttLine = true →
    ∃ t, exec .pttRelease s = .next t ∧ t.power.pttLine = false ∧ t.ann.pressed = false ∧ t.tracker = s.tracker ∧
      t.settings = s.settings ∧ t.store.cells = s.store.cells ∧ t.cues = s.cues ∧
      (∀ e, s.ann.active = some e → e.cls = .live → s.voices.requests = [] →
        (e.phase = .playing → s.settings.liveHang ≠ 0 →
          t.ann.active = some { e with phase := .hang } ∧
          t.ann.hangTimer = some (s.clock + BitVec.ofNat 32 s.settings.liveHang)) ∧
        (e.phase = .hang → t.ann.active = some e ∧ t.ann.hangTimer = s.ann.hangTimer))) ∧
  (∀ (s : State) (d : Clock) (e : Entry), s.running = true → s.ann.hangTimer = some d → s.ann.active = some e →
    s.ann.queue = [] → s.ann.stack = [] → s.voices.requests = [] →
    ∃ t, exec .hangTimerExpiry s = .next t ∧
      (reached s.clock d = true → t.ann.active = none ∧ t.ann.hangTimer = none ∧ t.tracker = s.tracker) ∧
      (reached s.clock d = false → EventFrame s t)) ∧
  (∀ (s : State) (w : Nat) (e : Entry), s.running = true → s.ann.active = some e → e.cls = .notice → e.phase = .queued →
    e.expiry = .wait w → s.ann.queue = [] → s.ann.stack = [] →
    ∃ t, exec .noticeMaxWait s = .next t ∧
      (w < (s.clock - e.admitted).toNat → s.freeVoice = none →
        t.ann.active = none ∧ Requester.announcement ∉ t.voices.requests ∧ t.tracker = s.tracker) ∧
      ((s.clock - e.admitted).toNat ≤ w → EventFrame s t)) ∧
  (∀ s : State, (s.power.pttLine = true → exec .pttPress s = .next s) ∧
    (s.power.pttLine = false → exec .pttRelease s = .next s))

/-- The announcement queue and stack stay bounded, and commentary is SUSPENDED, with no segments in its streams, exactly
under a heard-alone entry -/
def Obligations.AnnouncementsStayBounded : Prop :=
  Kept AnnInv

/-- A page joins its voice's queue, a due page is output or an underrun held, and a voice ends after its last page, on
starvation or with its fade. What a STOPPING voice does after its last page is deduced (log 13), and that a command that
is not due changes nothing is the model's choice (log 19). -/
def Obligations.VoicePages : Prop :=
  (∀ (failed : Bool) (v : Fin 16) (serial index page clip : Nat) (s : State), s.running = true →
    s.port.serving = some { page := page, use := .voice v serial index } →
    (s.voice v).serial = serial → (s.voice v).outstanding = true →
    (s.voice v).state = .playing ∨ ((s.voice v).state = .priming ∧ (s.voice v).waiting = none) →
    (s.voice v).clip = some clip → s.voices.requests = [] →
    let data := (s.readPage page failed).1
    let failing : Prop := (data ≠ none ∧ s.store.erasing (page / 512) = true) ∨ readFault data clip index ≠ none
    let held := (s.voice v).queue.length + 1
    let remain := (s.voice v).pageCount - (s.voice v).startPage
    ∃ t, exec (.voicePageArrival v failed) s = .next t ∧ t.tracker = s.tracker ∧ t.settings = s.settings ∧
      t.store.cells = s.store.cells ∧ (∀ w, w ≠ v → t.voice w = s.voice w) ∧
      ((s.voice v).state = .playing → (t.voice v).state = .playing ∧ (t.voice v).due = (s.voice v).due) ∧
      ((s.voice v).state = .priming → 2 ≤ held ∨ (remain < 2 ∧ held = remain) →
        (t.voice v).state = .playing ∧ (t.voice v).due = some s.clock) ∧
      ((s.voice v).state = .priming → ¬(2 ≤ held ∨ (remain < 2 ∧ held = remain)) → (t.voice v).state = .priming) ∧
      (¬failing →
        (t.voice v).queue = (s.voice v).queue ++ [.audio (data.getD [])] ∧ t.voices.integrity = s.voices.integrity) ∧
      (failing →
        (t.voice v).queue = (s.voice v).queue ++ [.silent] ∧ t.voices.integrity = min (s.voices.integrity + 1) 15)) ∧
  (∀ (failed : Bool) (v : Fin 16) (serial index page : Nat) (s : State), s.running = true →
    s.port.serving = some { page := page, use := .voice v serial index } → s.store.erasing (page / 512) = false →
    (s.voice v).serial ≠ serial ∨ (s.voice v).outstanding = false ∨ (s.voice v).state = .stopping ∨
      (s.voice v).state = .free →
    ∃ t, exec (.voicePageArrival v failed) s = .next t ∧
      EventFrame { s with port := { s.port with serving := none } } t) ∧
  (∀ (v : Fin 16) (d : Clock) (s : State), s.running = true → (s.voice v).state = .playing → (s.voice v).due = some d →
    reached s.clock d = true → s.voices.requests = [] →
    ∃ t, exec (.voicePageDue v) s = .next t ∧ t.tracker = s.tracker ∧ t.settings = s.settings ∧
      t.store.cells = s.store.cells ∧
      ((s.voice v).nextPlay < (s.voice v).pageCount → ∀ p rest, (s.voice v).queue = p :: rest →
        (∀ w, w ≠ v → t.voice w = s.voice w) ∧
        (t.voice v).queue = rest ∧ (t.voice v).nextPlay = (s.voice v).nextPlay + 1 ∧ (t.voice v).sounding = p.samples ∧
        (t.voice v).starved = 0 ∧ (t.voice v).underruns = (s.voice v).underruns ∧ (t.voice v).due = some (d + 60)) ∧
      ((s.voice v).nextPlay < (s.voice v).pageCount → (s.voice v).queue = [] → (s.voice v).starved < 4 →
        (∀ w, w ≠ v → t.voice w = s.voice w) ∧
        t.voice v =
          { s.voice v with
            sounding := [], due := some (d + 60), underruns := min ((s.voice v).underruns + 1) 255
            starved := (s.voice v).starved + 1 }) ∧
      ((s.voice v).pageCount ≤ (s.voice v).nextPlay ∨ ((s.voice v).queue = [] ∧ 4 ≤ (s.voice v).starved) →
        (∀ i, (s.voice v).owner = some (.stream i) → (s.stream i).next = none → s.ann.active = none →
          (∀ w, w ≠ v → t.voice w = s.voice w) ∧
          t.voice v = (s.voice v).freed ∧ t.mixer.destinations.get v = none ∧
          ((s.stream i).current ≠ none →
            (t.stream i).state = .quiet ∧ (t.stream i).current = none ∧ (t.stream i).voice = none)) ∧
        (∀ ticket role e, (s.voice v).owner = some (.announcement ticket role) → s.ann.active = some e →
          e.phase = .playing → v ∈ e.voices → e.chimeVoice = none → (∃ w ∈ e.voices, w ≠ v) →
          t.voice v = (s.voice v).freed ∧
          t.ann = { s.ann with
            active := some { e with
              voices := e.voices.filter (· ≠ v)
              speakerVoice := if e.speakerVoice = some v then none else e.speakerVoice } }))) ∧
  (∀ (v : Fin 16) (d : Clock) (s : State), s.running = true → (s.voice v).state = .stopping → (s.voice v).due = some d →
    reached s.clock d = true → s.voices.requests = [] → s.ann.active = none →
    ∃ t, exec (.voicePageDue v) s = .next t ∧ t.tracker = s.tracker ∧ t.settings = s.settings ∧
      t.store.cells = s.store.cells ∧ (∀ w, w ≠ v → t.voice w = s.voice w) ∧
      ((s.voice v).pageCount ≤ (s.voice v).nextPlay → t.voice v = (s.voice v).freed) ∧
      (∀ p rest, (s.voice v).nextPlay < (s.voice v).pageCount → (s.voice v).queue = p :: rest →
        t.voice v =
          { s.voice v with
            queue := rest, nextPlay := (s.voice v).nextPlay + 1, sounding := p.samples, due := some (d + 60) }) ∧
      ((s.voice v).nextPlay < (s.voice v).pageCount → (s.voice v).queue = [] →
        t.voice v = { s.voice v with sounding := [], due := some (d + 60) })) ∧
  (∀ (v : Fin 16) (s : State), s.running = true → (s.voice v).state = .stopping → 20 ≤ (s.voice v).fade →
    s.voices.requests = [] → s.ann.active = none →
    ∃ t, exec (.fadeEnd v) s = .next t ∧ t.tracker = s.tracker ∧ t.settings = s.settings ∧
      t.store.cells = s.store.cells ∧ (t.voice v).state = .free ∧ (t.voice v).owner = none ∧ (t.voice v).queue = [] ∧
      (t.voice v).outstanding = false ∧ t.mixer.destinations.get v = none ∧ ∀ w, w ≠ v → t.voice w = s.voice w) ∧
  (∀ (v : Fin 16) (s : State), s.running = true →
    (s.pageDue v = false → ∃ t, exec (.voicePageDue v) s = .next t ∧ EventFrame s t) ∧
    (s.fadeOver v = false → ∃ t, exec (.fadeEnd v) s = .next t ∧ EventFrame s t)) ∧
  (∀ r : Voice, (r.state = .priming → r.released = { r with
      state := .stopping, owner := none, fade := 0, waiting := none, due := none, hold := 0, sounding := [] }) ∧
    (r.state = .playing → r.released = { r with state := .stopping, owner := none, fade := 0 }) ∧
    (r.state = .stopping ∨ r.state = .free → r.released = r))

/-- The arbiter grants the lowest FREE voice to the announcement first, then the speaker slot, then by listeners, and
the granted stream plays -/
def Obligations.VoiceArbiterOrder : Prop :=
  (∀ s : State,
    (∀ v, s.freeVoice = some v ↔ (s.voice v).state = .free ∧ ∀ w, w < v → (s.voice w).state ≠ .free) ∧
    (Requester.announcement ∈ s.voices.requests → s.firstRequest = some .announcement) ∧
    (Requester.announcement ∉ s.voices.requests →
      (Requester.stream s.settings.speakerSlot ∈ s.voices.requests →
        s.firstRequest = some (.stream s.settings.speakerSlot)) ∧
      (∀ i, Requester.stream s.settings.speakerSlot ∉ s.voices.requests → Requester.stream i ∈ s.voices.requests →
        (∀ j, j ≠ i → Requester.stream j ∈ s.voices.requests →
          s.seats.counts.get j < s.seats.counts.get i ∨ (s.seats.counts.get j = s.seats.counts.get i ∧ i < j)) →
        s.firstRequest = some (.stream i))) ∧
    (s.voices.requests = [] ∨ s.freeVoice = none → s.arbitrate = s)) ∧
  (∀ (s : State) (i : Fin 12) (v : Fin 16) (g : Segment) (e : ClipEntry), s.freeVoice = some v →
    (∀ w, w ≠ v → (s.voice w).state ≠ .free) → (s.stream i).current = some g → s.store.reload = none →
    s.clip g.clip = some e → (s.clock - g.start).toNat / 60 < g.pages → (s.clock - g.start).toNat / 60 < e.count →
    let plays (t : State) : Prop :=
      t.stream i = { s.stream i with state := .playing, voice := some v } ∧
      (t.voice v).owner = some (.stream i) ∧ (t.voice v).clip = some g.clip ∧
      (t.voice v).startPage = (s.clock - g.start).toNat / 60 ∧
      ((t.voice v).state = .priming ∨ (t.voice v).state = .playing) ∧
      (∀ w, w ≠ v → t.voice w = s.voice w) ∧ ∀ j, j ≠ i → t.stream j = s.stream j
    (s.firstRequest = some (.stream i) →
      plays s.arbitrate ∧ s.arbitrate.voices.requests = s.voices.requests.filter (· ≠ .stream i)) ∧
    (s.running = true → s.voices.requests = [] → (s.stream i).state = .delay → (s.stream i).demand = true →
      reached s.clock g.start = true → ∃ t, exec (.streamDelayEnd i) s = .next t ∧ plays t ∧ t.voices.requests = []))

/-- The free port serves the voice fetch with the shortest queue, then the oldest other read; an erase gives way to
reads and a program does not -/
def Obligations.ReadPortChoice : Prop :=
  ∀ s : State,
    let phased (old new : WritePhase) : State :=
      match s.store.write with
      | some w => if w.phase = old then { s with store := { s.store with write := some { w with phase := new } } } else s
      | none => s
    (∀ r, s.port.serving = some r → s.settlePort = s) ∧
    (∀ w, s.store.write = some w → w.phase = .running →
      ((∃ data tag, w.kind = .pageProgram data tag) ∨ (∃ target tag, w.kind = .lockProgram target tag) ∨
        ∃ record, w.kind = .settingsSave record true) → s.settlePort = s) ∧
    (s.port.serving = none →
      (∀ w, s.store.write = some w → w.phase = .running →
        w.kind = .sectorErase ∨ w.kind = .lockErase ∨ ∃ record, w.kind = .settingsSave record false) →
      (∀ r v serial index, r ∈ s.port.fetches → r.use = .voice v serial index →
        (∀ q ∈ s.port.fetches, q = r ∨ ∃ w serial' index', q.use = .voice w serial' index' ∧
          ((s.voice v).queue.length < (s.voice w).queue.length ∨
            ((s.voice v).queue.length = (s.voice w).queue.length ∧ v < w))) →
        s.settlePort =
          { phased .running .suspended with
            port := { s.port with serving := some r, fetches := s.port.fetches.erase r } }) ∧
      (∀ r rs, s.port.fetches = [] → s.port.second = r :: rs →
        s.settlePort =
          { phased .running .suspended with port := { s.port with serving := some r, second := rs } }) ∧
      (s.port.fetches = [] → s.port.second = [] → s.settlePort = phased .suspended .running))

/-- One fault is recorded exactly while the count is above 0, and the link's queues keep their sizes -/
def Obligations.FaultsAndQueuesStayBounded : Prop :=
  Kept fun s => FaultInv s ∧ LinkInv s

/-- ENTER_SERVICE needs a stationary bus; LEAVE_SERVICE returns to RUN and runs the advance rule -/
def Obligations.ServiceEnteredAndLeft : Prop :=
  (∀ (tag : Byte) (s : State), s.takes 0x30 tag →
    ∃ t, exec (.enterService tag) s = .next t ∧ t.tracker = s.tracker ∧ t.cues = s.cues ∧ t.settings = s.settings ∧
      t.power = s.power ∧ t.store.cells = s.store.cells ∧
      (s.store.mode = .service → EventFrame s t ∧ s.answered t 0x30 tag .ok) ∧
      (s.store.mode = .run → s.tracker.speed < s.settings.crawlSpeed →
        t.store.mode = .service ∧ s.answered t 0x30 tag .ok) ∧
      (s.store.mode = .run → s.settings.crawlSpeed ≤ s.tracker.speed →
        EventFrame s t ∧ s.answered t 0x30 tag .notStationary)) ∧
  (∀ (tag : Byte) (s : State), s.takes 0x31 tag →
    ∃ t, exec (.leaveService tag) s = .next t ∧ t.tracker = s.tracker ∧ t.settings = s.settings ∧ t.power = s.power ∧
      t.store.cells = s.store.cells ∧
      (s.store.mode = .run → EventFrame s t ∧ s.answered t 0x31 tag .ok) ∧
      (s.store.mode = .service → s.store.reload ≠ none → EventFrame s t ∧ s.answered t 0x31 tag .busy) ∧
      (s.store.mode = .service → s.store.reload = none →
        t.store.mode = .run ∧ t.store.motionPending = false ∧ s.answered t 0x31 tag .ok ∧
        t.cues = ({ s with store := { s.store with mode := .run, motionPending := false } }.advance).cues))

/-- STORE_READ posts a read, and its data are answered as the store holds them -/
def Obligations.StoreRead : Prop :=
  (∀ (tag : Byte) (page : Nat) (s : State), s.takes 0x32 tag →
    ∃ t, exec (.storeRead tag page) s = .next t ∧
      (1048575 < page → EventFrame s t ∧ s.answered t 0x32 tag .range) ∧
      (page ≤ 1048575 → EventFrame { s with port := { s.port with second := s.port.second ++ [{ page := page, use := .storeRead tag }] } } t)) ∧
  (∀ (failed : Bool) (page : Nat) (tag : Byte) (s : State), s.running = true →
    s.port.serving = some { page := page, use := .storeRead tag } → s.store.cells.wf = true →
    ∃ t, exec (.storeReadData failed) s = .next t ∧ t.store.cells = s.store.cells ∧
      t.voices.integrity = s.voices.integrity ∧ t.voices.firstFault = s.voices.firstFault ∧ t.tracker = s.tracker ∧
      (failed = true ∨ page / 512 ∈ s.store.interrupted →
        EventFrame { s with port := { s.port with serving := none } } t ∧
        s.answered t 0x32 tag .ok (.storePage none)) ∧
      (failed = false → page / 512 ∉ s.store.interrupted → s.store.erasing (page / 512) = false →
        EventFrame { s with port := { s.port with serving := none } } t ∧
        s.answered t 0x32 tag .ok
          (.storePage (some ((List.range 512).map fun k => s.store.cells.read (page * 512 + k))))))

/-- STORE_PROGRAM passes its checks, a blank check and the port, and changes the bytes of its page alone -/
def Obligations.PageProgrammed : Prop :=
  (∀ (tag : Byte) (page : Nat) (data : List Byte) (s : State), s.takes 0x33 tag → data.length = 512 →
    ∃ t, exec (.storeProgram tag page data) s = .next t ∧
      (s.store.mode = .run → EventFrame s t ∧ s.answered t 0x33 tag .wrongState) ∧
      (s.store.mode = .service → 1048575 < page → EventFrame s t ∧ s.answered t 0x33 tag .range) ∧
      (s.store.mode = .service → page ≤ 1048575 →
        (s.store.reload ≠ none → EventFrame s t ∧ s.answered t 0x33 tag .busy) ∧
        (s.store.reload = none →
          (page / 512 = 0 ∨ page / 512 = 2047 ∨ page / 512 ∈ s.store.locked ∨ page / 512 ∈ s.store.volatileLocks →
            EventFrame s t ∧ s.answered t 0x33 tag .sectorProtected) ∧
          (page / 512 ≠ 0 → page / 512 ≠ 2047 → page / 512 ∉ s.store.locked → page / 512 ∉ s.store.volatileLocks →
            (s.inUse (page / 512) = true → EventFrame s t ∧ s.answered t 0x33 tag .inUse) ∧
            (s.inUse (page / 512) = false →
              EventFrame
                { s with
                  port := { s.port with second := s.port.second ++ [{ page := page, use := .blankCheck tag data }] } } t))))) ∧
  (∀ (failed : Bool) (page : Nat) (tag : Byte) (data : List Byte) (s : State), s.running = true →
    s.port.serving = some { page := page, use := .blankCheck tag data } → s.programCheck page = none →
    s.store.erasing (page / 512) = false →
    ∃ t, exec (.blankCheckData failed) s = .next t ∧
      (blank (s.readPage page failed).1 = false →
        EventFrame { s with port := { s.port with serving := none } } t ∧ s.answered t 0x33 tag .notErased) ∧
      (blank (s.readPage page failed).1 = true → s.store.write ≠ none →
        EventFrame { s with port := { s.port with serving := none } } t ∧ s.answered t 0x33 tag .storeBusy) ∧
      (blank (s.readPage page failed).1 = true → s.store.write = none →
        EventFrame
          { s with
            port := { s.port with serving := none }
            store := { s.store with
              write := some { kind := .pageProgram data tag, sector := page / 512, page := some page, phase := .waiting } } }
          t)) ∧
  (∀ (w : WriteRecord) (s : State), s.running = true → s.store.write = some w → w.phase = .waiting →
    ∃ t, exec .writeBegin s = .next t ∧ EventFrame s t ∧
      (s.port.serving = none → s.port.fetches = [] → s.port.second = [] → s.voices.requests = [] →
        t.store.write = some { w with phase := .running })) ∧
  (∀ (w : WriteRecord) (page : Nat) (tag : Byte) (data : List Byte) (s : State), s.running = true →
    s.power.phaseOver = false → StoreInv s → s.store.write = some w → w.phase = .running →
    w.kind = .pageProgram data tag → w.page = some page →
    ∃ t, exec .pageProgramComplete s = .next t ∧
      EventFrame { s with store := { s.store with write := none, cells := t.store.cells } } t ∧
      s.answered t 0x33 tag .ok ∧ t.store.cells.wf = true ∧
      ∀ a, t.store.cells.read a =
        if a / 512 = page then s.store.cells.read a &&& data.getD (a % 512) 0 else s.store.cells.read a)

/-- STORE_ERASE passes its checks and sets the bytes of its sector alone to 0xFF -/
def Obligations.SectorErased : Prop :=
  (∀ (tag : Byte) (sector : Nat) (s : State), s.takes 0x34 tag →
    ∃ t, exec (.storeErase tag sector) s = .next t ∧
      (s.store.mode = .run → EventFrame s t ∧ s.answered t 0x34 tag .wrongState) ∧
      (s.store.mode = .service → 2047 < sector → EventFrame s t ∧ s.answered t 0x34 tag .range) ∧
      (s.store.mode = .service → sector ≤ 2047 → s.store.reload ≠ none → EventFrame s t ∧ s.answered t 0x34 tag .busy) ∧
      (s.store.mode = .service → sector ≤ 2047 → s.store.reload = none →
        (sector = 0 ∨ sector = 2047 ∨ sector ∈ s.store.locked ∨ sector ∈ s.store.volatileLocks →
          EventFrame s t ∧ s.answered t 0x34 tag .sectorProtected) ∧
        (sector ≠ 0 → sector ≠ 2047 → sector ∉ s.store.locked → sector ∉ s.store.volatileLocks →
          (s.inUse sector = true → EventFrame s t ∧ s.answered t 0x34 tag .inUse) ∧
          (s.inUse sector = false → s.store.write ≠ none → EventFrame s t ∧ s.answered t 0x34 tag .storeBusy) ∧
          (s.inUse sector = false → s.store.write = none →
            s.answered t 0x34 tag .accepted ∧
            EventFrame
              { s with
                store := { s.store with
                  write := some { kind := .sectorErase, sector := sector, page := none, phase := .waiting } } } t)))) ∧
  (∀ (w : WriteRecord) (s : State), s.running = true → s.power.phaseOver = false → s.store.write = some w →
    w.phase = .running → w.kind = .sectorErase →
    ∃ t, exec .sectorEraseComplete s = .next t ∧
      EventFrame
        { s with
          store := { s.store with
            write := none, cells := t.store.cells, interrupted := s.store.interrupted.filter (· ≠ w.sector) } } t ∧
      (s.link.reports.length < 16 → t.holdsReport (.storeDone false w.sector s.clock)) ∧
      ∀ a, t.store.cells.read a = if a / 262144 = w.sector then 0xFF else s.store.cells.read a)

/-- A persistent lock programs a byte of the lock sector and UNLOCK_ALL erases it; volatile locks, lockdowns and the
freeze set their flags alone. The flag of an unknown kind is the model's own (log 22). -/
def Obligations.SectorLocks : Prop :=
  ((∀ (tag : Byte) (known : Bool) (sector : Nat) (s : State), s.takes 0x36 tag →
    ∃ t, exec (.lockPersistent tag known sector) s = .next t ∧
      (known = false ∨ 2047 < sector → EventFrame s t ∧ s.answered t 0x36 tag .range) ∧
      (known = true → sector = 0 ∨ sector = 2047 → EventFrame s t ∧ s.answered t 0x36 tag .sectorProtected) ∧
      (known = true → 0 < sector → sector < 2047 →
        (s.store.freeze = true → EventFrame s t ∧ s.answered t 0x36 tag .frozen) ∧
        (s.store.freeze = false →
          (sector ∈ s.store.locked → EventFrame s t ∧ s.answered t 0x36 tag .ok) ∧
          (sector ∉ s.store.locked → s.store.write ≠ none → EventFrame s t ∧ s.answered t 0x36 tag .storeBusy) ∧
          (sector ∉ s.store.locked → s.store.write = none →
            EventFrame
              { s with
                store := { s.store with
                  write := some
                    { kind := .lockProgram sector tag, sector := 2047, page := some (1048064 + sector / 512)
                      phase := .waiting } } } t)))) ∧
  (∀ (w : WriteRecord) (target : Nat) (tag : Byte) (s : State), s.running = true → s.power.phaseOver = false → StoreInv s →
    s.store.write = some w → w.phase = .running → w.kind = .lockProgram target tag →
    ∃ t, exec .lockProgramComplete s = .next t ∧
      EventFrame { s with store := { s.store with write := none, cells := t.store.cells, locked := t.store.locked } } t ∧
      s.answered t 0x36 tag .ok ∧ (∀ x, x ∈ t.store.locked ↔ x ∈ s.store.locked ∨ x = target) ∧
      ∀ a, t.store.cells.read a = if a = 2047 * 262144 + target then 0 else s.store.cells.read a) ∧
  (∀ (tag : Byte) (s : State), s.takes 0x37 tag →
    ∃ t, exec (.unlockAll tag) s = .next t ∧
      (s.store.freeze = true → EventFrame s t ∧ s.answered t 0x37 tag .frozen) ∧
      (s.store.freeze = false → s.store.write ≠ none → EventFrame s t ∧ s.answered t 0x37 tag .storeBusy) ∧
      (s.store.freeze = false → s.store.write = none →
        s.answered t 0x37 tag .accepted ∧
        EventFrame
          { s with
            store := { s.store with
              write := some { kind := .lockErase, sector := 2047, page := none, phase := .waiting } } } t)) ∧
  (∀ (w : WriteRecord) (s : State), s.running = true → s.power.phaseOver = false → s.store.write = some w →
    w.phase = .running → w.kind = .lockErase →
    ∃ t, exec .lockEraseComplete s = .next t ∧
      EventFrame
        { s with
          store := { s.store with
            write := none, cells := t.store.cells, locked := [], lockFaults := Table.fill 4 false
            interrupted := s.store.interrupted.filter (· ≠ 2047) } } t ∧
      (s.link.reports.length < 16 → t.holdsReport (.storeDone true 2047 s.clock)) ∧
      ∀ a, t.store.cells.read a = if a / 262144 = 2047 then 0xFF else s.store.cells.read a)) ∧
  ((∀ (tag : Byte) (sector : Nat) (s : State), s.takes 0x36 tag →
    (∀ c ∈ [Instr.volatileOn tag sector, Instr.volatileOff tag sector, Instr.lockdown tag sector], ∃ t, exec c s = .next t ∧
      (2047 < sector → s.onlyReplies t ∧ s.answered t 0x36 tag .range) ∧
      (sector = 0 ∨ sector = 2047 → s.onlyReplies t ∧ s.answered t 0x36 tag .sectorProtected)) ∧
    (0 < sector → sector < 2047 →
      (sector ∈ s.store.lockdowns →
        ∀ c ∈ [Instr.volatileOn tag sector, Instr.volatileOff tag sector],
          ∃ t, exec c s = .next t ∧ s.onlyReplies t ∧ s.answered t 0x36 tag .lockedDown) ∧
      (sector ∉ s.store.lockdowns →
        (∃ t, exec (.volatileOn tag sector) s = .next t ∧
          ((∃ w, s.store.write = some w ∧ w.sector = sector) → s.onlyReplies t ∧ s.answered t 0x36 tag .storeBusy) ∧
          ((∀ w, s.store.write = some w → w.sector ≠ sector) →
            s.answered t 0x36 tag .ok ∧
            s.onlyRepliesBut { s with store := { s.store with volatileLocks := t.store.volatileLocks } } t ∧
            ∀ x, x ∈ t.store.volatileLocks ↔ x ∈ s.store.volatileLocks ∨ x = sector)) ∧
        (∃ t, exec (.volatileOff tag sector) s = .next t ∧ s.answered t 0x36 tag .ok ∧
          s.onlyRepliesBut { s with store := { s.store with volatileLocks := t.store.volatileLocks } } t ∧
          ∀ x, x ∈ t.store.volatileLocks ↔ x ∈ s.store.volatileLocks ∧ x ≠ sector)) ∧
      (∃ t, exec (.lockdown tag sector) s = .next t ∧ s.answered t 0x36 tag .ok ∧
        s.onlyRepliesBut { s with store := { s.store with lockdowns := t.store.lockdowns } } t ∧
        ∀ x, x ∈ t.store.lockdowns ↔ x ∈ s.store.lockdowns ∨ x = sector))) ∧
  (∀ (tag : Byte) (s : State), s.takes 0x38 tag →
    ∃ t, exec (.freezeLocks tag) s = .next t ∧
      ((∃ w, s.store.write = some w ∧ (w.kind = .lockErase ∨ ∃ x y, w.kind = .lockProgram x y)) →
        s.onlyReplies t ∧ s.answered t 0x38 tag .storeBusy) ∧
      ((∀ w, s.store.write = some w → w.kind ≠ .lockErase ∧ ∀ x y, w.kind ≠ .lockProgram x y) →
        s.answered t 0x38 tag .ok ∧ s.onlyRepliesBut { s with store := { s.store with freeze := true } } t)))

/-- RELOAD_DIRECTORY posts the 264 directory reads; the last page replaces both caches at once. The rejected count of a
clip directory page whose sector is under erase (clipsOfErasedPage) is the model's choice: its bytes are free values
(log 7). That a resident page under erase joins its buffer as a silent page is deduced (log 7). -/
def Obligations.DirectoryReloaded : Prop :=
  (∀ (tag : Byte) (s : State), s.takes 0x35 tag →
    ∃ t, exec (.reloadDirectory tag) s = .next t ∧
      (s.store.mode = .run → EventFrame s t ∧ s.answered t 0x35 tag .wrongState) ∧
      (s.store.mode = .service → s.store.reload ≠ none → EventFrame s t ∧ s.answered t 0x35 tag .busy) ∧
      (s.store.mode = .service → s.store.reload = none → s.allFree = false →
        EventFrame s t ∧ s.answered t 0x35 tag .inUse) ∧
      (s.store.mode = .service → s.store.reload = none → s.allFree = true →
        s.answered t 0x35 tag .accepted ∧
        EventFrame
          { s with
            store := { s.store with reload := some { routes := [], clips := [], rejected := 0 } }
            port := { s.port with second := s.port.second ++ directoryReads s.inForce.partition } } t)) ∧
  (∀ (failed : Bool) (page index : Nat) (r : Reload) (s : State), s.running = true → s.store.reload = some r →
    (s.port.serving = some { page := page, use := .routeDirectory index } →
      ∃ t, exec (.directoryPageArrival failed) s = .next t ∧ t.store.clips = s.store.clips ∧
        t.cues.directory = s.cues.directory ∧ t.store.cells = s.store.cells ∧ t.tracker = s.tracker ∧
        t.store.reload = some
          { r with
            routes := r.routes ++
              if s.store.erasing (page / 512) = true then []
              else routesOfPage s.inForce.partition.val (s.readPage page failed).1 index }) ∧
    (s.port.serving = some { page := page, use := .clipDirectory index } →
      let found :=
        if s.store.erasing (page / 512) = true then clipsOfErasedPage (s.readPage page failed).1 index
        else clipsOfPage s.inForce.partition.val (s.readPage page failed).1 index
      ∃ t, exec (.directoryPageArrival failed) s = .next t ∧ t.store.cells = s.store.cells ∧ t.tracker = s.tracker ∧
        (s.store.erasing (page / 512) = true → found.1 = []) ∧
        (index ≠ 255 →
          t.store.clips = s.store.clips ∧ t.cues.directory = s.cues.directory ∧
          t.store.reload = some { r with clips := r.clips ++ found.1, rejected := r.rejected + found.2 }) ∧
        (index = 255 → s.store.motionPending = false → (∀ v, (s.voice v).waiting = none) →
          t.store.reload = none ∧ t.store.clips = r.clips ++ found.1 ∧ t.store.rejected = r.rejected + found.2 ∧
          t.cues.directory = r.routes ∧ (∀ b ∈ t.voices.residents, b.pages = []) ∧
          (s.link.reports.length < 16 →
            t.holdsReport
              (.directoryReady (r.clips ++ found.1).length (r.rejected + found.2) r.routes.length s.clock))))) ∧
  (∀ (failed : Bool) (page buffer index : Nat) (r : Resident) (s : State), s.running = true →
    s.port.serving = some { page := page, use := .resident buffer index } → s.voices.residents[buffer]? = some r →
    r.pages.length = index →
    let data := (s.readPage page failed).1
    ∃ t, exec (.residentPageArrival failed) s = .next t ∧ t.store.cells = s.store.cells ∧ t.tracker = s.tracker ∧
      t.voices.residents[buffer]? = some
        { r with
          pages := r.pages ++
            [if readFault data r.clip index = none ∧ s.store.erasing (page / 512) = false then .audio (data.getD [])
              else .silent] })

/-- The store's bytes stay in canonical form, and no accepted program or erase has a reserved or locked sector for its
target -/
def Obligations.StoreStaysSound : Prop :=
  Kept StoreInv

/-- No step changes a byte of a locked sector other than the settings and the lock sector -/
def Obligations.LockedSectorsKeepTheirBytes : Prop :=
  (∀ (s t : State) (a : Nat), StoreInv s → step s = .next t → 1 ≤ a / 262144 → a / 262144 ≤ 2046 →
    (a / 262144 ∈ s.store.locked ∨ a / 262144 ∈ s.store.volatileLocks) →
    t.store.cells.read a = s.store.cells.read a) ∧
  (∀ (s t : State) (a : Nat), StoreInv s → step s = .next t → t.store.cells.read a ≠ s.store.cells.read a →
    ∃ w, s.store.write = some w ∧ w.phase = .running ∧ a / 262144 = w.sector)

/-- The persistent lock map does not change while the freeze is set -/
def Obligations.FrozenLockMapStays : Prop :=
  ∀ s t : State, StoreInv s → s.running = true → s.store.freeze = true → step s = .next t →
    (t.store.freeze = true ∧ t.store.locked = s.store.locked) ∨ t.power.state = .starting ∨ t.power.state = .standby

/-- SET_ZONE sets the fields present; a due ramp advance moves its factor -/
def Obligations.ZonesAndRamps : Prop :=
  (∀ (tag : Byte) (zone : Option ZoneField) (gain : Option Nat) (commentary : Option Bool) (s : State), s.takes 0x24 tag →
    ∃ t, exec (.setZone tag zone gain commentary) s = .next t ∧ t.tracker = s.tracker ∧ t.settings = s.settings ∧
      t.store.cells = s.store.cells ∧ t.power = s.power ∧ t.cues = s.cues ∧
      (zone = some .unknown ∨ (zone = none ∧ (gain ≠ none ∨ commentary ≠ none)) ∨ (∃ g, gain = some g ∧ 15 < g) →
        EventFrame s t ∧ s.answered t 0x24 tag .range) ∧
      ((∀ g, gain = some g → g ≤ 15) →
        (zone = some .upper →
          t.mixer.upper.gain.val = gain.getD s.mixer.upper.gain.val ∧
          t.mixer.upper.commentary = commentary.getD s.mixer.upper.commentary ∧ t.mixer.lower = s.mixer.lower) ∧
        (zone = some .lower →
          t.mixer.lower.gain.val = gain.getD s.mixer.lower.gain.val ∧
          t.mixer.lower.commentary = commentary.getD s.mixer.lower.commentary ∧ t.mixer.upper = s.mixer.upper) ∧
        (zone = some .upper ∨ zone = some .lower ∨ (zone = none ∧ gain = none ∧ commentary = none) →
          t.mixer.need = (t.mixer.lower.commentary || (t.mixer.upper.commentary && !s.mixer.quiet)) ∧
          s.answered t 0x24 tag .ok
            (.zones t.mixer.upper t.mixer.lower s.mixer.quiet t.mixer.need s.mixer.sounding s.mixer.duck)))) ∧
  (∀ (r : Ramp) (s : State), s.running = true →
    (s.mixer.duckRamp = some r → reached s.clock (r.startTime + BitVec.ofNat 32 (r.position + 1)) = true →
      ∃ t, exec .duckRampAdvance s = .next t ∧
        EventFrame
          { s with
            mixer := { s.mixer with
              duck := ((r.start : Int) + Int.tdiv (((r.target : Int) - r.start) * (r.position + 1)) r.length).toNat
              duckRamp := if r.position + 1 < r.length then some { r with position := r.position + 1 } else none } } t) ∧
    (s.mixer.outputRamp = some r → reached s.clock (r.startTime + BitVec.ofNat 32 (r.position + 1)) = true →
      ∃ t, exec .outputRampAdvance s = .next t ∧
        EventFrame
          { s with
            mixer := { s.mixer with
              output := ((r.start : Int) + Int.tdiv (((r.target : Int) - r.start) * (r.position + 1)) r.length).toNat
              outputRamp := if r.position + 1 < r.length then some { r with position := r.position + 1 } else none } } t))

/-- A slot's and a zone's mix are the saturated sums of the voices and the microphone under their factors, with gain,
quiet zone, duck and output factor. That the mixes are taken at the k-th sample after the last millisecond is the
model's choice (log 11). -/
def Obligations.MixesFormed : Prop :=
  (∀ (x : Int) (f : Nat), 32768 * applyFactor x f ≤ x * f ∧ x * f < 32768 * (applyFactor x f + 1)) ∧
  (List.range 16).map gainFactor =
    [32767, 23198, 16423, 11627, 8231, 5827, 4125, 2920, 2068, 1464, 1036, 734, 519, 368, 260, 0] ∧
  (∀ (v : Voice) (k : Nat),
    let x := v.sounding.getD k v.hold
    (v.state = .free ∨ v.state = .priming → v.sample k = 0) ∧ (v.state = .playing → v.sample k = x) ∧
    (v.state = .stopping → v.sample k = applyFactor x (32767 * (20 - v.fade) / 20))) ∧
  (∀ (s : State) (k : Nat) (mic : Int),
    let clamp (x : Int) : Int := max (-32768) (min 32767 x)
    let line (x : Int) : Int := if s.mixer.output < 32767 then applyFactor x s.mixer.output else x
    let live : Int := if s.mixer.microphone = true then applyFactor mic 32767 else 0
    let sum (factor : Destination → Option Nat) : Int :=
      ((List.finRange 16).map fun v =>
        ((s.mixer.destinations.get v).bind factor).elim 0 fun f => applyFactor ((s.voice v).sample k) f).sum
    (∀ i, s.slotMix i k mic =
      line (clamp (live + sum fun d =>
        match d.kind with
        | .commentary => if i ∈ d.slots then some s.mixer.duck else none
        | .announcement _ => if i ∈ d.slots then some 32767 else none
        | .chime _ => some 32767))) ∧
    s.zoneMix false k mic =
      line (applyFactor
        (clamp (live + sum fun d =>
          match d.kind with
          | .commentary => if d.zone = true ∧ s.mixer.lower.commentary = true then some s.mixer.duck else none
          | .announcement _ => if d.zone = true then some 32767 else none
          | .chime _ => some 32767))
        (gainFactor (15 - s.mixer.lower.gain.val))) ∧
    s.zoneMix true k mic =
      line (applyFactor
        (clamp (live + sum fun d =>
          match d.kind with
          | .commentary =>
            if d.zone = true ∧ s.mixer.upper.commentary = true ∧ s.mixer.quiet = false then some s.mixer.duck else none
          | .announcement c => if d.zone = true ∧ (c = .notice → s.mixer.quiet = false) then some 32767 else none
          | .chime _ => if s.mixer.quiet = true then none else some 32767))
        (gainFactor (15 - s.mixer.upper.gain.val))) ∧
    (s.mixer.upper.gain = 0 → s.zoneMix true k mic = 0) ∧ (s.mixer.lower.gain = 0 → s.zoneMix false k mic = 0))

/-- SET_LIGHT, APPLY_SCENE, CLEAR_SCENE and SET_MASTER change their layer or the master, and the outputs follow -/
def Obligations.LightRequests : Prop :=
  let follows (s t : State) (i : Fin 16) (ramp : Nat) : Prop :=
    let old := s.lights.channels.get i
    let new := t.lights.channels.get i
    let shown := new.scene.getD old.base
    new.duty = new.dutyNow s.lights.master s.lights.blank ∧
    (∀ l, old.announce = some l → new.output = l.level ∧ new.ramp = none) ∧
    (old.announce = none → shown = old.target → new.output = old.output ∧ new.ramp = old.ramp) ∧
    (old.announce = none → shown ≠ old.target → ramp = 0 → new.output = shown ∧ new.ramp = none) ∧
    (old.announce = none → shown ≠ old.target → 0 < ramp →
      new.output = old.output ∧
      new.ramp = some
        { start := old.output, target := shown, length := (ramp + 9) / 10, position := 0, startTime := s.clock })
  (∀ (tag : Byte) (n level ramp : Nat) (s : State), s.takes 0x28 tag →
    ∃ t, exec (.setLight tag n level ramp) s = .next t ∧ s.onlyRepliesBut { s with lights := t.lights } t ∧
      (15 < n ∨ 4095 < level ∨ 65535 < ramp → t.lights = s.lights ∧ s.answered t 0x28 tag .range) ∧
      (∀ i : Fin 16, i.val = n → level ≤ 4095 → ramp ≤ 65535 →
        let old := s.lights.channels.get i
        let new := t.lights.channels.get i
        t.lights.master = s.lights.master ∧ t.lights.cls = s.lights.cls ∧ t.lights.blank = s.lights.blank ∧
        (∀ j, j ≠ i → t.lights.channels.get j = s.lights.channels.get j) ∧
        new.base = level ∧ new.scene = old.scene ∧ new.announce = old.announce ∧
        s.answered t 0x28 tag .ok
          (.light { channel := new, mode := s.inForce.driverModes.get i, winner := new.winner }) ∧
        (old.announce = none → old.scene = none → level ≠ old.target → 0 < ramp →
          new.output = old.output ∧
          new.ramp = some
            { start := old.output, target := level, length := (ramp + 9) / 10, position := 0, startTime := s.clock }) ∧
        (old.announce = none → old.scene = none → level ≠ old.target → ramp = 0 → new.output = level ∧ new.ramp = none) ∧
        (old.announce = none → old.scene = none → level = old.target →
          new.output = old.output ∧ new.ramp = old.ramp) ∧
        (old.announce = none → old.scene ≠ none → old.winning = old.target →
          new.output = old.output ∧ new.ramp = old.ramp) ∧
        (∀ l, old.announce = some l → new.output = l.level ∧ new.ramp = none) ∧
        new.duty = new.dutyNow s.lights.master s.lights.blank)) ∧
  (∀ (tag : Byte) (n : Nat) (s : State), s.takes 0x29 tag →
    ∃ t, exec (.applyScene tag n) s = .next t ∧ s.onlyRepliesBut { s with lights := t.lights } t ∧
      (s.cues.routeState ≠ .ready → t.lights = s.lights ∧ s.answered t 0x29 tag .wrongState) ∧
      (s.cues.routeState = .ready → s.cues.scenes.length ≤ n → t.lights = s.lights ∧ s.answered t 0x29 tag .notFound) ∧
      (∀ scene, s.cues.routeState = .ready → s.cues.scenes[n]? = some scene →
        s.answered t 0x29 tag .ok ∧ t.lights.master = s.lights.master ∧
        ∀ i, (t.lights.channels.get i).base = (s.lights.channels.get i).base ∧
          (t.lights.channels.get i).announce = (s.lights.channels.get i).announce ∧
          (t.lights.channels.get i).scene =
            (scene.find? fun e : SceneEntry => decide (e.channel = i)).map SceneEntry.level ∧
          follows s t i ((scene.find? fun e : SceneEntry => decide (e.channel = i)).elim 500 SceneEntry.ramp))) ∧
  (∀ (tag : Byte) (s : State), s.takes 0x2A tag →
    ∃ t, exec (.clearScene tag) s = .next t ∧ s.onlyRepliesBut { s with lights := t.lights } t ∧
      s.answered t 0x2A tag .ok ∧
      ∀ i, (t.lights.channels.get i).base = (s.lights.channels.get i).base ∧
        (t.lights.channels.get i).announce = (s.lights.channels.get i).announce ∧
        (t.lights.channels.get i).scene = none ∧ follows s t i 500) ∧
  (∀ (tag : Byte) (level : Nat) (s : State), s.takes 0x2B tag →
    ∃ t, exec (.setMaster tag level) s = .next t ∧ s.onlyRepliesBut { s with lights := t.lights } t ∧
      (4095 < level → t.lights = s.lights ∧ s.answered t 0x2B tag .range) ∧
      (level ≤ 4095 → s.answered t 0x2B tag .ok ∧ t.lights.master = level ∧
        ∀ i, t.lights.channels.get i =
          { s.lights.channels.get i with duty := (s.lights.channels.get i).dutyNow level s.lights.blank }))

/-- A due light ramp advances its channel; a flash phase that has run 400 ms gives way to the next -/
def Obligations.RampsAndFlashes : Prop :=
  ∀ (i : Fin 16) (s : State), s.running = true → s.voices.requests = [] → s.lights.cls = s.ann.announceClass →
    let old := s.lights.channels.get i
    (∃ t, exec (.lightRampAdvance i) s = .next t ∧ EventFrame { s with lights := t.lights } t ∧
      (∀ j, j ≠ i → t.lights.channels.get j = s.lights.channels.get j) ∧
      ∀ r, old.ramp = some r → reached s.clock (r.startTime + BitVec.ofNat 32 (10 * (r.position + 1))) = true →
        let new := t.lights.channels.get i
        new.output = ((r.start : Int) + Int.tdiv (((r.target : Int) - r.start) * (r.position + 1)) r.length).toNat ∧
        new.ramp = (if r.position + 1 < r.length then some { r with position := r.position + 1 } else none) ∧
        new.layers = old.layers ∧ new.announce = old.announce ∧ new.duty = new.dutyNow s.lights.master s.lights.blank) ∧
    (∃ t, exec (.flashPhaseEnd i) s = .next t ∧ EventFrame { s with lights := t.lights } t ∧
      (∀ j, j ≠ i → t.lights.channels.get j = s.lights.channels.get j) ∧
      ∀ on since finishing, old.announce = some (.flash on since finishing) → reached s.clock (since + 400) = true →
        let new := t.lights.channels.get i
        new.duty = new.dutyNow s.lights.master s.lights.blank ∧ new.layers = old.layers ∧
        (on = true → new.announce = some (.flash false s.clock finishing) ∧ new.output = 0 ∧ new.ramp = none) ∧
        (on = false → finishing = false →
          new.announce = some (.flash true s.clock false) ∧ new.output = 4095 ∧ new.ramp = none) ∧
        (on = false → finishing = true →
          (s.lights.cls = .stop → s.lights.stopGroup.getLsbD i.val = true →
            new.announce = some .steady ∧ new.output = 4095 ∧ new.ramp = none) ∧
          (s.lights.cls ≠ .stop ∨ s.lights.stopGroup.getLsbD i.val = false →
            new.announce = none ∧ new.output = old.output ∧
            (old.ramp = none → old.scene.getD old.base ≠ old.output →
              new.ramp = some
                { start := old.output, target := old.scene.getD old.base, length := 30, position := 0
                  startTime := s.clock }))))

/-- Light levels stay within 0..4095, and every effective duty is what its rule forms -/
def Obligations.LightsStayWithinTheMaster : Prop :=
  Kept LightInv ∧
  ∀ s i, LightInv s → (s.lights.channels.get i).announce = none → (s.lights.channels.get i).duty ≤ s.lights.master

/-- The receiver hunts, tests the length, gathers the frame and queues a good one, and drops what is damaged, late or in
error -/
def Obligations.FramesReceived : Prop :=
  ∀ s : State, s.running = true →
    (∀ b, s.link.receiver = .hunt → b ≠ 0xA5 →
      ∃ t, exec (.linkByte b) s = .next t ∧ t = { s with link := t.link } ∧ t.link.receiver = .hunt ∧
        t.link.input = s.link.input ∧
        t.link.counters = { s.link.counters with noiseBytes := min (s.link.counters.noiseBytes + 1) 65535 }) ∧
    (s.link.receiver = .hunt → s.power.state = .awake →
      ∃ t, exec (.linkByte 0xA5) s = .next t ∧ t = { s with link := t.link } ∧ t.link.receiver = .length [] ∧
        t.link.lastByte = s.clock ∧ t.link.input = s.link.input ∧ t.link.counters = s.link.counters) ∧
    (∀ b, s.link.receiver = .length [] →
      ∃ t, exec (.linkByte b) s = .next t ∧ t = { s with link := t.link } ∧ t.link.receiver = .length [b] ∧
        t.link.lastByte = s.clock ∧ t.link.input = s.link.input ∧ t.link.counters = s.link.counters) ∧
    (∀ n received b, s.link.receiver = .frame n received → received.length + 1 < n + 2 →
      ∃ t, exec (.linkByte b) s = .next t ∧ t = { s with link := t.link } ∧
        t.link.receiver = .frame n (received ++ [b]) ∧ t.link.lastByte = s.clock ∧ t.link.input = s.link.input ∧
        t.link.counters = s.link.counters) ∧
    (∀ x b, s.link.receiver = .length [x] →
      ∃ t, exec (.linkByte b) s = .next t ∧ t = { s with link := t.link } ∧ t.link.input = s.link.input ∧
        (2 ≤ x.toNat * 256 + b.toNat → x.toNat * 256 + b.toNat ≤ 602 →
          t.link.receiver = .frame (x.toNat * 256 + b.toNat) [] ∧ t.link.counters = s.link.counters) ∧
        (x.toNat * 256 + b.toNat < 2 ∨ 602 < x.toNat * 256 + b.toNat →
          t.link.receiver = .hunt ∧
          t.link.counters = { s.link.counters with lengthErrors := min (s.link.counters.lengthErrors + 1) 65535 })) ∧
    (∀ n received b, s.link.receiver = .frame n received → received.length = n + 1 →
      let frame := received ++ [b]
      let good := field frame n 2 = (crc16 (beBytes 2 n ++ frame.take n)).toNat
      ∃ t, exec (.linkByte b) s = .next t ∧ t = { s with link := t.link } ∧ t.link.receiver = .hunt ∧
        (¬good → t.link.input = s.link.input ∧
          t.link.counters = { s.link.counters with crcErrors := min (s.link.counters.crcErrors + 1) 65535 }) ∧
        (∀ kind tag body, good → frame.take n = kind :: tag :: body →
          t.link.counters.goodFrames = s.link.counters.goodFrames + 1 ∧
          (s.link.input.length < 4 →
            t.link.input = s.link.input ++ [{ kind := kind, tag := tag, body := body, taken := false }]) ∧
          (4 ≤ s.link.input.length → t.link.input = s.link.input ∧
            (s.link.busy.length < 4 →
              let refusal : Reply :=
                { kind := if kind.toNat < 0x80 then kind + 0x80 else 0xFF, tag := tag, code := .linkBusy
                  order := s.link.formed, byLink := true }
              (refusal ∈ t.link.busy ∨ t.link.sending = some (.reply refusal)) ∧
              t.link.formed = s.link.formed + 1 ∧
              t.link.counters.busyRefusals = min (s.link.counters.busyRefusals + 1) 65535) ∧
            (4 ≤ s.link.busy.length →
              t.link.formed = s.link.formed ∧
              t.link.counters.busyUnanswered = min (s.link.counters.busyUnanswered + 1) 65535)))) ∧
    (∃ t, exec .lineErrorByte s = .next t ∧ t = { s with link := t.link } ∧ t.link.receiver = .hunt ∧
      t.link.input = s.link.input ∧
      t.link.counters = { s.link.counters with lineErrors := min (s.link.counters.lineErrors + 1) 65535 }) ∧
    (s.link.receiver ≠ .hunt → reached s.clock (s.link.lastByte + 20) = true →
      ∃ t, exec .frameTimeout s = .next t ∧ t = { s with link := t.link } ∧ t.link.receiver = .hunt ∧
        t.link.input = s.link.input ∧
        t.link.counters = { s.link.counters with timeouts := min (s.link.counters.timeouts + 1) 65535 })

/-- Requests are taken in their turn, unknown kinds and bad lengths are answered; a frame sent makes room, the next
follows in order, and RESTART follows its reply. That a request out of its turn changes nothing is deduced (logs 4 and
18). -/
def Obligations.FramesSentAndRestart : Prop :=
  ((∀ (c : Instr) (kind : Nat) (tag : Byte) (s : State), requestOf c = some (kind, tag) →
    (s.turnOf (BitVec.ofNat 8 kind) tag = false → exec c s = .next s) ∧
    (∀ q, s.turnOf (BitVec.ofNat 8 kind) tag = true → s.link.nextRequest = some q → admits kind q.body = false →
      ∃ t, exec c s = .next t ∧ s.onlyReplies t ∧ s.answered t kind tag .badLength)) ∧
  (∀ (kind tag : Byte) (s : State),
    s.running = false ∨ s.replyOwed = true ∨
        (∃ q, s.link.nextRequest = some q ∧ (q.kind ≠ kind ∨ q.tag ≠ tag)) ↔
      s.turnOf kind tag = false) ∧
  (∀ (tag kind : Byte) (s : State), s.turnOf kind tag = true → kind.toNat ∉ requestKinds →
    ∃ t, exec (.badKind tag kind) s = .next t ∧ s.onlyReplies t ∧
      t.holdsReply
        { kind := if kind.toNat < 0x80 then kind + 0x80 else 0xFF, tag := tag, code := .badKind, order := s.link.formed }) ∧
  (∀ (kind : Nat) (body : List Byte),
    (kind ∈ emptyKinds → (admits kind body = true ↔ body = [])) ∧
    (kind = 0x04 → (admits kind body = true ↔ body.length = 1)) ∧
    (kind ∉ emptyKinds → kind ≠ 0x01 → kind ≠ 0x24 → admits kind [] = false)) ∧
  (∀ (r : Report) (s : State), s.link.sending = some (.report r) →
    ∃ t, exec .frameSent s = .next t ∧ t = { s with link := t.link } ∧
      t.link.counters = { s.link.counters with reportsSent := s.link.counters.reportsSent + 1 } ∧
      t.link.input = s.link.input ∧
      (∀ a as, s.link.busy = [] → s.link.replies = a :: as → t.link.sending = some (.reply a) ∧ t.link.replies = as) ∧
      (∀ a as, s.link.busy = a :: as → s.link.replies = [] → t.link.sending = some (.reply a) ∧ t.link.busy = as) ∧
      (∀ a as b bs, s.link.busy = a :: as → s.link.replies = b :: bs →
        t.link.sending = some (.reply (if a.order < b.order then a else b))) ∧
      (∀ p ps, s.link.busy = [] → s.link.replies = [] → s.link.reports = p :: ps →
        t.link.sending = some (.report p) ∧ t.link.reports = ps) ∧
      (s.link.busy = [] → s.link.replies = [] → s.link.reports = [] → t.link.sending = none)) ∧
  (∀ (r : Reply) (q : QueuedRequest) (rest : List QueuedRequest) (s : State), s.link.sending = some (.reply r) →
    ¬(r.kind = 0x82 ∧ r.code = .ok) → r.byLink = false → s.link.input = q :: rest → q.taken = true →
    r.kind = replyKind q.kind → r.tag = q.tag →
    ∃ t, exec .frameSent s = .next t ∧ t = { s with link := t.link } ∧ t.link.input = rest ∧
      t.link.counters = s.link.counters)) ∧
  ((∀ (tag : Byte) (s : State), s.takes 0x02 tag →
    ∃ t, exec (.restart tag) s = .next t ∧ s.onlyReplies t ∧ s.answered t 0x02 tag .ok) ∧
  (∀ (r : Reply) (s : State), s.link.sending = some (.reply r) → r.kind = 0x82 → r.code = .ok →
    ∃ t, exec .frameSent s = .next t ∧ t.power.state = .starting ∧ t.power.kind = .restart ∧ t.power.latches = {} ∧
      t.power.defaulted = false ∧ t.settings = s.settings ∧ t.inForce = s.settings.inForce ∧
      t.store.cells = s.store.cells ∧ t.link = {} ∧ t.tracker = {}))

/-- Every frame the part sends carries its length, kind, tag and check, and a receiver of the part's own rules takes it
as a good frame. Where the spec lays out no fields the body is a free value (log 27). -/
def Obligations.FramesOnTheLine : Prop :=
  (∀ (l : Link) (kind tag : Byte) (body : List Byte), body.length ≤ 600 →
    ∃ bytes, frameBytes kind tag body = 0xA5 :: bytes ∧ bytes.length = body.length + 6 ∧
      bytes.foldl Link.gather { l with receiver := .length [] } =
        Link.takeFrame { l with receiver := .hunt } kind tag body) ∧
  (∀ (r : Reply), r.data = .none →
    (OutFrame.reply r).bytes =
      [0xA5, 0x00, 0x03, r.kind, r.tag, BitVec.ofNat 8 r.code.value] ++
        beBytes 2 (crc16 [0x00, 0x03, r.kind, r.tag, BitVec.ofNat 8 r.code.value]).toNat) ∧
  (∀ (r : Reply) (id : Byte) (active : List Byte) (inForce : Option (List Byte)), r.data = .setting id active inForce →
    (OutFrame.reply r).bytes =
      frameBytes r.kind r.tag (BitVec.ofNat 8 r.code.value :: id :: active ++ inForce.getD [])) ∧
  (∀ r : Reply, ∃ fields, (OutFrame.reply r).bytes = frameBytes r.kind r.tag (BitVec.ofNat 8 r.code.value :: fields)) ∧
  (∀ r : Report, ∃ fields, (OutFrame.report r).bytes = frameBytes r.kind 0 fields) ∧
  (∀ (kind : StartKind) (latches : Latches) (view : PositionView) (reason : RouteFailure) (cue : CueEvent)
      (cueKind : CueKind) (ann : AnnEvent) (cls : AnnClass) (source : Source) (box : Fin 16) (counts : Table Nat 12)
      (commentary : CommentaryEvent) (fault : FaultRecord) (wake : WakeCause) (cause : EntryCause) (mask : BitVec 12)
      (found : Option (Table Bool 4)) (number : Option Nat) (flag : Bool) (n : Nat) (now : Clock),
    [Report.started kind flag latches n n now, .position view, .routeReady n n n n mask, .routeFailed n reason,
        .cueEvent cue n cueKind flag n now, .announceEvent ann cls source number now, .boxEvent box found now,
        .listeners counts now, .commentaryEvent commentary n now, .storeDone flag n now, .storeFault fault,
        .directoryReady n n n now, .serviceLeft n now, .settingsSaved now, .standbyAborted wake cause now].map Report.kind =
      [0x40, 0x41, 0x42, 0x43, 0x44, 0x45, 0x46, 0x47, 0x48, 0x49, 0x4A, 0x4B, 0x4C, 0x4D, 0x4E]) ∧
  ([ResultCode.ok, .accepted, .badKind, .badLength, .range, .wrongState, .notFound, .sectorProtected, .inUse, .queueFull,
      .stale, .outOfWindow, .linkBusy, .storeBusy, .notStationary, .frozen, .lockedDown, .linkDepth, .notErased, .busy,
      .wakePending, .merged].map ResultCode.value = List.range 22) ∧
  (∀ l : Link, (l.sending = none → l.lineBytes = []) ∧ ∀ f, l.sending = some f → l.lineBytes = f.bytes)

end Statements
end

