-- ==== Sys2Proof/Laws/State.lean ====
section
/-! SUPPORT. The field lemmas of the state's updates: what a field holds after an update of another, and the written field
itself where an update writes all of it. -/

namespace Sys2Proof.Machine

variable (s : State)

/-! setVoice -/

@[simp] theorem setVoice_pending (v : Fin 16) (f : Voice → Voice) : (s.setVoice v f).pending = s.pending := rfl
@[simp] theorem setVoice_clock (v : Fin 16) (f : Voice → Voice) : (s.setVoice v f).clock = s.clock := rfl
@[simp] theorem setVoice_pulseTimer (v : Fin 16) (f : Voice → Voice) : (s.setVoice v f).pulseTimer = s.pulseTimer := rfl
@[simp] theorem setVoice_windowDue (v : Fin 16) (f : Voice → Voice) : (s.setVoice v f).windowDue = s.windowDue := rfl
@[simp] theorem setVoice_pollDue (v : Fin 16) (f : Voice → Voice) : (s.setVoice v f).pollDue = s.pollDue := rfl
@[simp] theorem setVoice_freeSerial (v : Fin 16) (f : Voice → Voice) : (s.setVoice v f).freeSerial = s.freeSerial := rfl
@[simp] theorem setVoice_tracker (v : Fin 16) (f : Voice → Voice) : (s.setVoice v f).tracker = s.tracker := rfl
@[simp] theorem setVoice_cues (v : Fin 16) (f : Voice → Voice) : (s.setVoice v f).cues = s.cues := rfl
@[simp] theorem setVoice_seats (v : Fin 16) (f : Voice → Voice) : (s.setVoice v f).seats = s.seats := rfl
@[simp] theorem setVoice_comm (v : Fin 16) (f : Voice → Voice) : (s.setVoice v f).comm = s.comm := rfl
@[simp] theorem setVoice_ann (v : Fin 16) (f : Voice → Voice) : (s.setVoice v f).ann = s.ann := rfl
@[simp] theorem setVoice_port (v : Fin 16) (f : Voice → Voice) : (s.setVoice v f).port = s.port := rfl
@[simp] theorem setVoice_store (v : Fin 16) (f : Voice → Voice) : (s.setVoice v f).store = s.store := rfl
@[simp] theorem setVoice_mixer (v : Fin 16) (f : Voice → Voice) : (s.setVoice v f).mixer = s.mixer := rfl
@[simp] theorem setVoice_lights (v : Fin 16) (f : Voice → Voice) : (s.setVoice v f).lights = s.lights := rfl
@[simp] theorem setVoice_link (v : Fin 16) (f : Voice → Voice) : (s.setVoice v f).link = s.link := rfl
@[simp] theorem setVoice_power (v : Fin 16) (f : Voice → Voice) : (s.setVoice v f).power = s.power := rfl
@[simp] theorem setVoice_settings (v : Fin 16) (f : Voice → Voice) : (s.setVoice v f).settings = s.settings := rfl
@[simp] theorem setVoice_inForce (v : Fin 16) (f : Voice → Voice) : (s.setVoice v f).inForce = s.inForce := rfl

/-! setStream -/

@[simp] theorem setStream_pending (i : Fin 12) (f : Stream → Stream) : (s.setStream i f).pending = s.pending := rfl
@[simp] theorem setStream_clock (i : Fin 12) (f : Stream → Stream) : (s.setStream i f).clock = s.clock := rfl
@[simp] theorem setStream_pulseTimer (i : Fin 12) (f : Stream → Stream) : (s.setStream i f).pulseTimer = s.pulseTimer := rfl
@[simp] theorem setStream_windowDue (i : Fin 12) (f : Stream → Stream) : (s.setStream i f).windowDue = s.windowDue := rfl
@[simp] theorem setStream_pollDue (i : Fin 12) (f : Stream → Stream) : (s.setStream i f).pollDue = s.pollDue := rfl
@[simp] theorem setStream_freeSerial (i : Fin 12) (f : Stream → Stream) : (s.setStream i f).freeSerial = s.freeSerial := rfl
@[simp] theorem setStream_tracker (i : Fin 12) (f : Stream → Stream) : (s.setStream i f).tracker = s.tracker := rfl
@[simp] theorem setStream_cues (i : Fin 12) (f : Stream → Stream) : (s.setStream i f).cues = s.cues := rfl
@[simp] theorem setStream_seats (i : Fin 12) (f : Stream → Stream) : (s.setStream i f).seats = s.seats := rfl
@[simp] theorem setStream_ann (i : Fin 12) (f : Stream → Stream) : (s.setStream i f).ann = s.ann := rfl
@[simp] theorem setStream_voices (i : Fin 12) (f : Stream → Stream) : (s.setStream i f).voices = s.voices := rfl
@[simp] theorem setStream_port (i : Fin 12) (f : Stream → Stream) : (s.setStream i f).port = s.port := rfl
@[simp] theorem setStream_store (i : Fin 12) (f : Stream → Stream) : (s.setStream i f).store = s.store := rfl
@[simp] theorem setStream_mixer (i : Fin 12) (f : Stream → Stream) : (s.setStream i f).mixer = s.mixer := rfl
@[simp] theorem setStream_lights (i : Fin 12) (f : Stream → Stream) : (s.setStream i f).lights = s.lights := rfl
@[simp] theorem setStream_link (i : Fin 12) (f : Stream → Stream) : (s.setStream i f).link = s.link := rfl
@[simp] theorem setStream_power (i : Fin 12) (f : Stream → Stream) : (s.setStream i f).power = s.power := rfl
@[simp] theorem setStream_settings (i : Fin 12) (f : Stream → Stream) : (s.setStream i f).settings = s.settings := rfl
@[simp] theorem setStream_inForce (i : Fin 12) (f : Stream → Stream) : (s.setStream i f).inForce = s.inForce := rfl

/-! setAnn -/

@[simp] theorem setAnn_pending (f : Announcements → Announcements) : (s.setAnn f).pending = s.pending := rfl
@[simp] theorem setAnn_clock (f : Announcements → Announcements) : (s.setAnn f).clock = s.clock := rfl
@[simp] theorem setAnn_pulseTimer (f : Announcements → Announcements) : (s.setAnn f).pulseTimer = s.pulseTimer := rfl
@[simp] theorem setAnn_windowDue (f : Announcements → Announcements) : (s.setAnn f).windowDue = s.windowDue := rfl
@[simp] theorem setAnn_pollDue (f : Announcements → Announcements) : (s.setAnn f).pollDue = s.pollDue := rfl
@[simp] theorem setAnn_freeSerial (f : Announcements → Announcements) : (s.setAnn f).freeSerial = s.freeSerial := rfl
@[simp] theorem setAnn_tracker (f : Announcements → Announcements) : (s.setAnn f).tracker = s.tracker := rfl
@[simp] theorem setAnn_cues (f : Announcements → Announcements) : (s.setAnn f).cues = s.cues := rfl
@[simp] theorem setAnn_seats (f : Announcements → Announcements) : (s.setAnn f).seats = s.seats := rfl
@[simp] theorem setAnn_comm (f : Announcements → Announcements) : (s.setAnn f).comm = s.comm := rfl
@[simp] theorem setAnn_voices (f : Announcements → Announcements) : (s.setAnn f).voices = s.voices := rfl
@[simp] theorem setAnn_port (f : Announcements → Announcements) : (s.setAnn f).port = s.port := rfl
@[simp] theorem setAnn_store (f : Announcements → Announcements) : (s.setAnn f).store = s.store := rfl
@[simp] theorem setAnn_mixer (f : Announcements → Announcements) : (s.setAnn f).mixer = s.mixer := rfl
@[simp] theorem setAnn_lights (f : Announcements → Announcements) : (s.setAnn f).lights = s.lights := rfl
@[simp] theorem setAnn_link (f : Announcements → Announcements) : (s.setAnn f).link = s.link := rfl
@[simp] theorem setAnn_power (f : Announcements → Announcements) : (s.setAnn f).power = s.power := rfl
@[simp] theorem setAnn_settings (f : Announcements → Announcements) : (s.setAnn f).settings = s.settings := rfl
@[simp] theorem setAnn_inForce (f : Announcements → Announcements) : (s.setAnn f).inForce = s.inForce := rfl

/-! setActive -/

@[simp] theorem setActive_pending (f : Entry → Entry) : (s.setActive f).pending = s.pending := rfl
@[simp] theorem setActive_clock (f : Entry → Entry) : (s.setActive f).clock = s.clock := rfl
@[simp] theorem setActive_pulseTimer (f : Entry → Entry) : (s.setActive f).pulseTimer = s.pulseTimer := rfl
@[simp] theorem setActive_windowDue (f : Entry → Entry) : (s.setActive f).windowDue = s.windowDue := rfl
@[simp] theorem setActive_pollDue (f : Entry → Entry) : (s.setActive f).pollDue = s.pollDue := rfl
@[simp] theorem setActive_freeSerial (f : Entry → Entry) : (s.setActive f).freeSerial = s.freeSerial := rfl
@[simp] theorem setActive_tracker (f : Entry → Entry) : (s.setActive f).tracker = s.tracker := rfl
@[simp] theorem setActive_cues (f : Entry → Entry) : (s.setActive f).cues = s.cues := rfl
@[simp] theorem setActive_seats (f : Entry → Entry) : (s.setActive f).seats = s.seats := rfl
@[simp] theorem setActive_comm (f : Entry → Entry) : (s.setActive f).comm = s.comm := rfl
@[simp] theorem setActive_voices (f : Entry → Entry) : (s.setActive f).voices = s.voices := rfl
@[simp] theorem setActive_port (f : Entry → Entry) : (s.setActive f).port = s.port := rfl
@[simp] theorem setActive_store (f : Entry → Entry) : (s.setActive f).store = s.store := rfl
@[simp] theorem setActive_mixer (f : Entry → Entry) : (s.setActive f).mixer = s.mixer := rfl
@[simp] theorem setActive_lights (f : Entry → Entry) : (s.setActive f).lights = s.lights := rfl
@[simp] theorem setActive_link (f : Entry → Entry) : (s.setActive f).link = s.link := rfl
@[simp] theorem setActive_power (f : Entry → Entry) : (s.setActive f).power = s.power := rfl
@[simp] theorem setActive_settings (f : Entry → Entry) : (s.setActive f).settings = s.settings := rfl
@[simp] theorem setActive_inForce (f : Entry → Entry) : (s.setActive f).inForce = s.inForce := rfl

/-! setCues -/

@[simp] theorem setCues_pending (f : List Cue → List Cue) : (s.setCues f).pending = s.pending := rfl
@[simp] theorem setCues_clock (f : List Cue → List Cue) : (s.setCues f).clock = s.clock := rfl
@[simp] theorem setCues_pulseTimer (f : List Cue → List Cue) : (s.setCues f).pulseTimer = s.pulseTimer := rfl
@[simp] theorem setCues_windowDue (f : List Cue → List Cue) : (s.setCues f).windowDue = s.windowDue := rfl
@[simp] theorem setCues_pollDue (f : List Cue → List Cue) : (s.setCues f).pollDue = s.pollDue := rfl
@[simp] theorem setCues_freeSerial (f : List Cue → List Cue) : (s.setCues f).freeSerial = s.freeSerial := rfl
@[simp] theorem setCues_tracker (f : List Cue → List Cue) : (s.setCues f).tracker = s.tracker := rfl
@[simp] theorem setCues_seats (f : List Cue → List Cue) : (s.setCues f).seats = s.seats := rfl
@[simp] theorem setCues_comm (f : List Cue → List Cue) : (s.setCues f).comm = s.comm := rfl
@[simp] theorem setCues_ann (f : List Cue → List Cue) : (s.setCues f).ann = s.ann := rfl
@[simp] theorem setCues_voices (f : List Cue → List Cue) : (s.setCues f).voices = s.voices := rfl
@[simp] theorem setCues_port (f : List Cue → List Cue) : (s.setCues f).port = s.port := rfl
@[simp] theorem setCues_store (f : List Cue → List Cue) : (s.setCues f).store = s.store := rfl
@[simp] theorem setCues_mixer (f : List Cue → List Cue) : (s.setCues f).mixer = s.mixer := rfl
@[simp] theorem setCues_lights (f : List Cue → List Cue) : (s.setCues f).lights = s.lights := rfl
@[simp] theorem setCues_link (f : List Cue → List Cue) : (s.setCues f).link = s.link := rfl
@[simp] theorem setCues_power (f : List Cue → List Cue) : (s.setCues f).power = s.power := rfl
@[simp] theorem setCues_settings (f : List Cue → List Cue) : (s.setCues f).settings = s.settings := rfl
@[simp] theorem setCues_inForce (f : List Cue → List Cue) : (s.setCues f).inForce = s.inForce := rfl

/-! setLink -/

@[simp] theorem setLink_pending (f : Link → Link) : (s.setLink f).pending = s.pending := rfl
@[simp] theorem setLink_clock (f : Link → Link) : (s.setLink f).clock = s.clock := rfl
@[simp] theorem setLink_pulseTimer (f : Link → Link) : (s.setLink f).pulseTimer = s.pulseTimer := rfl
@[simp] theorem setLink_windowDue (f : Link → Link) : (s.setLink f).windowDue = s.windowDue := rfl
@[simp] theorem setLink_pollDue (f : Link → Link) : (s.setLink f).pollDue = s.pollDue := rfl
@[simp] theorem setLink_freeSerial (f : Link → Link) : (s.setLink f).freeSerial = s.freeSerial := rfl
@[simp] theorem setLink_tracker (f : Link → Link) : (s.setLink f).tracker = s.tracker := rfl
@[simp] theorem setLink_cues (f : Link → Link) : (s.setLink f).cues = s.cues := rfl
@[simp] theorem setLink_seats (f : Link → Link) : (s.setLink f).seats = s.seats := rfl
@[simp] theorem setLink_comm (f : Link → Link) : (s.setLink f).comm = s.comm := rfl
@[simp] theorem setLink_ann (f : Link → Link) : (s.setLink f).ann = s.ann := rfl
@[simp] theorem setLink_voices (f : Link → Link) : (s.setLink f).voices = s.voices := rfl
@[simp] theorem setLink_port (f : Link → Link) : (s.setLink f).port = s.port := rfl
@[simp] theorem setLink_store (f : Link → Link) : (s.setLink f).store = s.store := rfl
@[simp] theorem setLink_mixer (f : Link → Link) : (s.setLink f).mixer = s.mixer := rfl
@[simp] theorem setLink_lights (f : Link → Link) : (s.setLink f).lights = s.lights := rfl
@[simp] theorem setLink_power (f : Link → Link) : (s.setLink f).power = s.power := rfl
@[simp] theorem setLink_settings (f : Link → Link) : (s.setLink f).settings = s.settings := rfl
@[simp] theorem setLink_inForce (f : Link → Link) : (s.setLink f).inForce = s.inForce := rfl

/-! report -/

@[simp] theorem report_pending (r : Report) : (s.report r).pending = s.pending := rfl
@[simp] theorem report_clock (r : Report) : (s.report r).clock = s.clock := rfl
@[simp] theorem report_pulseTimer (r : Report) : (s.report r).pulseTimer = s.pulseTimer := rfl
@[simp] theorem report_windowDue (r : Report) : (s.report r).windowDue = s.windowDue := rfl
@[simp] theorem report_pollDue (r : Report) : (s.report r).pollDue = s.pollDue := rfl
@[simp] theorem report_freeSerial (r : Report) : (s.report r).freeSerial = s.freeSerial := rfl
@[simp] theorem report_tracker (r : Report) : (s.report r).tracker = s.tracker := rfl
@[simp] theorem report_cues (r : Report) : (s.report r).cues = s.cues := rfl
@[simp] theorem report_seats (r : Report) : (s.report r).seats = s.seats := rfl
@[simp] theorem report_comm (r : Report) : (s.report r).comm = s.comm := rfl
@[simp] theorem report_ann (r : Report) : (s.report r).ann = s.ann := rfl
@[simp] theorem report_voices (r : Report) : (s.report r).voices = s.voices := rfl
@[simp] theorem report_port (r : Report) : (s.report r).port = s.port := rfl
@[simp] theorem report_store (r : Report) : (s.report r).store = s.store := rfl
@[simp] theorem report_mixer (r : Report) : (s.report r).mixer = s.mixer := rfl
@[simp] theorem report_lights (r : Report) : (s.report r).lights = s.lights := rfl
@[simp] theorem report_power (r : Report) : (s.report r).power = s.power := rfl
@[simp] theorem report_settings (r : Report) : (s.report r).settings = s.settings := rfl
@[simp] theorem report_inForce (r : Report) : (s.report r).inForce = s.inForce := rfl

/-! reply -/

@[simp] theorem reply_pending (kind : Nat) (tag : Byte) (code : ResultCode) (data : ReplyData) : (s.reply kind tag code data).pending = s.pending := rfl
@[simp] theorem reply_clock (kind : Nat) (tag : Byte) (code : ResultCode) (data : ReplyData) : (s.reply kind tag code data).clock = s.clock := rfl
@[simp] theorem reply_pulseTimer (kind : Nat) (tag : Byte) (code : ResultCode) (data : ReplyData) : (s.reply kind tag code data).pulseTimer = s.pulseTimer := rfl
@[simp] theorem reply_windowDue (kind : Nat) (tag : Byte) (code : ResultCode) (data : ReplyData) : (s.reply kind tag code data).windowDue = s.windowDue := rfl
@[simp] theorem reply_pollDue (kind : Nat) (tag : Byte) (code : ResultCode) (data : ReplyData) : (s.reply kind tag code data).pollDue = s.pollDue := rfl
@[simp] theorem reply_freeSerial (kind : Nat) (tag : Byte) (code : ResultCode) (data : ReplyData) : (s.reply kind tag code data).freeSerial = s.freeSerial := rfl
@[simp] theorem reply_tracker (kind : Nat) (tag : Byte) (code : ResultCode) (data : ReplyData) : (s.reply kind tag code data).tracker = s.tracker := rfl
@[simp] theorem reply_cues (kind : Nat) (tag : Byte) (code : ResultCode) (data : ReplyData) : (s.reply kind tag code data).cues = s.cues := rfl
@[simp] theorem reply_seats (kind : Nat) (tag : Byte) (code : ResultCode) (data : ReplyData) : (s.reply kind tag code data).seats = s.seats := rfl
@[simp] theorem reply_comm (kind : Nat) (tag : Byte) (code : ResultCode) (data : ReplyData) : (s.reply kind tag code data).comm = s.comm := rfl
@[simp] theorem reply_ann (kind : Nat) (tag : Byte) (code : ResultCode) (data : ReplyData) : (s.reply kind tag code data).ann = s.ann := rfl
@[simp] theorem reply_voices (kind : Nat) (tag : Byte) (code : ResultCode) (data : ReplyData) : (s.reply kind tag code data).voices = s.voices := rfl
@[simp] theorem reply_port (kind : Nat) (tag : Byte) (code : ResultCode) (data : ReplyData) : (s.reply kind tag code data).port = s.port := rfl
@[simp] theorem reply_store (kind : Nat) (tag : Byte) (code : ResultCode) (data : ReplyData) : (s.reply kind tag code data).store = s.store := rfl
@[simp] theorem reply_mixer (kind : Nat) (tag : Byte) (code : ResultCode) (data : ReplyData) : (s.reply kind tag code data).mixer = s.mixer := rfl
@[simp] theorem reply_lights (kind : Nat) (tag : Byte) (code : ResultCode) (data : ReplyData) : (s.reply kind tag code data).lights = s.lights := rfl
@[simp] theorem reply_power (kind : Nat) (tag : Byte) (code : ResultCode) (data : ReplyData) : (s.reply kind tag code data).power = s.power := rfl
@[simp] theorem reply_settings (kind : Nat) (tag : Byte) (code : ResultCode) (data : ReplyData) : (s.reply kind tag code data).settings = s.settings := rfl
@[simp] theorem reply_inForce (kind : Nat) (tag : Byte) (code : ResultCode) (data : ReplyData) : (s.reply kind tag code data).inForce = s.inForce := rfl

/-! kick -/

@[simp] theorem kick_pending : (s.kick).pending = s.pending := rfl
@[simp] theorem kick_clock : (s.kick).clock = s.clock := rfl
@[simp] theorem kick_pulseTimer : (s.kick).pulseTimer = s.pulseTimer := rfl
@[simp] theorem kick_windowDue : (s.kick).windowDue = s.windowDue := rfl
@[simp] theorem kick_pollDue : (s.kick).pollDue = s.pollDue := rfl
@[simp] theorem kick_freeSerial : (s.kick).freeSerial = s.freeSerial := rfl
@[simp] theorem kick_tracker : (s.kick).tracker = s.tracker := rfl
@[simp] theorem kick_cues : (s.kick).cues = s.cues := rfl
@[simp] theorem kick_seats : (s.kick).seats = s.seats := rfl
@[simp] theorem kick_comm : (s.kick).comm = s.comm := rfl
@[simp] theorem kick_ann : (s.kick).ann = s.ann := rfl
@[simp] theorem kick_voices : (s.kick).voices = s.voices := rfl
@[simp] theorem kick_port : (s.kick).port = s.port := rfl
@[simp] theorem kick_store : (s.kick).store = s.store := rfl
@[simp] theorem kick_mixer : (s.kick).mixer = s.mixer := rfl
@[simp] theorem kick_lights : (s.kick).lights = s.lights := rfl
@[simp] theorem kick_power : (s.kick).power = s.power := rfl
@[simp] theorem kick_settings : (s.kick).settings = s.settings := rfl
@[simp] theorem kick_inForce : (s.kick).inForce = s.inForce := rfl

/-! postRead -/

@[simp] theorem postRead_pending (r : PortRead) : (s.postRead r).pending = s.pending := rfl
@[simp] theorem postRead_clock (r : PortRead) : (s.postRead r).clock = s.clock := rfl
@[simp] theorem postRead_pulseTimer (r : PortRead) : (s.postRead r).pulseTimer = s.pulseTimer := rfl
@[simp] theorem postRead_windowDue (r : PortRead) : (s.postRead r).windowDue = s.windowDue := rfl
@[simp] theorem postRead_pollDue (r : PortRead) : (s.postRead r).pollDue = s.pollDue := rfl
@[simp] theorem postRead_freeSerial (r : PortRead) : (s.postRead r).freeSerial = s.freeSerial := rfl
@[simp] theorem postRead_tracker (r : PortRead) : (s.postRead r).tracker = s.tracker := rfl
@[simp] theorem postRead_cues (r : PortRead) : (s.postRead r).cues = s.cues := rfl
@[simp] theorem postRead_seats (r : PortRead) : (s.postRead r).seats = s.seats := rfl
@[simp] theorem postRead_comm (r : PortRead) : (s.postRead r).comm = s.comm := rfl
@[simp] theorem postRead_ann (r : PortRead) : (s.postRead r).ann = s.ann := rfl
@[simp] theorem postRead_voices (r : PortRead) : (s.postRead r).voices = s.voices := rfl
@[simp] theorem postRead_store (r : PortRead) : (s.postRead r).store = s.store := rfl
@[simp] theorem postRead_mixer (r : PortRead) : (s.postRead r).mixer = s.mixer := rfl
@[simp] theorem postRead_lights (r : PortRead) : (s.postRead r).lights = s.lights := rfl
@[simp] theorem postRead_link (r : PortRead) : (s.postRead r).link = s.link := rfl
@[simp] theorem postRead_power (r : PortRead) : (s.postRead r).power = s.power := rfl
@[simp] theorem postRead_settings (r : PortRead) : (s.postRead r).settings = s.settings := rfl
@[simp] theorem postRead_inForce (r : PortRead) : (s.postRead r).inForce = s.inForce := rfl

/-! portDone -/

@[simp] theorem portDone_pending : (s.portDone).pending = s.pending := rfl
@[simp] theorem portDone_clock : (s.portDone).clock = s.clock := rfl
@[simp] theorem portDone_pulseTimer : (s.portDone).pulseTimer = s.pulseTimer := rfl
@[simp] theorem portDone_windowDue : (s.portDone).windowDue = s.windowDue := rfl
@[simp] theorem portDone_pollDue : (s.portDone).pollDue = s.pollDue := rfl
@[simp] theorem portDone_freeSerial : (s.portDone).freeSerial = s.freeSerial := rfl
@[simp] theorem portDone_tracker : (s.portDone).tracker = s.tracker := rfl
@[simp] theorem portDone_cues : (s.portDone).cues = s.cues := rfl
@[simp] theorem portDone_seats : (s.portDone).seats = s.seats := rfl
@[simp] theorem portDone_comm : (s.portDone).comm = s.comm := rfl
@[simp] theorem portDone_ann : (s.portDone).ann = s.ann := rfl
@[simp] theorem portDone_voices : (s.portDone).voices = s.voices := rfl
@[simp] theorem portDone_store : (s.portDone).store = s.store := rfl
@[simp] theorem portDone_mixer : (s.portDone).mixer = s.mixer := rfl
@[simp] theorem portDone_lights : (s.portDone).lights = s.lights := rfl
@[simp] theorem portDone_link : (s.portDone).link = s.link := rfl
@[simp] theorem portDone_power : (s.portDone).power = s.power := rfl
@[simp] theorem portDone_settings : (s.portDone).settings = s.settings := rfl
@[simp] theorem portDone_inForce : (s.portDone).inForce = s.inForce := rfl

/-! acceptWrite -/

@[simp] theorem acceptWrite_pending (kind : WriteKind) (sector : Nat) (page : Option Nat) : (s.acceptWrite kind sector page).pending = s.pending := rfl
@[simp] theorem acceptWrite_clock (kind : WriteKind) (sector : Nat) (page : Option Nat) : (s.acceptWrite kind sector page).clock = s.clock := rfl
@[simp] theorem acceptWrite_pulseTimer (kind : WriteKind) (sector : Nat) (page : Option Nat) : (s.acceptWrite kind sector page).pulseTimer = s.pulseTimer := rfl
@[simp] theorem acceptWrite_windowDue (kind : WriteKind) (sector : Nat) (page : Option Nat) : (s.acceptWrite kind sector page).windowDue = s.windowDue := rfl
@[simp] theorem acceptWrite_pollDue (kind : WriteKind) (sector : Nat) (page : Option Nat) : (s.acceptWrite kind sector page).pollDue = s.pollDue := rfl
@[simp] theorem acceptWrite_freeSerial (kind : WriteKind) (sector : Nat) (page : Option Nat) : (s.acceptWrite kind sector page).freeSerial = s.freeSerial := rfl
@[simp] theorem acceptWrite_tracker (kind : WriteKind) (sector : Nat) (page : Option Nat) : (s.acceptWrite kind sector page).tracker = s.tracker := rfl
@[simp] theorem acceptWrite_cues (kind : WriteKind) (sector : Nat) (page : Option Nat) : (s.acceptWrite kind sector page).cues = s.cues := rfl
@[simp] theorem acceptWrite_seats (kind : WriteKind) (sector : Nat) (page : Option Nat) : (s.acceptWrite kind sector page).seats = s.seats := rfl
@[simp] theorem acceptWrite_comm (kind : WriteKind) (sector : Nat) (page : Option Nat) : (s.acceptWrite kind sector page).comm = s.comm := rfl
@[simp] theorem acceptWrite_ann (kind : WriteKind) (sector : Nat) (page : Option Nat) : (s.acceptWrite kind sector page).ann = s.ann := rfl
@[simp] theorem acceptWrite_voices (kind : WriteKind) (sector : Nat) (page : Option Nat) : (s.acceptWrite kind sector page).voices = s.voices := rfl
@[simp] theorem acceptWrite_port (kind : WriteKind) (sector : Nat) (page : Option Nat) : (s.acceptWrite kind sector page).port = s.port := rfl
@[simp] theorem acceptWrite_mixer (kind : WriteKind) (sector : Nat) (page : Option Nat) : (s.acceptWrite kind sector page).mixer = s.mixer := rfl
@[simp] theorem acceptWrite_lights (kind : WriteKind) (sector : Nat) (page : Option Nat) : (s.acceptWrite kind sector page).lights = s.lights := rfl
@[simp] theorem acceptWrite_link (kind : WriteKind) (sector : Nat) (page : Option Nat) : (s.acceptWrite kind sector page).link = s.link := rfl
@[simp] theorem acceptWrite_power (kind : WriteKind) (sector : Nat) (page : Option Nat) : (s.acceptWrite kind sector page).power = s.power := rfl
@[simp] theorem acceptWrite_settings (kind : WriteKind) (sector : Nat) (page : Option Nat) : (s.acceptWrite kind sector page).settings = s.settings := rfl
@[simp] theorem acceptWrite_inForce (kind : WriteKind) (sector : Nat) (page : Option Nat) : (s.acceptWrite kind sector page).inForce = s.inForce := rfl

/-! withdraw -/

@[simp] theorem withdraw_pending (r : Requester) : (s.withdraw r).pending = s.pending := rfl
@[simp] theorem withdraw_clock (r : Requester) : (s.withdraw r).clock = s.clock := rfl
@[simp] theorem withdraw_pulseTimer (r : Requester) : (s.withdraw r).pulseTimer = s.pulseTimer := rfl
@[simp] theorem withdraw_windowDue (r : Requester) : (s.withdraw r).windowDue = s.windowDue := rfl
@[simp] theorem withdraw_pollDue (r : Requester) : (s.withdraw r).pollDue = s.pollDue := rfl
@[simp] theorem withdraw_freeSerial (r : Requester) : (s.withdraw r).freeSerial = s.freeSerial := rfl
@[simp] theorem withdraw_tracker (r : Requester) : (s.withdraw r).tracker = s.tracker := rfl
@[simp] theorem withdraw_cues (r : Requester) : (s.withdraw r).cues = s.cues := rfl
@[simp] theorem withdraw_seats (r : Requester) : (s.withdraw r).seats = s.seats := rfl
@[simp] theorem withdraw_comm (r : Requester) : (s.withdraw r).comm = s.comm := rfl
@[simp] theorem withdraw_ann (r : Requester) : (s.withdraw r).ann = s.ann := rfl
@[simp] theorem withdraw_port (r : Requester) : (s.withdraw r).port = s.port := rfl
@[simp] theorem withdraw_store (r : Requester) : (s.withdraw r).store = s.store := rfl
@[simp] theorem withdraw_mixer (r : Requester) : (s.withdraw r).mixer = s.mixer := rfl
@[simp] theorem withdraw_lights (r : Requester) : (s.withdraw r).lights = s.lights := rfl
@[simp] theorem withdraw_link (r : Requester) : (s.withdraw r).link = s.link := rfl
@[simp] theorem withdraw_power (r : Requester) : (s.withdraw r).power = s.power := rfl
@[simp] theorem withdraw_settings (r : Requester) : (s.withdraw r).settings = s.settings := rfl
@[simp] theorem withdraw_inForce (r : Requester) : (s.withdraw r).inForce = s.inForce := rfl

/-! release -/

@[simp] theorem release_pending (v : Fin 16) : (s.release v).pending = s.pending := rfl
@[simp] theorem release_clock (v : Fin 16) : (s.release v).clock = s.clock := rfl
@[simp] theorem release_pulseTimer (v : Fin 16) : (s.release v).pulseTimer = s.pulseTimer := rfl
@[simp] theorem release_windowDue (v : Fin 16) : (s.release v).windowDue = s.windowDue := rfl
@[simp] theorem release_pollDue (v : Fin 16) : (s.release v).pollDue = s.pollDue := rfl
@[simp] theorem release_freeSerial (v : Fin 16) : (s.release v).freeSerial = s.freeSerial := rfl
@[simp] theorem release_tracker (v : Fin 16) : (s.release v).tracker = s.tracker := rfl
@[simp] theorem release_cues (v : Fin 16) : (s.release v).cues = s.cues := rfl
@[simp] theorem release_seats (v : Fin 16) : (s.release v).seats = s.seats := rfl
@[simp] theorem release_comm (v : Fin 16) : (s.release v).comm = s.comm := rfl
@[simp] theorem release_ann (v : Fin 16) : (s.release v).ann = s.ann := rfl
@[simp] theorem release_port (v : Fin 16) : (s.release v).port = s.port := rfl
@[simp] theorem release_store (v : Fin 16) : (s.release v).store = s.store := rfl
@[simp] theorem release_mixer (v : Fin 16) : (s.release v).mixer = s.mixer := rfl
@[simp] theorem release_lights (v : Fin 16) : (s.release v).lights = s.lights := rfl
@[simp] theorem release_link (v : Fin 16) : (s.release v).link = s.link := rfl
@[simp] theorem release_power (v : Fin 16) : (s.release v).power = s.power := rfl
@[simp] theorem release_settings (v : Fin 16) : (s.release v).settings = s.settings := rfl
@[simp] theorem release_inForce (v : Fin 16) : (s.release v).inForce = s.inForce := rfl

/-! The light controller's updates: each field that an update leaves alone (R156, R160, R163, R164) -/

@[simp] theorem lights_form_warningGroup (l : Lights) : (l.form).warningGroup = l.warningGroup := rfl
@[simp] theorem lights_form_stopGroup (l : Lights) : (l.form).stopGroup = l.stopGroup := rfl
@[simp] theorem lights_form_cls (l : Lights) : (l.form).cls = l.cls := rfl
@[simp] theorem lights_form_master (l : Lights) : (l.form).master = l.master := rfl
@[simp] theorem lights_form_blank (l : Lights) : (l.form).blank = l.blank := rfl
@[simp] theorem lights_setMaster_warningGroup (l : Lights) (master : Nat) : (l.setMaster master).warningGroup = l.warningGroup := rfl
@[simp] theorem lights_setMaster_stopGroup (l : Lights) (master : Nat) : (l.setMaster master).stopGroup = l.stopGroup := rfl
@[simp] theorem lights_setMaster_cls (l : Lights) (master : Nat) : (l.setMaster master).cls = l.cls := rfl
@[simp] theorem lights_setMaster_blank (l : Lights) (master : Nat) : (l.setMaster master).blank = l.blank := rfl
@[simp] theorem lights_setBlank_warningGroup (l : Lights) (blank : Bool) : (l.setBlank blank).warningGroup = l.warningGroup := rfl
@[simp] theorem lights_setBlank_stopGroup (l : Lights) (blank : Bool) : (l.setBlank blank).stopGroup = l.stopGroup := rfl
@[simp] theorem lights_setBlank_cls (l : Lights) (blank : Bool) : (l.setBlank blank).cls = l.cls := rfl
@[simp] theorem lights_setBlank_master (l : Lights) (blank : Bool) : (l.setBlank blank).master = l.master := rfl
@[simp] theorem lights_applyScene_warningGroup (l : Lights) (scene : Scene) (now : Clock) : (l.applyScene scene now).warningGroup = l.warningGroup := rfl
@[simp] theorem lights_applyScene_stopGroup (l : Lights) (scene : Scene) (now : Clock) : (l.applyScene scene now).stopGroup = l.stopGroup := rfl
@[simp] theorem lights_applyScene_cls (l : Lights) (scene : Scene) (now : Clock) : (l.applyScene scene now).cls = l.cls := rfl
@[simp] theorem lights_applyScene_master (l : Lights) (scene : Scene) (now : Clock) : (l.applyScene scene now).master = l.master := rfl
@[simp] theorem lights_applyScene_blank (l : Lights) (scene : Scene) (now : Clock) : (l.applyScene scene now).blank = l.blank := rfl
@[simp] theorem lights_change_warningGroup (l : Lights) (i : Fin 16) (ramp : Nat) (now : Clock) (f : Channel → Channel) : (l.change i ramp now f).warningGroup = l.warningGroup := rfl
@[simp] theorem lights_change_stopGroup (l : Lights) (i : Fin 16) (ramp : Nat) (now : Clock) (f : Channel → Channel) : (l.change i ramp now f).stopGroup = l.stopGroup := rfl
@[simp] theorem lights_change_cls (l : Lights) (i : Fin 16) (ramp : Nat) (now : Clock) (f : Channel → Channel) : (l.change i ramp now f).cls = l.cls := rfl
@[simp] theorem lights_change_master (l : Lights) (i : Fin 16) (ramp : Nat) (now : Clock) (f : Channel → Channel) : (l.change i ramp now f).master = l.master := rfl
@[simp] theorem lights_change_blank (l : Lights) (i : Fin 16) (ramp : Nat) (now : Clock) (f : Channel → Channel) : (l.change i ramp now f).blank = l.blank := rfl
@[simp] theorem lights_setMaster_master (l : Lights) (master : Nat) : (l.setMaster master).master = master := rfl
@[simp] theorem lights_setBlank_blank (l : Lights) (blank : Bool) : (l.setBlank blank).blank = blank := rfl

/-- A handed class, and the masks in force with it: those in force stay while the class does (R157, R163). -/
theorem handClass_groups (l : Lights) (cls : AnnounceClass) (w g : BitVec 16) (now : Clock) :
    (l.handClass cls w g now).cls = cls ∧
      (l.handClass cls w g now).warningGroup = (if cls = l.cls then l.warningGroup else w) ∧
      (l.handClass cls w g now).stopGroup = (if cls = l.cls then l.stopGroup else g) := by
  unfold Lights.handClass
  split
  · next h => exact ⟨h.symm, rfl, rfl⟩
  · exact ⟨rfl, rfl, rfl⟩

/-! The written fields -/

@[simp] theorem setAnn_ann (f : Announcements → Announcements) : (s.setAnn f).ann = f s.ann := rfl
@[simp] theorem setActive_ann (f : Entry → Entry) : (s.setActive f).ann = { s.ann with active := s.ann.active.map f } := rfl
@[simp] theorem setCues_cues (f : List Cue → List Cue) : (s.setCues f).cues = { s.cues with cues := f s.cues.cues } := rfl
@[simp] theorem setLink_link (f : Link → Link) : (s.setLink f).link = f s.link := rfl
@[simp] theorem report_link (r : Report) : (s.report r).link = s.link.report r := rfl
@[simp] theorem reply_link (kind : Nat) (tag : Byte) (code : ResultCode) (data : ReplyData) :
    (s.reply kind tag code data).link = s.link.reply (BitVec.ofNat 8 kind) tag code data := rfl
@[simp] theorem kick_link : s.kick.link = s.link.kick := rfl
@[simp] theorem postRead_port (r : PortRead) : (s.postRead r).port = { s.port with second := s.port.second ++ [r] } := rfl
@[simp] theorem portDone_port : s.portDone.port = { s.port with serving := none } := rfl
@[simp] theorem acceptWrite_store (kind : WriteKind) (sector : Nat) (page : Option Nat) :
    (s.acceptWrite kind sector page).store =
      { s.store with write := some { kind := kind, sector := sector, page := page, phase := .waiting } } := rfl

/-! ### Tables -/

end Sys2Proof.Machine

namespace Sys2Proof.Table
variable {α β : Type} {n : Nat}

theorem ext_get {t u : Table α n} (h : ∀ i, t.get i = u.get i) : t = u := by
  obtain ⟨l, hl⟩ := t
  obtain ⟨m, hm⟩ := u
  have : l = m := by
    apply List.ext_getElem (by rw [hl, hm])
    intro k hk hk'
    exact h ⟨k, by rw [← hl]; exact hk⟩
  subst this
  rfl

@[simp] theorem get_ofFn (f : Fin n → α) (i : Fin n) : (Table.ofFn f).get i = f i := by
  simp [Table.get, Table.ofFn]

@[simp] theorem get_fill (a : α) (i : Fin n) : (Table.fill n a).get i = a := by
  simp [Table.get, Table.fill]

@[simp] theorem get_map (f : α → β) (t : Table α n) (i : Fin n) : (t.map f).get i = f (t.get i) := by
  simp [Table.get, Table.map]

@[simp] theorem get_set_same (t : Table α n) (i : Fin n) (a : α) : (t.set i a).get i = a := by
  simp [Table.get, Table.set]

theorem get_set_other (t : Table α n) {i j : Fin n} (a : α) (h : i ≠ j) : (t.set i a).get j = t.get j := by
  have : i.val ≠ j.val := fun e => h (Fin.ext e)
  simp [Table.get, Table.set, this]

theorem get_set (t : Table α n) (i j : Fin n) (a : α) : (t.set i a).get j = if i = j then a else t.get j := by
  split
  · next h => subst h; simp
  · next h => exact get_set_other t a h

theorem get_modify (t : Table α n) (i j : Fin n) (f : α → α) :
    (t.modify i f).get j = if i = j then f (t.get j) else t.get j := by
  rw [Table.modify, get_set]
  split
  · next h => subst h; rfl
  · rfl

@[simp] theorem get_modify_same (t : Table α n) (i : Fin n) (f : α → α) : (t.modify i f).get i = f (t.get i) := by
  simp [get_modify]

theorem all_iff (t : Table α n) (p : α → Bool) : t.all p = true ↔ ∀ i, p (t.get i) = true := by
  obtain ⟨l, hl⟩ := t
  subst hl
  simp only [Table.all, Table.get, List.all_eq_true]
  constructor
  · intro h i; exact h _ (List.getElem_mem _)
  · intro h x hx
    obtain ⟨k, hk, rfl⟩ := List.mem_iff_getElem.1 hx
    exact h ⟨k, hk⟩

theorem any_iff (t : Table α n) (p : α → Bool) : t.any p = true ↔ ∃ i, p (t.get i) = true := by
  obtain ⟨l, hl⟩ := t
  subst hl
  simp only [Table.any, Table.get, List.any_eq_true]
  constructor
  · rintro ⟨x, hx, hp⟩
    obtain ⟨k, hk, rfl⟩ := List.mem_iff_getElem.1 hx
    exact ⟨⟨k, hk⟩, hp⟩
  · rintro ⟨i, hp⟩; exact ⟨_, List.getElem_mem _, hp⟩

end Sys2Proof.Table
end

