-- ==== Sys2Proof/Laws/Engines.lean ====
section
/-! SUPPORT. What the voice, commentary and announcement engines can do to the rest of the part: one lemma per operation. -/

namespace Sys2Proof.Machine

/-- The part of the state that the engines leave alone. -/
structure Fixed where
  pending : List Instr
  clock : Clock
  pulseTimer : BitVec 32
  windowDue : Bool
  pollDue : Bool
  freeSerial : Nat
  tracker : Tracker
  cues : CueEngine
  seats : SeatTable
  store : Store
  power : Power
  settings : Settings
  inForce : InForce
  serving : Option PortRead
  second : List PortRead
  tickets : Nat
  admissions : BitVec 32
  code : Fin 6
  pressed : Bool
  integrity : Nat
  firstFault : Option FaultRecord
  residents : List Resident
  microphone : Bool
  zones : Zone × Zone × Bool × Bool
  output : Nat × Option Ramp
  master : Nat
  blank : Bool
  layers : Table (Nat × Option Nat) 16

/-- The fixed part of a state. -/
def State.fixed (s : State) : Fixed :=
  { pending := s.pending, clock := s.clock, pulseTimer := s.pulseTimer, windowDue := s.windowDue, pollDue := s.pollDue
    freeSerial := s.freeSerial, tracker := s.tracker, cues := s.cues, seats := s.seats, store := s.store, power := s.power
    settings := s.settings, inForce := s.inForce, serving := s.port.serving, second := s.port.second
    tickets := s.ann.ticketCounter, admissions := s.ann.admissionCounter, code := s.ann.code, pressed := s.ann.pressed
    integrity := s.voices.integrity, firstFault := s.voices.firstFault, residents := s.voices.residents
    microphone := s.mixer.microphone, zones := (s.mixer.upper, s.mixer.lower, s.mixer.quiet, s.mixer.need)
    output := (s.mixer.output, s.mixer.outputRamp), master := s.lights.master, blank := s.lights.blank
    layers := s.lights.channels.map Channel.layers }

/-- Whether a read is a voice's. -/
def PortRead.isVoice (r : PortRead) : Prop := ∃ v serial index, r.use = .voice v serial index

/-- From `s` to `t` only the engines have acted: the fixed part is as it was, voices have posted reads, and reports have been
handed to the link. -/
structure Engines (s t : State) : Prop where
  fixed : t.fixed = s.fixed
  fetches : ∃ l, t.port.fetches = s.port.fetches ++ l ∧ ∀ r ∈ l, r.isVoice
  link : ∃ rs : List Report, t.link = rs.foldl Link.report s.link

namespace Engines
variable {s t u : State}

theorem refl (s : State) : Engines s s := ⟨rfl, ⟨[], by simp⟩, ⟨[], rfl⟩⟩

theorem trans (h : Engines s t) (g : Engines t u) : Engines s u := by
  obtain ⟨h1, ⟨l, hl, hv⟩, ⟨rs, hr⟩⟩ := h
  obtain ⟨g1, ⟨m, hm, hw⟩, ⟨qs, hq⟩⟩ := g
  refine ⟨g1.trans h1, ⟨l ++ m, by rw [hm, hl, List.append_assoc], ?_⟩, ⟨rs ++ qs, by rw [hq, hr, List.foldl_append]⟩⟩
  intro r hr
  rcases List.mem_append.1 hr with hr | hr
  · exact hv r hr
  · exact hw r hr

/-- An update that touches neither the fixed part nor the port nor the link. -/
theorem leaf (h : Engines s t) (h1 : u.fixed = t.fixed) (h2 : u.port = t.port) (h3 : u.link = t.link) : Engines s u :=
  h.trans ⟨h1, ⟨[], by simp [h2]⟩, ⟨[], h3⟩⟩

theorem fold {α : Type} {f : State → α → State} (hf : ∀ t a, Engines t (f t a)) (l : List α) (h : Engines s t) :
    Engines s (l.foldl f t) := by
  induction l generalizing t with
  | nil => exact h
  | cons a l ih => exact ih (h.trans (hf t a))

theorem foldPair {α β : Type} {f : State × β → α → State × β} (hf : ∀ p a, Engines p.1 (f p a).1) (l : List α)
    {p : State × β} (h : Engines s p.1) : Engines s (l.foldl f p).1 := by
  induction l generalizing p with
  | nil => exact h
  | cons a l ih => exact ih (h.trans (hf p a))

theorem comm (h : Engines s t) (c : Commentary) : Engines s { t with comm := c } := h.leaf rfl rfl rfl

end Engines

section
variable {s t : State}

/-! ### The link and the voices -/

theorem report_engines (h : Engines s t) (r : Report) : Engines s (t.report r) :=
  h.trans ⟨rfl, ⟨[], by simp⟩, ⟨[r], rfl⟩⟩

theorem setVoice_engines (h : Engines s t) (v : Fin 16) (f : Voice → Voice) : Engines s (t.setVoice v f) := h.leaf rfl rfl rfl

theorem release_engines (h : Engines s t) (v : Fin 16) : Engines s (t.release v) := h.leaf rfl rfl rfl

theorem withdraw_engines (h : Engines s t) (r : Requester) : Engines s (t.withdraw r) := h.leaf rfl rfl rfl

theorem askVoice_engines (h : Engines s t) (r : Requester) : Engines s (t.askVoice r) := by
  unfold State.askVoice
  split
  · exact h
  · exact h.leaf rfl rfl rfl

theorem dropVoice_engines (h : Engines s t) (v : Fin 16) : Engines s (t.dropVoice v) := h.leaf rfl rfl rfl

theorem topUp_engines (h : Engines s t) (v : Fin 16) : Engines s (t.topUp v) := by
  unfold State.topUp
  dsimp only
  split
  · refine h.trans ⟨rfl, ⟨[_], rfl, ?_⟩, ⟨[], rfl⟩⟩
    intro r hr
    rw [List.mem_singleton] at hr
    subst hr
    exact ⟨_, _, _, rfl⟩
  · exact h

theorem lookUp_engines (h : Engines s t) (v : Fin 16) (clip page : Nat) : Engines s (t.lookUp v clip page).1 := by
  unfold State.lookUp
  split
  · exact dropVoice_engines h v
  · dsimp only
    split
    · exact dropVoice_engines (setVoice_engines h _ _) v
    · split
      · exact topUp_engines (setVoice_engines (setVoice_engines (setVoice_engines h _ _) _ _) _ _) v
      · exact topUp_engines (setVoice_engines (setVoice_engines h _ _) _ _) v

theorem startVoice_engines (h : Engines s t) (v : Fin 16) (owner : Owner) (cls : AnnClass) (clip page : Nat) :
    Engines s (t.startVoice v owner cls clip page).1 := by
  unfold State.startVoice
  dsimp only
  split
  · exact h.leaf rfl rfl rfl
  · apply lookUp_engines
    exact h.leaf rfl rfl rfl

/-! ### Commentary -/

theorem setStream_engines (h : Engines s t) (i : Fin 12) (f : Stream → Stream) : Engines s (t.setStream i f) := h.leaf rfl rfl rfl

theorem commReport_engines (h : Engines s t) (e : CommentaryEvent) (cue : Nat) : Engines s (t.commReport e cue) :=
  report_engines h _

theorem settleEngine_engines (h : Engines s t) : Engines s t.settleEngine := by
  unfold State.settleEngine
  split
  · exact h
  · exact h.leaf rfl rfl rfl

theorem beginFiring_engines (h : Engines s t) (firing : Nat) : Engines s (t.beginFiring firing) := by
  unfold State.beginFiring
  split
  · exact h
  · split
    · exact h
    · exact commReport_engines (h.comm _) _ _

theorem loseSegment_engines (h : Engines s t) (firing : Nat) : Engines s (t.loseSegment firing) := by
  unfold State.loseSegment
  split
  · exact h
  · split
    · dsimp only
      split
      · exact commReport_engines (h.comm _) _ _
      · exact h.comm _
    · exact h.comm _

theorem dropSegment_engines (h : Engines s t) (told : List Nat) (cause : DropCause) (g : Segment) :
    Engines s (t.dropSegment told cause g).1 := by
  unfold State.dropSegment
  split
  · exact loseSegment_engines h _
  · exact loseSegment_engines (commReport_engines h _ _) _

theorem dropSegments_engines (h : Engines s t) (cause : DropCause) (segments : List Segment) :
    Engines s (t.dropSegments cause segments) := by
  unfold State.dropSegments
  exact .fold (fun t g => loseSegment_engines (.refl t) _) _ (.fold (fun t g => commReport_engines (.refl t) _ _) _ h)

theorem endDelay_engines (h : Engines s t) (i : Fin 12) : Engines s (t.endDelay i) := by
  unfold State.endDelay
  split
  · exact h
  · dsimp only
    split
    · exact askVoice_engines (setStream_engines (beginFiring_engines h _) _ _) _
    · exact setStream_engines (beginFiring_engines h _) _ _

theorem makeCurrent_engines (h : Engines s t) (i : Fin 12) (g : Segment) : Engines s (t.makeCurrent i g) := by
  unfold State.makeCurrent
  dsimp only
  split
  · exact endDelay_engines (setStream_engines h _ _) i
  · exact setStream_engines h _ _

theorem finishSegment_engines (h : Engines s t) (i : Fin 12) : Engines s (t.finishSegment i) := by
  unfold State.finishSegment
  split
  · exact h
  · dsimp only
    split
    · exact settleEngine_engines (loseSegment_engines (setStream_engines (withdraw_engines h _) _ _) _)
    · exact settleEngine_engines (makeCurrent_engines (loseSegment_engines (setStream_engines (withdraw_engines h _) _ _) _) _ _)

theorem gainDemand_engines (h : Engines s t) (i : Fin 12) : Engines s (t.gainDemand i) := by
  unfold State.gainDemand
  split
  · split
    · exact askVoice_engines (setStream_engines h _ _) _
    · exact finishSegment_engines h i
  · exact h

theorem letGo_engines (h : Engines s t) (i : Fin 12) : Engines s (t.letGo i) := by
  unfold State.letGo
  dsimp only
  split
  · exact release_engines (setStream_engines (withdraw_engines h _) _ _) _
  · exact setStream_engines (withdraw_engines h _) _ _

theorem loseDemand_engines (h : Engines s t) (i : Fin 12) : Engines s (t.loseDemand i) := by
  unfold State.loseDemand
  split
  · exact setStream_engines (letGo_engines h i) _ _
  · exact setStream_engines (letGo_engines h i) _ _
  · exact h

theorem deriveDemandOf_engines (h : Engines s t) (i : Fin 12) : Engines s (t.deriveDemandOf i) := by
  unfold State.deriveDemandOf
  dsimp only
  split
  · exact h
  · split
    · exact gainDemand_engines (setStream_engines h _ _) i
    · exact loseDemand_engines (setStream_engines h _ _) i

theorem deriveDemand_engines (h : Engines s t) : Engines s t.deriveDemand :=
  .fold (fun t i => deriveDemandOf_engines (.refl t) i) _ h

theorem grantStream_engines (h : Engines s t) (i : Fin 12) (v : Fin 16) : Engines s (t.grantStream i v) := by
  unfold State.grantStream
  split
  · exact h
  · next g _ =>
    split
    · have hs := startVoice_engines h v (.stream i) .notice g.clip (g.pageAt t.clock)
      revert hs
      generalize t.startVoice v (.stream i) .notice g.clip (g.pageAt t.clock) = p
      intro hs
      obtain ⟨a, o⟩ := p
      cases o
      · exact setStream_engines hs _ _
      · exact finishSegment_engines hs i
      · exact finishSegment_engines hs i
    · exact finishSegment_engines h i

theorem placeSegment_engines (p : State × List Nat) (q : Fin 12 × Segment) : Engines p.1 (State.placeSegment p q).1 := by
  obtain ⟨t, told⟩ := p
  unfold State.placeSegment
  dsimp only
  split
  · exact makeCurrent_engines (.refl t) _ _
  · split
    · exact setStream_engines (.refl t) _ _
    · exact dropSegment_engines (setStream_engines (.refl t) _ _) _ _ _

theorem place_engines (h : Engines s t) (cue mark : Nat) (fit : Option Nat) (set : ClipSet) :
    Engines s (t.place cue mark fit set) := by
  unfold State.place
  dsimp only
  split
  · exact h
  · exact settleEngine_engines (.foldPair placeSegment_engines _ (h.comm _))

theorem fireCommentary_engines (h : Engines s t) (cue mark : Nat) (set : ClipSet) :
    Engines s (t.fireCommentary cue mark set) := by
  unfold State.fireCommentary
  split
  · dsimp only
    split
    · exact commReport_engines (h.comm _) _ _
    · exact h.comm _
  · exact place_engines h _ _ _ _

theorem suspendStream_engines (p : State × List SuspendEntry) (i : Fin 12) : Engines p.1 (State.suspendStream p i).1 := by
  obtain ⟨t, entries⟩ := p
  unfold State.suspendStream
  dsimp only
  split
  · exact .refl t
  · have h := setStream_engines (letGo_engines (.refl t) i) i fun r => { r with state := .quiet, current := none, next := none }
    split <;> split
    all_goals first | exact h | exact loseSegment_engines h _

theorem suspend_engines (h : Engines s t) : Engines s t.suspend := by
  unfold State.suspend
  split
  · exact h
  · have hp := Engines.foldPair suspendStream_engines allSlots (p := (t, [])) h
    revert hp
    generalize allSlots.foldl State.suspendStream (t, []) = p
    intro hp
    exact hp.comm _

theorem restartEntry_engines (p : State × List Nat) (e : SuspendEntry) : Engines p.1 (State.restartEntry p e).1 := by
  obtain ⟨t, told⟩ := p
  unfold State.restartEntry
  dsimp only
  split
  · split
    · exact askVoice_engines (setStream_engines (beginFiring_engines (setStream_engines (.refl t) _ _) _) _ _) _
    · exact setStream_engines (beginFiring_engines (setStream_engines (.refl t) _ _) _) _ _
  · exact .foldPair (fun p g => dropSegment_engines (.refl p.1) _ _ _) _ (.refl t)

theorem placePending_engines (h : Engines s t) : Engines s t.placePending := by
  unfold State.placePending
  split
  · exact settleEngine_engines h
  · exact settleEngine_engines (place_engines (h.comm _) _ _ _ _)

theorem resume_engines (h : Engines s t) : Engines s t.resume := by
  unfold State.resume
  split
  · exact h
  · dsimp only
    split
    · exact placePending_engines (dropSegments_engines (h.comm _) _ _)
    · split
      · exact placePending_engines (dropSegments_engines (h.comm _) _ _)
      · exact settleEngine_engines (.foldPair restartEntry_engines _ (h.comm _))

theorem clearStream_engines (h : Engines s t) (i : Fin 12) (state : StreamState) : Engines s (t.clearStream i state) :=
  setStream_engines (letGo_engines h i) _ _

theorem enableStream_engines (h : Engines s t) (i : Fin 12) : Engines s (t.enableStream i) := by
  unfold State.enableStream
  split
  · split
    · exact setStream_engines h _ _
    · exact h
  · exact clearStream_engines h _ _

theorem applyEnabled_engines (h : Engines s t) : Engines s t.applyEnabled :=
  settleEngine_engines (dropSegments_engines (.fold (fun t i => enableStream_engines (.refl t) i) _ h) _ _)

theorem stopCommentary_engines (h : Engines s t) : Engines s t.stopCommentary := by
  unfold State.stopCommentary
  have hc : ∀ (t : State) (i : Fin 12), Engines t (if (t.stream i).state = .off then t else t.clearStream i .quiet) := by
    intro t i
    split
    · exact .refl t
    · exact clearStream_engines (.refl t) _ _
  have h1 := Engines.fold hc allSlots h
  revert h1
  generalize allSlots.foldl (fun (s : State) i => if (s.stream i).state = .off then s else s.clearStream i .quiet) t = u
  intro h1
  have hf : ∀ (u : State) (l : List Segment), Engines s u →
      Engines s (l.foldl (fun s g => s.commReport (.dropped .stopped) g.cue) u) :=
    fun u l hu => .fold (fun t g => commReport_engines (.refl t) _ _) _ hu
  dsimp only
  apply settleEngine_engines
  apply Engines.fold (fun t g => loseSegment_engines (.refl t) _)
  split
  · apply commReport_engines
    apply hf
    exact h1.leaf rfl rfl rfl
  · apply hf
    exact h1.leaf rfl rfl rfl

/-! ### Announcements -/

theorem annReport_engines (h : Engines s t) (event : AnnEvent) (e : Entry) : Engines s (t.annReport event e) := report_engines h _

theorem annEnded_engines (h : Engines s t) (e : Entry) (o : AnnOutcome) : Engines s (t.annEnded e o) := report_engines h _

theorem setActive_engines (h : Engines s t) (f : Entry → Entry) : Engines s (t.setActive f) := h.leaf rfl rfl rfl

theorem pushStack_engines (h : Engines s t) (e : Entry) : Engines s (t.pushStack e) := by
  unfold State.pushStack
  split
  · exact annEnded_engines h _ _
  · dsimp only
    split
    · apply annEnded_engines; exact h.leaf rfl rfl rfl
    · exact h.leaf rfl rfl rfl

theorem releaseActive_engines (h : Engines s t) : Engines s t.releaseActive := by
  unfold State.releaseActive
  split
  · exact h
  · exact .fold (fun t v => release_engines (.refl t) v) _ (withdraw_engines h _)

theorem leaveActive_engines (h : Engines s t) : Engines s t.leaveActive := by
  unfold State.leaveActive
  dsimp only
  split
  · exact h.leaf rfl rfl rfl
  · exact h.leaf rfl rfl rfl

theorem endActive_engines (h : Engines s t) (o : AnnOutcome) : Engines s (t.endActive o) := by
  unfold State.endActive
  split
  · exact h
  · exact annEnded_engines (leaveActive_engines (releaseActive_engines h)) _ _

theorem startRole_engines (h : Engines s t) (e : Entry) (role : Role) (clip : Nat) : Engines s (t.startRole e role clip).1 := by
  unfold State.startRole
  split
  · exact h
  · next v _ =>
    have hs := startVoice_engines h v (.announcement e.ticket role) e.cls clip 0
    revert hs
    generalize t.startVoice v (.announcement e.ticket role) e.cls clip 0 = p
    intro hs
    obtain ⟨a, o⟩ := p
    cases o <;> exact hs

theorem fanSlot_engines (e : Entry) (c : Option Nat) (p : State × FanOut) (i : Fin 12) : Engines p.1 (State.fanSlot e c p i).1 := by
  obtain ⟨t, f⟩ := p
  unfold State.fanSlot
  dsimp only
  split
  · exact .refl t
  · split
    · exact .refl t
    · next clip _ _ _ _ =>
      have hs := startRole_engines (.refl t) e (.slot i) clip
      revert hs
      generalize t.startRole e (.slot i) clip = q
      intro hs
      obtain ⟨a, o, vs⟩ := q
      cases o <;> exact hs
  · exact .refl t

theorem fanOut_engines (h : Engines s t) (e : Entry) : Engines s (t.fanOut e).1 := by
  unfold State.fanOut
  dsimp only
  refine .foldPair (fun p i => fanSlot_engines e _ p i) _ ?_
  show Engines s _
  split
  · exact startRole_engines h _ _ _
  · exact h

theorem handMap_engines (h : Engines s t) : Engines s t.handMap := by
  unfold State.handMap
  split
  · exact h
  · split
    · exact h
    · exact h.leaf rfl rfl rfl

theorem playActive_engines (h : Engines s t) : Engines s t.playActive := by
  unfold State.playActive
  split
  · exact h
  · next e _ =>
    have hs := fanOut_engines h e
    revert hs
    generalize t.fanOut e = p
    intro hs
    obtain ⟨a, f⟩ := p
    dsimp only
    have h2 : ∀ g : Entry → Entry, Engines s (a.setActive g).handMap := fun g => handMap_engines (setActive_engines hs g)
    split <;> split
    all_goals first
      | exact endActive_engines (annReport_engines (h2 _) _ _) _
      | exact annReport_engines (h2 _) _ _
      | exact endActive_engines (h2 _) _
      | exact h2 _

theorem soundNotice_engines (h : Engines s t) (e : Entry) : Engines s (t.soundNotice e) := by
  unfold State.soundNotice
  split
  · exact h.leaf rfl rfl rfl
  · exact h

theorem startActive_engines (h : Engines s t) : Engines s t.startActive := by
  unfold State.startActive
  split
  · exact h
  · next e _ =>
    have hn := soundNotice_engines h e
    dsimp only
    split
    · exact annReport_engines (setActive_engines hn _) _ _
    · split
      · next v _ =>
        have hs := startVoice_engines hn v (.chime e.ticket) e.cls ((t.soundNotice e).settings.chime e.cls) 0
        revert hs
        generalize (t.soundNotice e).startVoice v (.chime e.ticket) e.cls ((t.soundNotice e).settings.chime e.cls) 0 = p
        intro hs
        obtain ⟨a, o⟩ := p
        cases o
        · exact annReport_engines (setActive_engines hs _) _ _
        · exact playActive_engines (annReport_engines hs _ _)
        · exact playActive_engines (annReport_engines hs _ _)
      · exact playActive_engines (annReport_engines hn _ _)

/-- Neither a change of class nor a ramp touches the base and the scene layer of a channel. -/
theorem settle_layers (c : Channel) (ramp : Nat) (now : Clock) : (c.settle ramp now).layers = c.layers := by
  unfold Channel.settle
  split
  · rfl
  · split
    · rfl
    · split <;> rfl

theorem release_layers (c : Channel) (now : Clock) : (c.release now).layers = c.layers := by
  unfold Channel.release
  rw [settle_layers]
  rfl

theorem classChange_layers (c : Channel) (cls : AnnounceClass) (a b : Bool) (now : Clock) :
    (c.classChange cls a b now).layers = c.layers := by
  unfold Channel.classChange
  split
  all_goals first
    | rfl
    | exact release_layers c now
    | (split <;> first | rfl | exact release_layers c now)

theorem handClass_layers (l : Lights) (cls : AnnounceClass) (w g : BitVec 16) (now : Clock) :
    (l.handClass cls w g now).master = l.master ∧ (l.handClass cls w g now).blank = l.blank ∧
      (l.handClass cls w g now).channels.map Channel.layers = l.channels.map Channel.layers := by
  unfold Lights.handClass
  split
  · exact ⟨rfl, rfl, rfl⟩
  · refine ⟨rfl, rfl, Table.ext_get fun i => ?_⟩
    rw [Table.get_map, Table.get_map, Table.get_ofFn]
    exact classChange_layers _ _ _ _ _

theorem handClass_engines (h : Engines s t) : Engines s t.handClass := by
  refine h.leaf ?_ rfl rfl
  obtain ⟨h1, h2, h3⟩ := handClass_layers t.lights t.ann.announceClass t.settings.warningGroup t.settings.stopGroup t.clock
  unfold State.handClass State.fixed
  dsimp only
  rw [h1, h2, h3]

theorem activate_engines (h : Engines s t) (e : Entry) : Engines s (t.activate e) := by
  unfold State.activate
  have h1 : Engines s (t.setAnn fun a => { a with active := some { e with phase := .queued } }).handClass :=
    handClass_engines (h.leaf rfl rfl rfl)
  dsimp only
  split
  · split
    · exact startActive_engines (resume_engines h1)
    · exact askVoice_engines (resume_engines h1) _
  · split
    · exact startActive_engines (suspend_engines h1)
    · exact suspend_engines h1

theorem takeCandidate_fixed {a b : Announcements} {e : Entry} (h : a.takeCandidate = some (e, b)) :
    b.ticketCounter = a.ticketCounter ∧ b.admissionCounter = a.admissionCounter ∧ b.code = a.code ∧ b.pressed = a.pressed := by
  unfold Announcements.takeCandidate at h
  split at h
  · cases h
  · cases h; exact ⟨rfl, rfl, rfl, rfl⟩
  · cases h; exact ⟨rfl, rfl, rfl, rfl⟩
  · split at h
    · cases h; exact ⟨rfl, rfl, rfl, rfl⟩
    · cases h; exact ⟨rfl, rfl, rfl, rfl⟩

theorem selectRounds_engines (n : Nat) (h : Engines s t) : Engines s (State.selectRounds n t) := by
  induction n generalizing t with
  | zero => exact h
  | succ n ih =>
    unfold State.selectRounds
    split
    · exact h
    · split
      · exact resume_engines (handClass_engines h)
      · next e a hc =>
        have h1 : Engines s (t.setAnn fun _ => a) := by
          refine h.leaf ?_ rfl rfl
          obtain ⟨h1, h2, h3, h4⟩ := takeCandidate_fixed hc
          unfold State.fixed
          simp only [State.setAnn, h1, h2, h3, h4]
        dsimp only
        split
        · exact ih (annEnded_engines h1 _ _)
        · exact ih (activate_engines h1 _)

theorem select_engines (h : Engines s t) : Engines s t.select := selectRounds_engines _ h

theorem annVoiceEnded_engines (h : Engines s t) (v : Fin 16) : Engines s (t.annVoiceEnded v) := by
  unfold State.annVoiceEnded
  split
  · exact h
  · split
    · split
      · exact select_engines (playActive_engines (setActive_engines h _))
      · exact h
    · split
      · dsimp only
        split
        · exact select_engines (endActive_engines (setActive_engines h _) _)
        · exact handMap_engines (setActive_engines h _)
      · exact h

theorem tellFree_engines (h : Engines s t) : Engines s t.tellFree := by
  unfold State.tellFree
  split
  · exact h
  · split
    · exact select_engines (startActive_engines h)
    · exact h

theorem grantNotice_engines (h : Engines s t) : Engines s t.grantNotice := by
  unfold State.grantNotice
  split
  · exact h
  · split
    · exact select_engines (startActive_engines h)
    · exact h

theorem cancelEntry_engines (h : Engines s t) (e : Entry) : Engines s (t.cancelEntry e) := by
  unfold State.cancelEntry
  split
  · exact select_engines (endActive_engines h _)
  · apply annEnded_engines; exact h.leaf rfl rfl rfl

theorem dropCueEntries_engines (h : Engines s t) : Engines s t.dropCueEntries := by
  unfold State.dropCueEntries
  apply Engines.fold (fun t e => annEnded_engines (.refl t) _ _)
  exact h.leaf rfl rfl rfl

theorem withdrawLive_engines (h : Engines s t) : Engines s t.withdrawLive := by
  unfold State.withdrawLive
  apply Engines.fold (fun t e => annEnded_engines (.refl t) _ _)
  exact h.leaf rfl rfl rfl

theorem ownerActs_engines (h : Engines s t) (owner : Option Owner) (v : Fin 16) : Engines s (t.ownerActs owner v) := by
  unfold State.ownerActs
  refine tellFree_engines ?_
  split
  · exact finishSegment_engines h _
  · exact annVoiceEnded_engines h v
  · exact annVoiceEnded_engines h v
  · exact h

theorem voiceEnded_engines (h : Engines s t) (v : Fin 16) : Engines s (t.voiceEnded v) :=
  ownerActs_engines (dropVoice_engines h v) _ v

/-! ### The arbiter -/

theorem grants_engines (n : Nat) (h : Engines s t) : Engines s (State.grants n t) := by
  induction n generalizing t with
  | zero => exact h
  | succ n ih =>
    unfold State.grants
    split
    · exact ih (grantNotice_engines (withdraw_engines h _))
    · exact ih (tellFree_engines (grantStream_engines (withdraw_engines h _) _ _))
    · exact h

theorem arbitrate_engines (h : Engines s t) : Engines s t.arbitrate := by
  unfold State.arbitrate
  exact grants_engines _ h

/-- With no request waiting or no voice free the arbiter does nothing (R116). -/
theorem arbitrate_none (h : t.voices.requests = [] ∨ t.freeVoice = none) : t.arbitrate = t := by
  have hl : grantLimit = 99 + 1 := rfl
  unfold State.arbitrate
  rw [hl, State.grants]
  rcases h with h | h
  · have : t.firstRequest = none := by
      unfold State.firstRequest firstStream
      simp [h, byListeners]
    rw [this]
    split <;> simp_all
  · rw [h]

end

end Sys2Proof.Machine
end

