-- ==== Sys2Proof/Laws/Link.lean ====
section
/-! SUPPORT. The message link's operations: what the report queue, the replies and the transmitter keep. -/

namespace Sys2Proof.Machine

/-! ### Reports (R175) -/

@[simp] theorem report_receiver (l : Link) (r : Report) : (l.report r).receiver = l.receiver := by unfold Link.report; split <;> rfl
@[simp] theorem report_lastByte (l : Link) (r : Report) : (l.report r).lastByte = l.lastByte := by unfold Link.report; split <;> rfl
@[simp] theorem report_input (l : Link) (r : Report) : (l.report r).input = l.input := by unfold Link.report; split <;> rfl
@[simp] theorem report_busy (l : Link) (r : Report) : (l.report r).busy = l.busy := by unfold Link.report; split <;> rfl
@[simp] theorem report_replies (l : Link) (r : Report) : (l.report r).replies = l.replies := by unfold Link.report; split <;> rfl
@[simp] theorem report_sending (l : Link) (r : Report) : (l.report r).sending = l.sending := by unfold Link.report; split <;> rfl
@[simp] theorem report_formed (l : Link) (r : Report) : (l.report r).formed = l.formed := by unfold Link.report; split <;> rfl
@[simp] theorem report_counters (l : Link) (r : Report) :
    { (l.report r).counters with reportsLost := 0 } = { l.counters with reportsLost := 0 } := by unfold Link.report; split <;> rfl

/-- With room in the queue a report joins its tail. -/
theorem report_room (l : Link) (r : Report) (h : l.reports.length < 16) : l.report r = { l with reports := l.reports ++ [r] } := by
  unfold Link.report; rw [if_pos h]

/-- A full queue stays full, and no queue grows past 16. -/
theorem report_length (l : Link) (r : Report) (h : l.reports.length ≤ 16) : (l.report r).reports.length ≤ 16 := by
  unfold Link.report
  split
  · next h' => simp; omega
  · dsimp only
    split
    · next ha =>
      obtain ⟨x, hx, hp⟩ := List.any_eq_true.1 ha
      rw [List.length_append, List.length_eraseP_of_mem hx hp, List.length_singleton]
      have : 0 < l.reports.length := List.length_pos_of_mem hx
      omega
    · exact h

/-- Only a POSITION report is given up for another (R175). -/
theorem report_keeps (l : Link) (r q : Report) (hq : q.isPosition = false) (h : q ∈ l.reports) : q ∈ (l.report r).reports := by
  unfold Link.report
  split
  · exact List.mem_append_left _ h
  · dsimp only
    split
    · exact List.mem_append_left _ ((List.mem_eraseP_of_neg (by simp [hq])).2 h)
    · exact h

theorem foldl_report_keeps (rs : List Report) (l : Link) (q : Report) (hq : q.isPosition = false) (h : q ∈ l.reports) :
    q ∈ (rs.foldl Link.report l).reports := by
  induction rs generalizing l with
  | nil => exact h
  | cons r rs ih => exact ih _ (report_keeps l r q hq h)

/-- What handing reports leaves of the link. -/
theorem foldl_report_same (rs : List Report) (l : Link) :
    (rs.foldl Link.report l).receiver = l.receiver ∧ (rs.foldl Link.report l).lastByte = l.lastByte ∧
      (rs.foldl Link.report l).input = l.input ∧ (rs.foldl Link.report l).busy = l.busy ∧
      (rs.foldl Link.report l).replies = l.replies ∧ (rs.foldl Link.report l).sending = l.sending ∧
      (rs.foldl Link.report l).formed = l.formed ∧
      { (rs.foldl Link.report l).counters with reportsLost := 0 } = { l.counters with reportsLost := 0 } := by
  induction rs generalizing l with
  | nil => exact ⟨rfl, rfl, rfl, rfl, rfl, rfl, rfl, rfl⟩
  | cons r rs ih =>
    obtain ⟨h1, h2, h3, h4, h5, h6, h7, h8⟩ := ih (l.report r)
    rw [List.foldl_cons]
    simp only [report_receiver, report_lastByte, report_input, report_busy, report_replies, report_sending, report_formed,
      report_counters] at *
    exact ⟨h1, h2, h3, h4, h5, h6, h7, h8⟩

theorem foldl_report_length (rs : List Report) (l : Link) (h : l.reports.length ≤ 16) :
    (rs.foldl Link.report l).reports.length ≤ 16 := by
  induction rs generalizing l with
  | nil => exact h
  | cons r rs ih => exact ih _ (report_length l r h)

/-! ### The transmitter (R174) -/

@[simp] theorem kick_receiver (l : Link) : l.kick.receiver = l.receiver := by unfold Link.kick; repeat' split <;> try rfl
@[simp] theorem kick_lastByte (l : Link) : l.kick.lastByte = l.lastByte := by unfold Link.kick; repeat' split <;> try rfl
@[simp] theorem kick_input (l : Link) : l.kick.input = l.input := by unfold Link.kick; repeat' split <;> try rfl
@[simp] theorem kick_counters (l : Link) : l.kick.counters = l.counters := by unfold Link.kick; repeat' split <;> try rfl
@[simp] theorem kick_formed (l : Link) : l.kick.formed = l.formed := by unfold Link.kick; repeat' split <;> try rfl

/-- The transmitter takes frames away from the queues and changes nothing else of them. -/
theorem kick_lengths (l : Link) :
    l.kick.busy.length ≤ l.busy.length ∧ l.kick.replies.length ≤ l.replies.length ∧
      l.kick.reports.length ≤ l.reports.length := by
  unfold Link.kick
  repeat' split
  all_goals simp_all

/-- A reply that waits or is sent still is. -/
theorem kick_holdsReply {s : State} {r : Reply} (h : s.holdsReply r) : s.kick.holdsReply r := by
  unfold State.holdsReply State.kick at *
  dsimp only
  unfold Link.kick
  rcases h with h | h
  · repeat' split
    all_goals simp_all
    all_goals (rcases h with h | h <;> simp_all)
  · rw [h]
    exact .inr h

/-- A report that waits or is sent still is. -/
theorem kick_holdsReport {s : State} {r : Report} (h : s.holdsReport r) : s.kick.holdsReport r := by
  unfold State.holdsReport State.kick at *
  dsimp only
  unfold Link.kick
  rcases h with h | h
  · repeat' split
    all_goals simp_all
    all_goals (rcases h with h | h <;> simp_all)
  · rw [h]
    exact .inr h

/-! ### Requests (R171) -/

/-- A request taken differs in its mark alone. -/
theorem takeFirst_frame (kind tag : Byte) (l : List QueuedRequest) :
    (takeFirst kind tag l).map QueuedRequest.frame = l.map QueuedRequest.frame := by
  induction l with
  | nil => rfl
  | cons q qs ih =>
    unfold takeFirst
    split
    · rw [List.map_cons, List.map_cons, ih]
    · split <;> rfl

@[simp] theorem takeFirst_length (kind tag : Byte) (l : List QueuedRequest) : (takeFirst kind tag l).length = l.length := by
  have := congrArg List.length (takeFirst_frame kind tag l)
  simpa using this

/-! ### Frames (12 Table 12-1) -/

@[simp] theorem beBytes_length (n value : Nat) : (beBytes n value).length = n := by
  induction n with
  | zero => rfl
  | succ n ih => simp [beBytes, ih]

/-- A frame is its body and seven bytes: start byte, length, kind, tag and check. -/
@[simp] theorem frameBytes_length (kind tag : Byte) (body : List Byte) : (frameBytes kind tag body).length = body.length + 7 := by
  simp [frameBytes]
  omega

/-- A frame sent begins with the start byte, and so does everything the transmitter sends. -/
theorem lineBytes_start (l : Link) (h : l.sending ≠ none) : l.lineBytes.head? = some startByte := by
  unfold Link.lineBytes
  cases hs : l.sending with
  | none => exact absurd hs h
  | some f => cases f <;> rfl

end Sys2Proof.Machine
end

