-- ==== Sys2Proof/Laws/Events.lean ====
section
/-! SUPPORT. The end of an event and the taking of a request: one lemma each that says all they do. -/

namespace Sys2Proof.Machine

/-! ### What the engines leave of the link -/

theorem Engines.linkFrame {s t : State} (h : Engines s t) : LinkFrame s.link t.link := by
  obtain ⟨rs, hr⟩ := h.link
  obtain ⟨h1, h2, h3, -, -, -, -, h8⟩ := foldl_report_same rs s.link
  rw [hr]
  exact ⟨h1, h2, by rw [h3], h8⟩

theorem Engines.replies {s t : State} (h : Engines s t) (r : Reply) (hr : s.holdsReply r) : t.holdsReply r := by
  obtain ⟨rs, hl⟩ := h.link
  obtain ⟨-, -, -, -, h5, h6, -, -⟩ := foldl_report_same rs s.link
  unfold State.holdsReply at *
  rw [hl, h5, h6]
  exact hr

theorem Engines.reports {s t : State} (h : Engines s t) (r : Report) (hp : r.isPosition = false) (hr : s.holdsReport r) :
    t.holdsReport r := by
  obtain ⟨rs, hl⟩ := h.link
  obtain ⟨-, -, -, -, -, h6, -, -⟩ := foldl_report_same rs s.link
  unfold State.holdsReport at *
  rw [hl, h6]
  exact hr.imp (foldl_report_keeps rs _ r hp) id

theorem Engines.reads {s t : State} (h : Engines s t) (r : PortRead) (hr : r ∈ s.port.reads) : r ∈ t.port.reads := by
  obtain ⟨l, hl, -⟩ := h.fetches
  have h1 : t.port.serving = s.port.serving := congrArg Fixed.serving h.fixed
  have h2 : t.port.second = s.port.second := congrArg Fixed.second h.fixed
  unfold Port.reads at *
  rw [h1, h2, hl]
  simp only [List.mem_append] at *
  tauto

theorem LinkFrame.refl (l : Link) : LinkFrame l l := ⟨rfl, rfl, rfl, rfl⟩

theorem LinkFrame.trans {a b c : Link} (h : LinkFrame a b) (g : LinkFrame b c) : LinkFrame a c :=
  ⟨g.receiver.trans h.receiver, g.lastByte.trans h.lastByte, g.input.trans h.input, g.counters.trans h.counters⟩

theorem kick_frame (l : Link) : LinkFrame l l.kick := ⟨by simp, by simp, by simp, by simp⟩

theorem reply_frame (l : Link) (kind tag : Byte) (code : ResultCode) (data : ReplyData) :
    LinkFrame l (l.reply kind tag code data) := ⟨rfl, rfl, rfl, rfl⟩

theorem report_frame (l : Link) (r : Report) : LinkFrame l (l.report r) :=
  ⟨by simp, by simp, by simp, by simp⟩

/-! ### The port's choice (R118, R119) -/

theorem shiftWrite_eq (s : State) (old new : WritePhase) :
    s.shiftWrite old new =
      { s with store := { s.store with write := s.store.write.map fun w => if w.phase = old then { w with phase := new } else w } } := by
  unfold State.shiftWrite
  cases hw : s.store.write with
  | none =>
    obtain ⟨⟩ := s
    rename_i st _ _ _ _ _ _
    obtain ⟨⟩ := st
    simp_all
  | some w =>
    dsimp only
    split
    · next h => simp [h]
    · next h =>
      obtain ⟨⟩ := s
      rename_i st _ _ _ _ _ _
      obtain ⟨⟩ := st
      simp_all

theorem shiftWrite_target (s : State) (old new : WritePhase) :
    (s.shiftWrite old new).store.write.map WriteRecord.target = s.store.write.map WriteRecord.target := by
  rw [shiftWrite_eq]
  cases s.store.write with
  | none => rfl
  | some w => dsimp only [Option.map]; split <;> rfl

theorem bestFetch_mem {voices : Table Voice 16} {l : List PortRead} {r : PortRead} (h : bestFetch voices l = some r) : r ∈ l := by
  induction l generalizing r with
  | nil => cases h
  | cons a rest ih =>
    unfold bestFetch at h
    split at h
    · cases h; exact List.mem_cons_self
    · next b hb =>
      split at h
      · cases h; exact List.mem_cons_of_mem _ (ih hb)
      · cases h; exact List.mem_cons_self

/-- The port's choice moves reads and sets the phase of the write in flight, and does nothing else. -/
theorem settlePort_eq (s : State) :
    ∃ (p : Port) (w : Option WriteRecord), s.settlePort = { s with port := p, store := { s.store with write := w } } ∧
      w.map WriteRecord.target = s.store.write.map WriteRecord.target ∧ (∀ r, r ∈ p.reads ↔ r ∈ s.port.reads) := by
  have same : s = { s with port := s.port, store := { s.store with write := s.store.write } } := rfl
  unfold State.settlePort
  split
  · exact ⟨_, _, same, rfl, fun r => Iff.rfl⟩
  · next hs =>
    split
    · exact ⟨_, _, same, rfl, fun r => Iff.rfl⟩
    · split
      · next r hb =>
        refine ⟨_, _, shiftWrite_eq _ _ _, shiftWrite_target s .running .suspended ▸ ?_, ?_⟩
        · rw [shiftWrite_eq]
        · intro q
          have hmem := bestFetch_mem hb
          unfold Port.reads
          simp only [hs, Option.toList, List.mem_append, List.not_mem_nil, false_or, List.mem_singleton]
          by_cases hq : q = r
          · subst hq; tauto
          · rw [List.mem_erase_of_ne hq]; tauto
      · next r rs _ he =>
        refine ⟨_, _, shiftWrite_eq _ _ _, shiftWrite_target s .running .suspended ▸ ?_, ?_⟩
        · rw [shiftWrite_eq]
        · intro q
          unfold Port.reads
          simp only [hs, he, Option.toList, List.mem_append, List.not_mem_nil, false_or, List.mem_cons]
          tauto
      · refine ⟨_, _, shiftWrite_eq _ _ _, shiftWrite_target s .suspended .running ▸ ?_, fun r => Iff.rfl⟩
        rw [shiftWrite_eq]

/-! ### The end of an event -/

theorem derive_stored (t : SeatTable) (g : Settings) : (t.derive g).seats.map Seat.stored = t.seats.map Seat.stored := by
  refine Table.ext_get fun i => ?_
  rw [Table.get_map, Table.get_map]
  unfold SeatTable.derive
  rw [Table.get_map]
  rfl

/-- What the announcement engine hands at the end of an event (R100). -/
theorem publish_eq (s : State) :
    ∃ seats : SeatTable,
      s.publish =
        { s with
          lights := s.lights.handClass s.ann.announceClass s.settings.warningGroup s.settings.stopGroup s.clock
          mixer := { s.mixer with microphone := s.ann.microphone }
          seats := seats } ∧
      { seats with seats := s.seats.seats, warningActive := s.seats.warningActive } = s.seats ∧
      seats.seats.map Seat.stored = s.seats.seats.map Seat.stored ∧
      seats.warningActive = s.ann.warningActive := by
  unfold State.publish State.handClass
  dsimp only
  split
  · next h => exact ⟨s.seats, rfl, rfl, rfl, h.symm⟩
  · exact ⟨_, rfl, rfl, derive_stored _ _, rfl⟩

/-- The end of an event: everything it can do (see `EventFrame`). -/
theorem endEvent_frame (s : State) : EventFrame s s.endEvent := by
  have he := arbitrate_engines (Engines.refl s)
  have hq : s.voices.requests = [] ∨ s.freeVoice = none → s.arbitrate = s := arbitrate_none
  unfold State.endEvent
  revert he hq
  generalize s.arbitrate = a
  intro he hq
  obtain ⟨seats, hp, hs1, hs2, -⟩ := publish_eq a
  obtain ⟨hl1, hl2, hl3⟩ :=
    handClass_layers a.lights a.ann.announceClass a.settings.warningGroup a.settings.stopGroup a.clock
  rw [hp]
  obtain ⟨p, w, hw, hwt, hr⟩ := settlePort_eq
    { a with
      lights := a.lights.handClass a.ann.announceClass a.settings.warningGroup a.settings.stopGroup a.clock
      mixer := { a.mixer with microphone := a.ann.microphone }
      seats := seats }
  rw [hw]
  unfold State.kick
  have f := he.fixed
  have fseats : a.seats = s.seats := congrArg Fixed.seats f
  have fstore : a.store = s.store := congrArg Fixed.store f
  have fzones := congrArg Fixed.zones f
  have foutput := congrArg Fixed.output f
  exact {
    pending := congrArg Fixed.pending f
    clock := congrArg Fixed.clock f
    pulseTimer := congrArg Fixed.pulseTimer f
    windowDue := congrArg Fixed.windowDue f
    pollDue := congrArg Fixed.pollDue f
    freeSerial := congrArg Fixed.freeSerial f
    tracker := congrArg Fixed.tracker f
    cues := congrArg Fixed.cues f
    power := congrArg Fixed.power f
    settings := congrArg Fixed.settings f
    inForce := congrArg Fixed.inForce f
    seatTable := by rw [← fseats]; exact hs1
    stored := by rw [← fseats]; exact hs2
    store := by rw [← fstore]
    write := by rw [← fstore]; exact hwt
    reads := fun r h => (hr r).2 (he.reads r h)
    tickets := congrArg Fixed.tickets f
    admissions := congrArg Fixed.admissions f
    code := congrArg Fixed.code f
    pressed := congrArg Fixed.pressed f
    integrity := congrArg Fixed.integrity f
    firstFault := congrArg Fixed.firstFault f
    residents := congrArg Fixed.residents f
    zones := fzones
    output := foutput
    master := hl1.trans (congrArg Fixed.master f)
    blank := hl2.trans (congrArg Fixed.blank f)
    layers := hl3.trans (congrArg Fixed.layers f)
    link := he.linkFrame.trans (kick_frame _)
    replies := fun r h => kick_holdsReply (s := { a with link := a.link }) (he.replies r h)
    reports := fun r hp h => kick_holdsReport (s := { a with link := a.link }) (he.reports r hp h)
    ungranted := fun h => by
      have := hq h
      subst this
      exact ⟨rfl, rfl, rfl, rfl, rfl⟩ }

/-! ### Events and requests -/

/-- An event of a part that runs. -/
theorem event_next (s : State) (act : State → State) (h : s.running = true) : s.event act = .next (act s).endEvent := by
  unfold State.event; rw [if_pos h]

/-- An event in STANDBY or during a start-up (log 18). -/
theorem event_asleep (s : State) (act : State → State) (h : s.running = false) : s.event act = .next s := by
  unfold State.event; rw [if_neg (by simp [h])]

/-- The state in which the owner of a request acts: the queued frame that stands for it, if one does, is marked taken. -/
def State.taken (s : State) (kind : Nat) (tag : Byte) : State :=
  { s with link := { s.link with input := takeFirst (BitVec.ofNat 8 kind) tag s.link.input } }

/-- The taking of a request that reaches its owner. -/
theorem request_takes {s : State} {kind : Nat} {tag : Byte} (h : s.takes kind tag) (owner : State → State) :
    s.request kind tag owner = owner (s.taken kind tag) := by
  unfold State.request
  rw [if_pos h.1]
  cases hq : s.link.nextRequest with
  | none => rfl
  | some q => dsimp only; rw [if_neg (by simp [h.2 q hq])]; rfl

/-- When it is the turn of a request (R171). -/
theorem turnOf_iff (s : State) (kind tag : Byte) :
    s.turnOf kind tag = true ↔
      s.running = true ∧ s.replyOwed = false ∧ ∀ q, s.link.nextRequest = some q → q.kind = kind ∧ q.tag = tag := by
  unfold State.turnOf
  cases s.link.nextRequest <;> simp [and_assoc]

/-- A request out of its turn changes nothing (log 4). -/
theorem request_waits {s : State} {kind : Nat} {tag : Byte} (h : s.turnOf (BitVec.ofNat 8 kind) tag = false)
    (owner : State → State) : s.request kind tag owner = s := by
  unfold State.request; rw [if_neg (by simp [h])]

/-- A queued request whose body length does not suit its kind is answered by the link (R171). -/
theorem request_bad_length {s : State} {kind : Nat} {tag : Byte} {q : QueuedRequest}
    (h : s.turnOf (BitVec.ofNat 8 kind) tag = true) (hq : s.link.nextRequest = some q) (ha : admits kind q.body = false)
    (owner : State → State) : s.request kind tag owner = ((s.taken kind tag).reply kind tag .badLength).kick := by
  unfold State.request; rw [if_pos h, hq]; dsimp only; rw [if_pos ha]; rfl

theorem command_next {s : State} {kind : Nat} {tag : Byte} (h : s.takes kind tag) (act : State → State) :
    s.command kind tag act = .next (act (s.taken kind tag)).endEvent := by
  unfold State.command; rw [request_takes h]

theorem query_next {s : State} {kind : Nat} {tag : Byte} (h : s.takes kind tag) (act : State → State) :
    s.query kind tag act = .next (act (s.taken kind tag)).kick := by
  unfold State.query; rw [request_takes h]

/-- A reply just formed is held. -/
theorem reply_holds (s : State) (kind : Nat) (tag : Byte) (code : ResultCode) (data : ReplyData) :
    (s.reply kind tag code data).holdsReply
      { kind := replyKind (BitVec.ofNat 8 kind), tag := tag, code := code, data := data, order := s.link.formed } := by
  unfold State.holdsReply State.reply Link.reply
  simp

/-- A request answered without any effect outside the link but what `act` gives. -/
theorem query_reply {s : State} {kind : Nat} {tag : Byte} {code : ResultCode} {data : ReplyData} (u : State)
    (hu : u.link = (s.taken kind tag).link) :
    s.answered (u.reply kind tag code data).kick kind tag code data ∧
      LinkFrame s.link (u.reply kind tag code data).kick.link := by
  constructor
  · have h := kick_holdsReply (reply_holds u kind tag code data)
    rw [hu] at h
    exact h
  · refine LinkFrame.trans (b := (u.reply kind tag code data).link) ?_ (kick_frame _)
    refine LinkFrame.trans (b := u.link) ?_ (reply_frame _ _ _ _ _)
    rw [hu]
    exact ⟨rfl, rfl, takeFirst_frame _ _ _, rfl⟩

/-- What holds against a state holds against one that differs from it in a link that holds no more. -/
theorem EventFrame.relink {s u t : State} (h : EventFrame u t) (hu : u = { s with link := u.link })
    (hl : LinkFrame s.link u.link) (hr : ∀ r, s.holdsReply r → u.holdsReply r)
    (hp : ∀ r, Report.isPosition r = false → s.holdsReport r → u.holdsReport r) : EventFrame s t := by
  obtain ⟨a1, a2, a3, a4, a5, a6, a7, a8, a9, a10, a11, a12, a13, a14, a15, a16, a17, a18, a19, a20, a21, a22, a23, a24, a25, a26,
    a27, a28, a29, a30, a31, a32⟩ := h
  rw [hu] at a1 a2 a3 a4 a5 a6 a7 a8 a9 a10 a11 a12 a13 a14 a15 a16 a17 a18 a19 a20 a21 a22 a23 a24 a25 a26 a27 a28 a32
  exact ⟨a1, a2, a3, a4, a5, a6, a7, a8, a9, a10, a11, a12, a13, a14, a15, a16, a17, a18, a19, a20, a21, a22, a23, a24, a25, a26,
    a27, a28, hl.trans a29, fun r h => a30 r (hr r h), fun r h1 h2 => a31 r h1 (hp r h1 h2), a32⟩

theorem taken_frame (s : State) (kind : Nat) (tag : Byte) : LinkFrame s.link (s.taken kind tag).link :=
  ⟨rfl, rfl, takeFirst_frame _ _ _, rfl⟩

theorem reply_keeps (u : State) (kind : Nat) (tag : Byte) (code : ResultCode) (data : ReplyData) (r : Reply)
    (h : u.holdsReply r) : (u.reply kind tag code data).holdsReply r :=
  h.imp (fun h => List.mem_append_left _ h) id

theorem endEvent_answered {u : State} {r : Reply} (h : u.holdsReply r) : u.endEvent.holdsReply r := (endEvent_frame u).replies r h

/-- The end of the event of a request whose owner makes `u` of the state and then answers: the frame against `u`, and the
reply. -/
theorem command_answered {s u x : State} {kind : Nat} {tag : Byte} {code : ResultCode} {data : ReplyData}
    (hu : u.link = s.link) (hx : x = ({ u with link := (s.taken kind tag).link } : State).reply kind tag code data) :
    EventFrame u x.endEvent ∧ s.answered x.endEvent kind tag code data := by
  subst hx
  refine ⟨(endEvent_frame _).relink rfl ?_ ?_ ?_, endEvent_answered (reply_holds _ kind tag code data)⟩
  · rw [hu]; exact (taken_frame s kind tag).trans (reply_frame _ _ _ _ _)
  · intro r hr
    refine reply_keeps _ _ _ _ _ r ?_
    unfold State.holdsReply at *
    rw [hu] at hr
    exact hr
  · intro r _ hr
    unfold State.holdsReport at *
    rw [hu] at hr
    exact hr

/-- The same for a request whose owner forms no reply yet. -/
theorem command_frame {s u x : State} {kind : Nat} {tag : Byte} (hu : u.link = s.link)
    (hx : x = { u with link := (s.taken kind tag).link }) : EventFrame u x.endEvent := by
  subst hx
  refine (endEvent_frame _).relink rfl ?_ ?_ ?_
  · rw [hu]; exact taken_frame s kind tag
  · intro r hr; unfold State.holdsReply at *; rw [hu] at hr; exact hr
  · intro r _ hr; unfold State.holdsReport at *; rw [hu] at hr; exact hr

/-- A request answered outside any event: nothing but what its owner made of the state, and the reply. -/
theorem query_answered {s u x : State} {kind : Nat} {tag : Byte} {code : ResultCode} {data : ReplyData}
    (hx : x = ({ u with link := (s.taken kind tag).link } : State).reply kind tag code data) :
    s.onlyRepliesBut u x.kick ∧ s.answered x.kick kind tag code data := by
  subst hx
  have hq := query_reply (code := code) (data := data) ({ u with link := (s.taken kind tag).link } : State) rfl
  exact ⟨⟨rfl, hq.2⟩, hq.1⟩

end Sys2Proof.Machine
end

