-- ==== Sys2Proof/Laws/Acts.lean ====
section
/-! SUPPORT. What admissions, fired cues, route changes and the handing on of counts can do: one lemma per operation. -/

namespace Sys2Proof.Machine

/-- What a fired cue leaves alone of the fixed part: all but the states of the cues, the ticket counters, the quiet-zone flag,
the commentary need and the light channels' scenes. -/
def Fixed.acts (f : Fixed) : Fixed :=
  { f with
    cues := { f.cues with cues := [] }, tickets := 0, admissions := 0
    zones := (f.zones.1, f.zones.2.1, false, false)
    layers := f.layers.map fun p => (p.1, none) }

/-- From `s` to `t` cues have fired, entries have been admitted or the engines have acted. -/
structure Acts (s t : State) : Prop where
  fixed : t.fixed.acts = s.fixed.acts
  fetches : ∃ l, t.port.fetches = s.port.fetches ++ l ∧ ∀ r ∈ l, r.isVoice
  link : ∃ rs : List Report, t.link = rs.foldl Link.report s.link

namespace Acts
variable {s t u : State}

theorem refl (s : State) : Acts s s := ⟨rfl, ⟨[], by simp⟩, ⟨[], rfl⟩⟩

theorem trans (h : Acts s t) (g : Acts t u) : Acts s u := by
  obtain ⟨h1, ⟨l, hl, hv⟩, ⟨rs, hr⟩⟩ := h
  obtain ⟨g1, ⟨m, hm, hw⟩, ⟨qs, hq⟩⟩ := g
  refine ⟨g1.trans h1, ⟨l ++ m, by rw [hm, hl, List.append_assoc], ?_⟩, ⟨rs ++ qs, by rw [hq, hr, List.foldl_append]⟩⟩
  intro r hr
  rcases List.mem_append.1 hr with hr | hr
  · exact hv r hr
  · exact hw r hr

theorem leaf (h : Acts s t) (h1 : u.fixed.acts = t.fixed.acts) (h2 : u.port = t.port) (h3 : u.link = t.link) : Acts s u :=
  h.trans ⟨h1, ⟨[], by simp [h2]⟩, ⟨[], h3⟩⟩

theorem ofEngines (h : Engines s t) : Acts s t := ⟨congrArg Fixed.acts h.fixed, h.fetches, h.link⟩

theorem engines (h : Acts s t) (g : Engines t u) : Acts s u := h.trans (.ofEngines g)

theorem fold {α : Type} {f : State → α → State} (hf : ∀ t a, Acts t (f t a)) (l : List α) (h : Acts s t) :
    Acts s (l.foldl f t) := by
  induction l generalizing t with
  | nil => exact h
  | cons a l ih => exact ih (h.trans (hf t a))

theorem pending (h : Acts s t) : t.pending = s.pending := congrArg Fixed.pending h.fixed
theorem clock (h : Acts s t) : t.clock = s.clock := congrArg Fixed.clock h.fixed
theorem pulseTimer (h : Acts s t) : t.pulseTimer = s.pulseTimer := congrArg Fixed.pulseTimer h.fixed
theorem windowDue (h : Acts s t) : t.windowDue = s.windowDue := congrArg Fixed.windowDue h.fixed
theorem pollDue (h : Acts s t) : t.pollDue = s.pollDue := congrArg Fixed.pollDue h.fixed
theorem freeSerial (h : Acts s t) : t.freeSerial = s.freeSerial := congrArg Fixed.freeSerial h.fixed
theorem tracker (h : Acts s t) : t.tracker = s.tracker := congrArg Fixed.tracker h.fixed
theorem seats (h : Acts s t) : t.seats = s.seats := congrArg Fixed.seats h.fixed
theorem store (h : Acts s t) : t.store = s.store := congrArg Fixed.store h.fixed
theorem power (h : Acts s t) : t.power = s.power := congrArg Fixed.power h.fixed
theorem settings (h : Acts s t) : t.settings = s.settings := congrArg Fixed.settings h.fixed
theorem inForce (h : Acts s t) : t.inForce = s.inForce := congrArg Fixed.inForce h.fixed
theorem code (h : Acts s t) : t.ann.code = s.ann.code := congrArg Fixed.code h.fixed
theorem pressed (h : Acts s t) : t.ann.pressed = s.ann.pressed := congrArg Fixed.pressed h.fixed
theorem serving (h : Acts s t) : t.port.serving = s.port.serving := congrArg Fixed.serving h.fixed
theorem second (h : Acts s t) : t.port.second = s.port.second := congrArg Fixed.second h.fixed
theorem integrity (h : Acts s t) : t.voices.integrity = s.voices.integrity := congrArg Fixed.integrity h.fixed
theorem firstFault (h : Acts s t) : t.voices.firstFault = s.voices.firstFault := congrArg Fixed.firstFault h.fixed
theorem residents (h : Acts s t) : t.voices.residents = s.voices.residents := congrArg Fixed.residents h.fixed
theorem cueTable (h : Acts s t) : { t.cues with cues := [] } = { s.cues with cues := [] } := congrArg Fixed.cues h.fixed
theorem routeState (h : Acts s t) : t.cues.routeState = s.cues.routeState := 
  congrArg (fun f : Fixed => f.cues.routeState) h.fixed
theorem scenes (h : Acts s t) : t.cues.scenes = s.cues.scenes := congrArg (fun f : Fixed => f.cues.scenes) h.fixed
theorem mask (h : Acts s t) : t.cues.mask = s.cues.mask := 
  congrArg (fun f : Fixed => f.cues.mask) h.fixed
theorem upper (h : Acts s t) : t.mixer.upper = s.mixer.upper := congrArg (fun f : Fixed => f.zones.1) h.fixed
theorem lower (h : Acts s t) : t.mixer.lower = s.mixer.lower := congrArg (fun f : Fixed => f.zones.2.1) h.fixed
theorem output (h : Acts s t) : (t.mixer.output, t.mixer.outputRamp) = (s.mixer.output, s.mixer.outputRamp) :=
  congrArg Fixed.output h.fixed
theorem master (h : Acts s t) : t.lights.master = s.lights.master := congrArg Fixed.master h.fixed
theorem blank (h : Acts s t) : t.lights.blank = s.lights.blank := congrArg Fixed.blank h.fixed

end Acts

section
variable {s t : State}

/-! ### Admissions (R82 to R87) -/

theorem giveTicket_acts (h : Acts s t) (e : Entry) : Acts s (t.giveTicket e).1 := h.leaf rfl rfl rfl

theorem preempt_acts (h : Acts s t) (e : Entry) : Acts s (t.preempt e).1 := by
  unfold State.preempt
  dsimp only
  apply (giveTicket_acts ?_ e).engines (select_engines (activate_engines (.refl _) _))
  split
  · exact h.engines (leaveActive_engines (releaseActive_engines (.refl _)))
  · split
    · exact h.engines (annEnded_engines (leaveActive_engines (releaseActive_engines (.refl _))) _ _)
    · exact h.engines (pushStack_engines (leaveActive_engines (releaseActive_engines (.refl _))) _)

theorem joinQueue_acts (h : Acts s t) (e : Entry) : Acts s (t.joinQueue e).1 := by
  unfold State.joinQueue
  dsimp only
  refine Acts.engines ?_ (select_engines (.refl _))
  exact (giveTicket_acts h e).leaf rfl rfl rfl

theorem admitEntry_acts (h : Acts s t) (e : Entry) : Acts s (t.admitEntry e).1 := by
  unfold State.admitEntry
  split
  · exact h
  · split
    · exact preempt_acts h e
    · split
      · exact joinQueue_acts h e
      · split
        · exact h
        · split
          · apply joinQueue_acts
            refine Acts.engines ?_ (annEnded_engines (.refl _) _ _)
            exact h.leaf rfl rfl rfl
          · exact h

theorem admitSilently_acts (h : Acts s t) (e : Entry) : Acts s (t.admitSilently e) := by
  unfold State.admitSilently
  have ha := admitEntry_acts h e
  revert ha
  generalize t.admitEntry e = p
  intro ha
  obtain ⟨u, o⟩ := p
  cases o
  · exact ha
  · exact ha
  · exact ha.engines (annReport_engines (.refl _) _ _)

/-- A press does this beyond making the press-to-talk state PRESSED (R96). -/
theorem livePress_acts (s : State) : Acts (s.setAnn fun a => { a with pressed := true }) s.livePress := by
  unfold State.livePress
  dsimp only
  split
  · split
    · exact (Acts.refl _).leaf rfl rfl rfl
    · split
      · exact .refl _
      · exact admitSilently_acts (.refl _) _
  · split
    · exact .refl _
    · exact admitSilently_acts (.refl _) _

/-- A release does this beyond making the press-to-talk state RELEASED (R97). -/
theorem liveRelease_engines (s : State) : Engines (s.setAnn fun a => { a with pressed := false }) s.liveRelease := by
  unfold State.liveRelease
  dsimp only
  split
  · split
    · split
      · split
        · exact select_engines (endActive_engines (.refl _) _)
        · exact (Engines.refl _).leaf rfl rfl rfl
      · exact select_engines (endActive_engines (.refl _) _)
      · exact .refl _
      · exact .refl _
    · exact withdrawLive_engines (.refl _)
  · exact withdrawLive_engines (.refl _)

/-! ### The quiet zone and the need (R145) -/

theorem deriveNeed_acts (h : Acts s t) : Acts s t.deriveNeed := by
  unfold State.deriveNeed
  split
  · exact h
  · refine Acts.engines ?_ (deriveDemand_engines (.refl _))
    exact h.leaf rfl rfl rfl

theorem setQuiet_acts (h : Acts s t) (quiet : Bool) : Acts s (t.setQuiet quiet) := by
  unfold State.setQuiet
  apply deriveNeed_acts
  exact h.leaf rfl rfl rfl

/-! ### Scenes (R160) -/

theorem applyScene_fixed (l : Lights) (scene : Scene) (now : Clock) :
    (l.applyScene scene now).master = l.master ∧ (l.applyScene scene now).blank = l.blank ∧
      (l.applyScene scene now).cls = l.cls ∧
      ∀ i, ((l.applyScene scene now).channels.get i).base = (l.channels.get i).base ∧
        ((l.applyScene scene now).channels.get i).scene =
          (scene.find? fun e : SceneEntry => decide (e.channel = i)).map SceneEntry.level ∧
        ((l.applyScene scene now).channels.get i).announce = (l.channels.get i).announce := by
  refine ⟨rfl, rfl, rfl, fun i => ?_⟩
  unfold Lights.applyScene
  rw [Table.get_ofFn]
  have key : ∀ (c : Channel) (ramp : Nat), ((c.settle ramp now).form l.master l.blank).base = c.base ∧
      ((c.settle ramp now).form l.master l.blank).scene = c.scene ∧
      ((c.settle ramp now).form l.master l.blank).announce = c.announce := by
    intro c ramp
    unfold Channel.settle Channel.form
    split
    · next h => exact ⟨rfl, rfl, h.symm ▸ rfl⟩
    · split
      · exact ⟨rfl, rfl, rfl⟩
      · split <;> exact ⟨rfl, rfl, rfl⟩
  dsimp only
  split
  · next e he => exact ⟨(key _ _).1, (key _ _).2.1.trans (by simp [he]), (key _ _).2.2⟩
  · next he => exact ⟨(key _ _).1, (key _ _).2.1.trans (by simp [he]), (key _ _).2.2⟩

theorem applyScene_acts (h : Acts s t) (scene : Scene) (now : Clock) :
    Acts s { t with lights := t.lights.applyScene scene now } := by
  refine h.leaf ?_ rfl rfl
  obtain ⟨h1, h2, -, h4⟩ := applyScene_fixed t.lights scene now
  unfold Fixed.acts State.fixed
  dsimp only
  rw [h1, h2]
  congr 1
  refine Table.ext_get fun i => ?_
  simp only [Table.get_map, Channel.layers]
  rw [(h4 i).1]

/-! ### Fired cues (R30 to R36) -/

theorem setCues_acts (h : Acts s t) (f : List Cue → List Cue) : Acts s (t.setCues f) := h.leaf rfl rfl rfl

theorem cueReport_acts (h : Acts s t) (event : CueEvent) (n : Nat) (kind : CueKind) (forced : Bool) :
    Acts s (t.cueReport event n kind forced) := h.engines (report_engines (.refl _) _)

theorem handCue_acts (h : Acts s t) (n : Nat) (c : Cue) {u : State} (hu : t.handCue n c = some u) : Acts s u := by
  unfold State.handCue at hu
  split at hu
  · obtain ⟨p, -, rfl⟩ := Option.map_eq_some_iff.1 hu
    exact h.engines (fireCommentary_engines (.refl _) _ _ _)
  · obtain ⟨p, -, rfl⟩ := Option.map_eq_some_iff.1 hu
    exact admitSilently_acts h _
  · obtain ⟨p, -, rfl⟩ := Option.map_eq_some_iff.1 hu
    exact admitSilently_acts h _
  · split at hu
    · cases hu
    · obtain ⟨p, -, rfl⟩ := Option.map_eq_some_iff.1 hu
      exact applyScene_acts h _ _
  · cases hu; exact setQuiet_acts h _
  · cases hu; exact setQuiet_acts h _

theorem fireCue_acts (h : Acts s t) (forced : Bool) (n : Nat) : Acts s (State.fireCue forced t n) := by
  unfold State.fireCue
  split
  · exact h
  · next c _ =>
    dsimp only
    split
    · next u hu => exact cueReport_acts (handCue_acts (setCues_acts h _) n c hu) _ _ _ _
    · exact cueReport_acts (setCues_acts h _) _ _ _ _

theorem advance_acts (h : Acts s t) : Acts s t.advance := by
  unfold State.advance
  split
  · exact .fold (fun t n => fireCue_acts (.refl t) false n) _ h
  · exact h

theorem skipCue_acts (h : Acts s t) (n : Nat) : Acts s (t.skipCue n) := by
  unfold State.skipCue
  split
  · exact h
  · split
    · exact cueReport_acts (setCues_acts h _) _ _ _ _
    · exact h

theorem jumpForward_acts (h : Acts s t) : Acts s t.jumpForward := by
  unfold State.jumpForward
  split
  · exact advance_acts (.fold (fun t n => skipCue_acts (.refl t) n) _ h)
  · exact h

theorem rearm_acts (h : Acts s t) : Acts s t.rearm := by
  unfold State.rearm
  dsimp only
  split
  · exact h
  · exact cueReport_acts (setCues_acts h _) _ _ _ _

theorem jumpBackward_acts (h : Acts s t) (distance : Nat) : Acts s (t.jumpBackward distance) := by
  unfold State.jumpBackward
  split
  · apply advance_acts
    split
    · exact rearm_acts h
    · exact h
  · exact h

/-! ### Counts and enabled slots on their way (R45, R47, R58) -/

theorem sendListeners_eq (s : State) :
    s.sendListeners = { s with
      seats := { s.seats with reported := s.seats.counts, lastReport := some s.clock }
      link := s.link.report (.listeners s.seats.counts s.clock) } := rfl

/-- What telling of changed counts can do (R58). -/
theorem tellListeners_eq (s : State) :
    ∃ (r : Table Nat 12) (l : Option Clock) (p : Bool) (rs : List Report),
      s.tellListeners = { s with
        seats := { s.seats with reported := r, lastReport := l, reportPending := p }
        link := rs.foldl Link.report s.link } := by
  unfold State.tellListeners
  split
  · exact ⟨_, _, _, [_], sendListeners_eq s⟩
  · split
    · exact ⟨_, _, _, [_], sendListeners_eq s⟩
    · exact ⟨_, _, _, [], rfl⟩

/-- A changed seat table taken (R47): the engines act on the state with the table derived and counted, and LISTENERS is told. -/
theorem seatsTaken_spec (s : State) (t : SeatTable) :
    ∃ u, Engines { s with seats := { t.derive s.settings with counts := (t.derive s.settings).countsNow } } u ∧
      (s.seatsTaken t = u ∨ s.seatsTaken t = u.tellListeners) := by
  unfold State.seatsTaken
  dsimp only
  split
  · exact ⟨_, deriveDemand_engines (.refl _), .inr rfl⟩
  · exact ⟨_, .refl _, .inl rfl⟩

/-- The set of enabled slots formed again (R45). -/
theorem refreshEnabled_spec (s : State) :
    (s.enabledNow = s.seats.enabled ∧ s.refreshEnabled = s) ∨
      ∃ u, Engines
          { s with
            seats := { ({ s.seats with enabled := s.enabledNow } : SeatTable).derive s.settings with
              counts := (({ s.seats with enabled := s.enabledNow } : SeatTable).derive s.settings).countsNow } } u ∧
        (s.refreshEnabled = u ∨ s.refreshEnabled = u.tellListeners) := by
  unfold State.refreshEnabled
  dsimp only
  split
  · next h => exact .inl ⟨h, rfl⟩
  · right
    split
    · exact ⟨_, deriveDemand_engines (applyEnabled_engines (.refl _)), .inr rfl⟩
    · exact ⟨_, deriveDemand_engines (applyEnabled_engines (.refl _)), .inl rfl⟩

end

end Sys2Proof.Machine
end

