-- ==== Sys2Proof/Laws/Beside.lean ====
section
/-! SUPPORT. What a start of a voice and the forming of a fan-out read: both come to the same beside any announcement engine,
commentary engine, lights, link, mixer and cue engine. -/

namespace Sys2Proof.Machine

/-- The state with the blocks replaced that neither a start of a voice nor the forming of a fan-out reads. -/
def State.beside (s : State) (a : Announcements) (c : Commentary) (l : Lights) (k : Link) (m : Mixer) (q : CueEngine) : State :=
  { s with ann := a, comm := c, lights := l, link := k, mixer := m, cues := q }

theorem topUp_beside (s : State) (v : Fin 16) (a c l k m q) :
    (s.beside a c l k m q).topUp v = (s.topUp v).beside a c l k m q := by
  unfold State.topUp
  dsimp only
  by_cases h : (s.voice v).wantsPage
  · rw [if_pos h, if_pos (show ((s.beside a c l k m q).voice v).wantsPage from h)]; rfl
  · rw [if_neg h, if_neg (show ¬((s.beside a c l k m q).voice v).wantsPage from h)]

theorem setVoice_beside (s : State) (v : Fin 16) (f : Voice → Voice) (a c l k m q) :
    (s.beside a c l k m q).setVoice v f = (s.setVoice v f).beside a c l k m q := rfl

theorem dropVoice_beside (s : State) (v : Fin 16) (a c l k m q) :
    (s.beside a c l k m q).dropVoice v =
      (s.dropVoice v).beside a c l k { m with destinations := m.destinations.set v none } q := rfl

theorem lookUp_beside (s : State) (v : Fin 16) (clip page : Nat) (a c l k m q) :
    ∃ m', (s.beside a c l k m q).lookUp v clip page =
      ((s.lookUp v clip page).1.beside a c l k m' q, (s.lookUp v clip page).2) := by
  have hs : ∀ f g a c l k m q,
      (((s.setVoice v f).setVoice v g).beside a c l k m q).residentPages clip = s.residentPages clip :=
    fun _ _ _ _ _ _ _ _ => rfl
  have hs' : ∀ f g, ((s.setVoice v f).setVoice v g).residentPages clip = s.residentPages clip := fun _ _ => rfl
  have ht : ∀ (x : State) a c l k m q, (x.beside a c l k m q).clock = x.clock := fun _ _ _ _ _ _ _ => rfl
  unfold State.lookUp
  rw [show (s.beside a c l k m q).clip clip = s.clip clip from rfl]
  cases s.clip clip with
  | none => exact ⟨_, rfl⟩
  | some e =>
    by_cases h : e.count ≤ page
    · simp only [if_pos h, setVoice_beside, dropVoice_beside]; exact ⟨_, rfl⟩
    · simp only [if_neg h, setVoice_beside, hs, hs', ht]
      generalize (if page = 0 then s.residentPages clip else none) = o
      cases o with
      | none => simp only [topUp_beside]; exact ⟨m, rfl⟩
      | some ps => simp only [topUp_beside]; exact ⟨m, rfl⟩

/-- A start of a voice reads none of the blocks that `State.beside` replaces, and writes the mixer's destinations alone among
them (R106, R142). -/
theorem startVoice_beside (s : State) (v : Fin 16) (o : Owner) (cls : AnnClass) (clip page : Nat) (a c l k m q) :
    ∃ m', (s.beside a c l k m q).startVoice v o cls clip page =
      ((s.startVoice v o cls clip page).1.beside a c l k m' q, (s.startVoice v o cls clip page).2) := by
  have hr : ∀ f, ((s.beside a c l k m q).setVoice v f).store.reload = s.store.reload := fun _ => rfl
  have hs : ∀ f, (s.setVoice v f).store.reload = s.store.reload := fun _ => rfl
  unfold State.startVoice
  simp only [hr, hs]
  cases s.store.reload with
  | some _ => exact ⟨_, rfl⟩
  | none => exact lookUp_beside { s.setVoice v _ with mixer := _ } v clip page a c l k _ q

theorem startRole_beside (s : State) (e e' : Entry) (he : (e'.ticket, e'.cls, e'.clips) = (e.ticket, e.cls, e.clips))
    (r : Role) (clip : Nat) (a c l k m q) :
    ∃ m', (s.beside a c l k m q).startRole e' r clip =
      ((s.startRole e r clip).1.beside a c l k m' q, (s.startRole e r clip).2) := by
  obtain ⟨h1, h2, -⟩ : e'.ticket = e.ticket ∧ e'.cls = e.cls ∧ e'.clips = e.clips := by simpa using he
  unfold State.startRole
  rw [show (s.beside a c l k m q).freeVoice = s.freeVoice from rfl, h1, h2]
  cases s.freeVoice with
  | none => exact ⟨m, rfl⟩
  | some v =>
    obtain ⟨m', h⟩ := startVoice_beside s v (.announcement e.ticket r) e.cls clip 0 a c l k m q
    dsimp only
    rw [h]
    rcases s.startVoice v (.announcement e.ticket r) e.cls clip 0 with ⟨x, o⟩
    cases o <;> exact ⟨m', rfl⟩

theorem clipOf_beside (s : State) (e e' : Entry) (he : e'.clips = e.clips) (i : Fin 12) (a c l k m q) :
    (s.beside a c l k m q).clipOf e' i = s.clipOf e i := by
  unfold State.clipOf
  rw [he]
  rfl

theorem fanSlot_beside (e e' : Entry) (he : (e'.ticket, e'.cls, e'.clips) = (e.ticket, e.cls, e.clips)) (clip : Option Nat)
    (s : State) (f : FanOut) (i : Fin 12) (a c l k m q) :
    ∃ m', State.fanSlot e' clip (s.beside a c l k m q, f) i =
      ((State.fanSlot e clip (s, f) i).1.beside a c l k m' q, (State.fanSlot e clip (s, f) i).2) := by
  have hc : e'.clips = e.clips := by simp_all
  unfold State.fanSlot
  dsimp only
  rw [clipOf_beside s e e' hc]
  cases s.clipOf e i with
  | none => exact ⟨m, rfl⟩
  | some x =>
    cases f.speaker with
    | none => exact ⟨m, rfl⟩
    | some v =>
      dsimp only
      split
      · exact ⟨m, rfl⟩
      · obtain ⟨m', h⟩ := startRole_beside s e e' he (.slot i) x a c l k m q
        rw [h]
        rcases s.startRole e (.slot i) x with ⟨y, o, vs⟩
        cases o <;> exact ⟨m', rfl⟩

/-- A fan-out reads of the entry its ticket, its class and its clip list alone, and of the state neither the announcement
engine nor commentary, lights, link, mixer and cues (R93). -/
theorem fanOut_beside (s : State) (e e' : Entry) (he : (e'.ticket, e'.cls, e'.clips) = (e.ticket, e.cls, e.clips)) (a c l k m q) :
    ∃ m', (s.beside a c l k m q).fanOut e' = ((s.fanOut e).1.beside a c l k m' q, (s.fanOut e).2) := by
  have hc : e'.clips = e.clips := by simp_all
  have hclip : ∀ i, (s.beside a c l k m q).clipOf e' i = s.clipOf e i := fun i => clipOf_beside s e e' hc i a c l k m q
  have hsp : (s.beside a c l k m q).speakerClip e' = s.speakerClip e := by
    unfold State.speakerClip
    rw [show (s.beside a c l k m q).clipOf e' = s.clipOf e from funext hclip]
    rfl
  have hfold : ∀ (is : List (Fin 12)) (x : State) (f : FanOut) (m : Mixer) (sc : Option Nat),
      ∃ m', is.foldl (State.fanSlot e' sc) (x.beside a c l k m q, f) =
        ((is.foldl (State.fanSlot e sc) (x, f)).1.beside a c l k m' q, (is.foldl (State.fanSlot e sc) (x, f)).2) := by
    intro is
    induction is with
    | nil => intro x f m sc; exact ⟨m, rfl⟩
    | cons i is ih =>
      intro x f m sc
      obtain ⟨m', h⟩ := fanSlot_beside e e' he sc x f i a c l k m q
      simp only [List.foldl_cons]
      rw [h]
      exact ih _ _ _ _
  have hrest : ∀ (x : State) (m : Mixer) (sc : Option Nat) (sp : Option (Fin 16)) (vs : List (Fin 16)),
      ∃ m', (byListeners (x.beside a c l k m q).seats.counts
          (allSlots.filter fun i => (x.beside a c l k m q).heard i && ((x.beside a c l k m q).clipOf e' i).isSome)).foldl
          (State.fanSlot e' sc)
          (x.beside a c l k m q, { map := (x.beside a c l k m q).fanBase e' sc sp, voices := vs, speaker := sp }) =
        (((byListeners x.seats.counts (allSlots.filter fun i => x.heard i && (x.clipOf e i).isSome)).foldl
          (State.fanSlot e sc) (x, { map := x.fanBase e sc sp, voices := vs, speaker := sp })).1.beside a c l k m' q,
        ((byListeners x.seats.counts (allSlots.filter fun i => x.heard i && (x.clipOf e i).isSome)).foldl
          (State.fanSlot e sc) (x, { map := x.fanBase e sc sp, voices := vs, speaker := sp })).2) := by
    intro x m sc sp vs
    have hx : (x.beside a c l k m q).clipOf e' = x.clipOf e := funext fun i => clipOf_beside x e e' hc i a c l k m q
    have hb : (x.beside a c l k m q).fanBase e' sc sp = x.fanBase e sc sp := by
      unfold State.fanBase
      rw [hx]
      rfl
    rw [hb, hx]
    exact hfold _ x _ m sc
  unfold State.fanOut
  rw [hsp]
  cases s.speakerClip e with
  | none => exact hrest s m none none []
  | some clip =>
    obtain ⟨m', h⟩ := startRole_beside s e e' he .speaker clip a c l k m q
    dsimp only
    rw [h]
    exact hrest _ _ _ _ _
end Sys2Proof.Machine
end

