-- ==== Sys2Proof/Laws/Steps.lean ====
section
/-! SUPPORT. What surrounds every command, for properties that every step keeps: the queue, the taking of a request, the end
of an event. A property closed under these is kept by a step when it is kept by what the command itself does. -/

namespace Sys2Proof.Machine

/-- A property that the waiting commands, the link and the end of an event do not touch. -/
structure Closed (P : State → Prop) : Prop where
  queue : ∀ (s : State) (l : List Instr) (n : Nat), P s → P { s with pending := l, freeSerial := n }
  link : ∀ (s : State) (l : Link), P s → P { s with link := l }
  ending : ∀ s : State, P s → P s.endEvent

namespace Closed
variable {P : State → Prop} (hP : Closed P)
include hP

theorem reply {s : State} (h : P s) (kind : Nat) (tag : Byte) (code : ResultCode) (data : ReplyData) :
    P (s.reply kind tag code data) := hP.link s _ h

theorem report {s : State} (h : P s) (r : Report) : P (s.report r) := hP.link s _ h

theorem kick {s : State} (h : P s) : P s.kick := hP.link s _ h

theorem setLink {s : State} (h : P s) (f : Link → Link) : P (s.setLink f) := hP.link s _ h

theorem event {s t : State} {act : State → State} (h : P s) (ha : ∀ u, P u → P (act u)) (he : s.event act = .next t) : P t := by
  unfold State.event at he
  cases he
  split
  · exact hP.ending _ (ha _ h)
  · exact h

theorem request {s : State} {kind : Nat} {tag : Byte} {owner : State → State} (h : P s) (ha : ∀ u, P u → P (owner u)) :
    P (s.request kind tag owner) := by
  unfold State.request
  split
  · dsimp only
    split
    · split
      · exact hP.kick (hP.reply (hP.link s _ h) _ _ _ _)
      · exact ha _ (hP.link s _ h)
    · exact ha _ (hP.link s _ h)
  · exact h

theorem command {s t : State} {kind : Nat} {tag : Byte} {act : State → State} (h : P s) (ha : ∀ u, P u → P (act u))
    (he : s.command kind tag act = .next t) : P t := by
  unfold State.command at he
  cases he
  exact hP.request h fun u hu => hP.ending _ (ha u hu)

theorem query {s t : State} {kind : Nat} {tag : Byte} {act : State → State} (h : P s) (ha : ∀ u, P u → P (act u))
    (he : s.query kind tag act = .next t) : P t := by
  unfold State.query at he
  cases he
  exact hP.request h fun u hu => hP.kick (ha u hu)

/-- A step keeps a closed property when exec and the passing of a millisecond do. -/
theorem kept (ht : ∀ s, P s → P s.tick) (he : ∀ c s t, P s → exec c s = .next t → P t) : Kept P := by
  intro s t h hs
  unfold step at hs
  split at hs
  · next c rest _ => exact he c _ t (hP.queue s rest s.freeSerial h) hs
  · cases hs
    unfold State.idle
    split
    · split
      · exact ht _ h
      · exact hP.queue s _ _ h
    · exact h

end Closed

/-! ### Pages read, writes done -/

/-- Reading a page counts a free value and does nothing else. -/
theorem readPage_state (s : State) (page : Nat) (failed : Bool) :
    ∃ n, (s.readPage page failed).2 = { s with freeSerial := n } := by
  unfold State.readPage
  split
  · exact ⟨s.freeSerial, rfl⟩
  · split
    · exact ⟨_, rfl⟩
    · exact ⟨s.freeSerial, rfl⟩

/-- A page read for a clip: it is checked, and a failing one counted (R112, R113). -/
theorem checkPage_state (s : State) (page : Nat) (data : Option (List Byte)) (clip index : Nat) (quiet : Bool) :
    ∃ n f l faults,
      (s.checkPage page data clip index quiet).2 =
        { s with
          voices := { s.voices with integrity := n, firstFault := f }, link := l, power := { s.power with faults := faults } } := by
  unfold State.checkPage State.pageFailed
  dsimp only
  split
  · split
    · exact ⟨_, _, s.link, s.power.faults, rfl⟩
    · split
      · exact ⟨_, _, s.link, _, rfl⟩
      · exact ⟨_, _, _, s.power.faults, rfl⟩
  · exact ⟨s.voices.integrity, s.voices.firstFault, s.link, s.power.faults, rfl⟩

end Sys2Proof.Machine
end

