-- ==== Sys2Proof/Laws/Wide.lean ====
section
/-! SUPPORT. What nearly every command leaves alone: tracker, route, power, settings and the store's bytes and locks. One lemma
per operation says that it does. -/

namespace Sys2Proof.Machine

/-- The part of the state that only the tracker's, the route's, the power, the lock and the settings commands and the ends of
writes change. -/
structure WideView where
  pending : List Instr
  clock : Clock
  pulseTimer : BitVec 32
  tracker : Tracker
  cues : CueEngine
  power : Power
  settings : Settings
  inForce : InForce
  cells : Memory
  interrupted : List Nat
  locked : List Nat
  volatileLocks : List Nat
  lockdowns : List Nat
  freeze : Bool
deriving DecidableEq

/-- That part of a state: the cues without their states, and without the directory. -/
def State.wide (s : State) : WideView :=
  { pending := s.pending, clock := s.clock, pulseTimer := s.pulseTimer, tracker := s.tracker
    cues := { s.cues with cues := [], directory := [] }, power := { s.power with faults := [] }, settings := s.settings
    inForce := s.inForce, cells := s.store.cells, interrupted := s.store.interrupted, locked := s.store.locked
    volatileLocks := s.store.volatileLocks, lockdowns := s.store.lockdowns, freeze := s.store.freeze }

section
variable {s t : State}

theorem Acts.wide (h : Acts s t) : t.wide = s.wide := by
  have f := h.fixed
  have h1 : ({ t.cues with cues := [], directory := [] } : CueEngine) = { s.cues with cues := [], directory := [] } :=
    congrArg (fun f : Fixed => { f.cues with cues := [], directory := [] }) f
  unfold State.wide
  rw [h1, h.pending, h.clock, h.pulseTimer, h.tracker, h.power, h.settings, h.inForce, h.store]

theorem Engines.wide (h : Engines s t) : t.wide = s.wide := (Acts.ofEngines h).wide

theorem EventFrame.wide (h : EventFrame s t) : t.wide = s.wide := by
  have hs := h.store
  unfold State.wide
  rw [h.cues, h.pending, h.clock, h.pulseTimer, h.tracker, h.power, h.settings, h.inForce]
  have cells := congrArg Store.cells hs
  have interrupted := congrArg Store.interrupted hs
  have locked := congrArg Store.locked hs
  have volatileLocks := congrArg Store.volatileLocks hs
  have lockdowns := congrArg Store.lockdowns hs
  have freeze := congrArg Store.freeze hs
  dsimp only at cells interrupted locked volatileLocks lockdowns freeze
  rw [cells, interrupted, locked, volatileLocks, lockdowns, freeze]

end

@[simp] theorem endEvent_wide (s : State) : s.endEvent.wide = s.wide := (endEvent_frame s).wide
@[simp] theorem reply_wide (s : State) (k : Nat) (tag : Byte) (c : ResultCode) (d : ReplyData) : (s.reply k tag c d).wide = s.wide := rfl
@[simp] theorem report_wide (s : State) (r : Report) : (s.report r).wide = s.wide := rfl
@[simp] theorem kick_wide (s : State) : s.kick.wide = s.wide := rfl
@[simp] theorem setLink_wide (s : State) (f : Link → Link) : (s.setLink f).wide = s.wide := rfl
@[simp] theorem setVoice_wide (s : State) (v : Fin 16) (f : Voice → Voice) : (s.setVoice v f).wide = s.wide := rfl
@[simp] theorem setAnn_wide (s : State) (f : Announcements → Announcements) : (s.setAnn f).wide = s.wide := rfl
@[simp] theorem dropVoice_wide (s : State) (v : Fin 16) : (s.dropVoice v).wide = s.wide := rfl
@[simp] theorem portDone_wide (s : State) : s.portDone.wide = s.wide := rfl
@[simp] theorem postRead_wide (s : State) (r : PortRead) : (s.postRead r).wide = s.wide := rfl
@[simp] theorem acceptWrite_wide (s : State) (k : WriteKind) (n : Nat) (p : Option Nat) : (s.acceptWrite k n p).wide = s.wide := rfl
@[simp] theorem shiftWrite_wide (s : State) (a b : WritePhase) : (s.shiftWrite a b).wide = s.wide := by rw [shiftWrite_eq]; rfl
@[simp] theorem topUp_wide (s : State) (v : Fin 16) : (s.topUp v).wide = s.wide := (topUp_engines (.refl s) v).wide
@[simp] theorem tellFree_wide (s : State) : s.tellFree.wide = s.wide := (tellFree_engines (.refl s)).wide
@[simp] theorem select_wide (s : State) : s.select.wide = s.wide := (select_engines (.refl s)).wide
@[simp] theorem endActive_wide (s : State) (o : AnnOutcome) : (s.endActive o).wide = s.wide := (endActive_engines (.refl s) o).wide
@[simp] theorem cancelEntry_wide (s : State) (e : Entry) : (s.cancelEntry e).wide = s.wide := (cancelEntry_engines (.refl s) e).wide
@[simp] theorem admitEntry_wide (s : State) (e : Entry) : (s.admitEntry e).1.wide = s.wide := (admitEntry_acts (.refl s) e).wide
@[simp] theorem livePress_wide (s : State) : s.livePress.wide = s.wide := (livePress_acts s).wide
@[simp] theorem liveRelease_wide (s : State) : s.liveRelease.wide = s.wide := (liveRelease_engines s).wide
@[simp] theorem endDelay_wide (s : State) (i : Fin 12) : (s.endDelay i).wide = s.wide := (endDelay_engines (.refl s) i).wide
@[simp] theorem finishSegment_wide (s : State) (i : Fin 12) : (s.finishSegment i).wide = s.wide := (finishSegment_engines (.refl s) i).wide
@[simp] theorem voiceEnded_wide (s : State) (v : Fin 16) : (s.voiceEnded v).wide = s.wide := (voiceEnded_engines (.refl s) v).wide
@[simp] theorem ownerActs_wide (s : State) (o : Option Owner) (v : Fin 16) : (s.ownerActs o v).wide = s.wide :=
  (ownerActs_engines (.refl s) o v).wide
@[simp] theorem stopCommentary_wide (s : State) : s.stopCommentary.wide = s.wide := (stopCommentary_engines (.refl s)).wide
@[simp] theorem dropCueEntries_wide (s : State) : s.dropCueEntries.wide = s.wide := (dropCueEntries_engines (.refl s)).wide
@[simp] theorem deriveDemand_wide (s : State) : s.deriveDemand.wide = s.wide := (deriveDemand_engines (.refl s)).wide
@[simp] theorem advance_wide (s : State) : s.advance.wide = s.wide := (advance_acts (.refl s)).wide
@[simp] theorem jumpForward_wide (s : State) : s.jumpForward.wide = s.wide := (jumpForward_acts (.refl s)).wide
@[simp] theorem jumpBackward_wide (s : State) (d : Nat) : (s.jumpBackward d).wide = s.wide := (jumpBackward_acts (.refl s) d).wide
@[simp] theorem fireCue_wide (s : State) (forced : Bool) (n : Nat) : (State.fireCue forced s n).wide = s.wide :=
  (fireCue_acts (.refl s) forced n).wide
@[simp] theorem deriveNeed_wide (s : State) : s.deriveNeed.wide = s.wide := (deriveNeed_acts (.refl s)).wide
@[simp] theorem setQuiet_wide (s : State) (q : Bool) : (s.setQuiet q).wide = s.wide := (setQuiet_acts (.refl s) q).wide
@[simp] theorem readPage_wide (s : State) (p : Nat) (f : Bool) : (s.readPage p f).2.wide = s.wide := by
  obtain ⟨n, h⟩ := readPage_state s p f
  rw [h]; rfl
@[simp] theorem checkPage_wide (s : State) (p : Nat) (d : Option (List Byte)) (c i : Nat) (q : Bool) :
    (s.checkPage p d c i q).2.wide = s.wide := by
  obtain ⟨n, f, l, fs, h⟩ := checkPage_state s p d c i q
  rw [h]; rfl
@[simp] theorem tellListeners_wide (s : State) : s.tellListeners.wide = s.wide := by
  obtain ⟨r, l, p, rs, h⟩ := tellListeners_eq s
  rw [h]; rfl

@[simp] theorem seatsTaken_wide (s : State) (t : SeatTable) : (s.seatsTaken t).wide = s.wide := by
  obtain ⟨u, hu, h | h⟩ := seatsTaken_spec s t
  · rw [h]; exact hu.wide
  · rw [h, tellListeners_wide]; exact hu.wide

@[simp] theorem refreshEnabled_wide (s : State) : s.refreshEnabled.wide = s.wide := by
  obtain ⟨-, h⟩ | ⟨u, hu, h | h⟩ := refreshEnabled_spec s
  · rw [h]
  · rw [h]; exact hu.wide
  · rw [h, tellListeners_wide]; exact hu.wide

@[simp] theorem endListenersHold_wide (s : State) : s.endListenersHold.wide = s.wide := by
  unfold State.endListenersHold; dsimp only; split <;> rfl

@[simp] theorem missReply_wide (s : State) (b : Fin 16) : (s.missReply b).wide = s.wide := by
  unfold State.missReply; dsimp only
  split
  · exact seatsTaken_wide _ _
  · rfl

@[simp] theorem takeReply_wide (s : State) (r : PollReply) : (s.takeReply r).wide = s.wide := by
  unfold State.takeReply; dsimp only
  split
  · exact seatsTaken_wide _ _
  · exact seatsTaken_wide _ _

@[simp] theorem voicePage_wide (s : State) (v : Fin 16) (serial index page : Nat) (data : Option (List Byte)) :
    (s.voicePage v serial index page data).wide = s.wide := by
  unfold State.voicePage; dsimp only
  split
  · split
    · rfl
    · exact (topUp_wide _ _).trans (checkPage_wide _ _ _ _ _ _)
  · rfl

@[simp] theorem duePlaying_wide (s : State) (v : Fin 16) : (s.duePlaying v).wide = s.wide := by
  unfold State.duePlaying; dsimp only
  split
  · simp
  · split
    · exact topUp_wide _ _
    · split
      · rfl
      · simp

@[simp] theorem dueStopping_wide (s : State) (v : Fin 16) : (s.dueStopping v).wide = s.wide := by
  unfold State.dueStopping; dsimp only
  split
  · simp
  · split <;> rfl

@[simp] theorem residentPage_wide (s : State) (b i p : Nat) (d : Option (List Byte)) (q : Bool) :
    (s.residentPage b i p d q).wide = s.wide := by
  unfold State.residentPage
  split
  · rfl
  · split
    · exact checkPage_wide _ _ _ _ _ _
    · rfl

@[simp] theorem enterService_wide (s : State) : s.enterService.wide = s.wide := stopCommentary_wide _
@[simp] theorem enterRun_wide (s : State) : s.enterRun.wide = s.wide := advance_wide _
@[simp] theorem leaveByMotion_wide (s : State) : s.leaveByMotion.wide = s.wide := enterRun_wide s

@[simp] theorem motionTest_wide (s : State) : s.motionTest.wide = s.wide := by
  unfold State.motionTest
  split
  · split
    · simp
    · rfl
  · rfl

@[simp] theorem waitingLookup_wide (s : State) (v : Fin 16) : (s.waitingLookup v).wide = s.wide := by
  unfold State.waitingLookup
  split
  · rfl
  · next clip page _ =>
    have hl := (lookUp_engines (.refl s) v clip page).wide
    revert hl
    generalize s.lookUp v clip page = p
    obtain ⟨u, o⟩ := p
    intro hl
    cases o
    · exact hl
    · exact (ownerActs_wide _ _ _).trans hl
    · exact (ownerActs_wide _ _ _).trans hl

theorem foldl_wide {α : Type} {f : State → α → State} (hf : ∀ s a, (f s a).wide = s.wide) (l : List α) (s : State) :
    (l.foldl f s).wide = s.wide := by
  induction l generalizing s with
  | nil => rfl
  | cons a l ih => exact (ih _).trans (hf s a)

@[simp] theorem endReload_wide (s : State) (r : Reload) : (s.endReload r).wide = s.wide := by
  unfold State.endReload
  generalize List.finRange 16 = voices
  dsimp only
  split
  · rw [leaveByMotion_wide, foldl_wide waitingLookup_wide]; rfl
  · rw [foldl_wide waitingLookup_wide]; rfl

@[simp] theorem directoryPage_wide (s : State) (use : ReadUse) (d : Option (List Byte)) (erasing : Bool) :
    (s.directoryPage use d erasing).wide = s.wide := by
  unfold State.directoryPage
  split
  · rfl
  · dsimp only
    split
    · simp
    · rfl

@[simp] theorem blankChecked_wide (s : State) (tag : Byte) (page : Nat) (bytes : List Byte) (d : Option (List Byte)) :
    (s.blankChecked tag page bytes d).wide = s.wide := by
  unfold State.blankChecked
  split
  · rfl
  · split
    · rfl
    · split <;> rfl

/-! ### Commands -/

theorem event_wide {s t : State} {act : State → State} (ha : ∀ u, (act u).wide = u.wide) (he : s.event act = .next t) :
    t.wide = s.wide := by
  unfold State.event at he
  cases he
  split
  · exact (endEvent_wide _).trans (ha s)
  · rfl

theorem request_wide {s : State} {kind : Nat} {tag : Byte} {owner : State → State} (ha : ∀ u, (owner u).wide = u.wide) :
    (s.request kind tag owner).wide = s.wide := by
  unfold State.request
  split
  · dsimp only
    split
    · split
      · rfl
      · exact ha _
    · exact ha _
  · rfl

theorem command_wide {s t : State} {kind : Nat} {tag : Byte} {act : State → State} (ha : ∀ u, (act u).wide = u.wide)
    (he : s.command kind tag act = .next t) : t.wide = s.wide := by
  unfold State.command at he
  cases he
  exact request_wide fun u => (endEvent_wide _).trans (ha u)

theorem query_wide {s t : State} {kind : Nat} {tag : Byte} {act : State → State} (ha : ∀ u, (act u).wide = u.wide)
    (he : s.query kind tag act = .next t) : t.wide = s.wide := by
  unfold State.query at he
  cases he
  exact request_wide fun u => ha u

/-- The commands that can change the wide part. -/
def changesWide : Instr → Bool
  | .powerOn
  | .startupPageArrival _
  | .odometerPulse _
  | .speedWindow
  | .positionReport
  | .fixSoft _ _ _ _
  | .fixHard _ _ _
  | .detourBegin _
  | .detourEnd _
  | .selectRoute _ _
  | .routePageArrival _
  | .pttPress
  | .pttRelease
  | .pageProgramComplete
  | .sectorEraseComplete
  | .lockProgramComplete
  | .volatileOn _ _
  | .volatileOff _ _
  | .lockdown _ _
  | .lockEraseComplete
  | .freezeLocks _
  | .linkByte _
  | .frameSent
  | .setSetting _ _ _
  | .settingsEraseComplete
  | .settingsSaved
  | .standby _
  | .ignitionRise
  | .ignitionFall
  | .ignitionOffTimer
  | .entryPhaseEnd => true
  | _ => false

/- One proof text serves every command below, and not every step of it is needed for each. -/
set_option linter.unreachableTactic false
set_option linter.unusedTactic false
set_option linter.unnecessarySeqFocus false

/-- Every other command leaves the wide part alone. -/
theorem exec_wide {c : Instr} {s t : State} (hc : changesWide c = false) (he : exec c s = .next t) : t.wide = s.wide := by
  cases c with
  | powerOn => cases hc
  | startupPageArrival => cases hc
  | odometerPulse => cases hc
  | speedWindow => cases hc
  | positionReport => cases hc
  | fixSoft => cases hc
  | fixHard => cases hc
  | detourBegin => cases hc
  | detourEnd => cases hc
  | getPosition tag =>
    replace he : execGetPosition tag s = .next t := he
    unfold execGetPosition at he
    refine query_wide (fun u => ?_) he
    try dsimp only
    (repeat' split) <;> first | rfl | (simp; done) | (simp; rfl)
  | selectRoute => cases hc
  | routePageArrival => cases hc
  | getCues tag first last =>
    replace he : execGetCues tag first last s = .next t := he
    unfold execGetCues at he
    refine query_wide (fun u => ?_) he
    try dsimp only
    (repeat' split) <;> first | rfl | (simp; done) | (simp; rfl)
  | forceCue tag cue =>
    replace he : execForceCue tag cue s = .next t := he
    unfold execForceCue at he
    refine command_wide (fun u => ?_) he
    try dsimp only
    (repeat' split) <;> first | rfl | (simp; done) | (simp; rfl)
  | poll box =>
    replace he : execPoll box s = .next t := he
    unfold execPoll at he
    refine event_wide (fun u => ?_) he
    try dsimp only
    (repeat' split) <;> first | rfl | (simp; done) | (simp; rfl)
  | missedReply box =>
    replace he : execMissedReply box s = .next t := he
    unfold execMissedReply at he
    refine event_wide (fun u => ?_) he
    try dsimp only
    (repeat' split) <;> first | rfl | (simp; done) | (simp; rfl)
  | pollReply reply =>
    replace he : execPollReply reply s = .next t := he
    unfold execPollReply at he
    refine event_wide (fun u => ?_) he
    try dsimp only
    (repeat' split) <;> first | rfl | (simp; done) | (simp; rfl)
  | setSeat tag seat fields =>
    replace he : execSetSeat tag seat fields s = .next t := he
    unfold execSetSeat at he
    refine command_wide (fun u => ?_) he
    try dsimp only
    (repeat' split) <;> first | rfl | (simp; done) | (simp; rfl)
  | seatApply tag fields =>
    replace he : execSeatApply tag fields s = .next t := he
    unfold execSeatApply at he
    refine command_wide (fun u => ?_) he
    try dsimp only
    (repeat' split) <;> first | rfl | (simp; done) | (simp; rfl)
  | getSeats tag first last =>
    replace he : execGetSeats tag first last s = .next t := he
    unfold execGetSeats at he
    refine query_wide (fun u => ?_) he
    try dsimp only
    (repeat' split) <;> first | rfl | (simp; done) | (simp; rfl)
  | listenersHoldEnd =>
    replace he : execListenersHoldEnd s = .next t := he
    unfold execListenersHoldEnd at he
    refine event_wide (fun u => ?_) he
    try dsimp only
    (repeat' split) <;> first | rfl | (simp; done) | (simp; rfl)
  | streamDelayEnd slot =>
    replace he : execStreamDelayEnd slot s = .next t := he
    unfold execStreamDelayEnd at he
    refine event_wide (fun u => ?_) he
    try dsimp only
    (repeat' split) <;> first | rfl | (simp; done) | (simp; rfl)
  | segmentTimeEnd slot =>
    replace he : execSegmentTimeEnd slot s = .next t := he
    unfold execSegmentTimeEnd at he
    refine event_wide (fun u => ?_) he
    try dsimp only
    (repeat' split) <;> first | rfl | (simp; done) | (simp; rfl)
  | getStreams tag =>
    replace he : execGetStreams tag s = .next t := he
    unfold execGetStreams at he
    refine query_wide (fun u => ?_) he
    try dsimp only
    (repeat' split) <;> first | rfl | (simp; done) | (simp; rfl)
  | announce tag cls clipSet maxWait =>
    replace he : execAnnounce tag cls clipSet maxWait s = .next t := he
    unfold execAnnounce at he
    refine command_wide (fun u => ?_) he
    try dsimp only
    split
    · rfl
    · next c _ =>
      split
      · rfl
      · split
        · rfl
        · next set _ =>
          have h1 := admitEntry_wide u (u.linkEntry c clipSet set maxWait)
          revert h1
          generalize u.admitEntry _ = p
          intro h1
          obtain ⟨u', o⟩ := p
          cases o <;> exact h1
  | noticeMaxWait =>
    replace he : execNoticeMaxWait s = .next t := he
    unfold execNoticeMaxWait at he
    refine event_wide (fun u => ?_) he
    try dsimp only
    (repeat' split) <;> first | rfl | (simp; done) | (simp; rfl)
  | pttPress => cases hc
  | pttRelease => cases hc
  | hangTimerExpiry =>
    replace he : execHangTimerExpiry s = .next t := he
    unfold execHangTimerExpiry at he
    refine event_wide (fun u => ?_) he
    try dsimp only
    (repeat' split) <;> first | rfl | (simp; done) | (simp; rfl)
  | cancelAnnounce tag ticket =>
    replace he : execCancelAnnounce tag ticket s = .next t := he
    unfold execCancelAnnounce at he
    refine command_wide (fun u => ?_) he
    try dsimp only
    (repeat' split) <;> first | rfl | (simp; done) | (simp; rfl)
  | getAnnouncements tag =>
    replace he : execGetAnnouncements tag s = .next t := he
    unfold execGetAnnouncements at he
    refine query_wide (fun u => ?_) he
    try dsimp only
    (repeat' split) <;> first | rfl | (simp; done) | (simp; rfl)
  | setPrecedence tag code =>
    replace he : execSetPrecedence tag code s = .next t := he
    unfold execSetPrecedence at he
    refine query_wide (fun u => ?_) he
    try dsimp only
    (repeat' split) <;> first | rfl | (simp; done) | (simp; rfl)
  | voicePageArrival voice failed =>
    replace he : execVoicePageArrival voice failed s = .next t := he
    unfold execVoicePageArrival at he
    refine event_wide (fun u => ?_) he
    try dsimp only
    (repeat' split) <;> first | rfl | (simp; done) | (simp; rfl)
  | voicePageDue voice =>
    replace he : execVoicePageDue voice s = .next t := he
    unfold execVoicePageDue at he
    refine event_wide (fun u => ?_) he
    try dsimp only
    (repeat' split) <;> first | rfl | (simp; done) | (simp; rfl)
  | fadeEnd voice =>
    replace he : execFadeEnd voice s = .next t := he
    unfold execFadeEnd at he
    refine event_wide (fun u => ?_) he
    try dsimp only
    (repeat' split) <;> first | rfl | (simp; done) | (simp; rfl)
  | writeBegin =>
    replace he : execWriteBegin s = .next t := he
    unfold execWriteBegin at he
    refine event_wide (fun u => ?_) he
    try dsimp only
    (repeat' split) <;> first | rfl | (simp; done) | (simp; rfl)
  | clearStoreFaults tag =>
    replace he : execClearStoreFaults tag s = .next t := he
    unfold execClearStoreFaults at he
    refine query_wide (fun u => ?_) he
    try dsimp only
    (repeat' split) <;> first | rfl | (simp; done) | (simp; rfl)
  | enterService tag =>
    replace he : execEnterService tag s = .next t := he
    unfold execEnterService at he
    refine command_wide (fun u => ?_) he
    try dsimp only
    (repeat' split) <;> first | rfl | (simp; done) | (simp; rfl)
  | leaveService tag =>
    replace he : execLeaveService tag s = .next t := he
    unfold execLeaveService at he
    refine command_wide (fun u => ?_) he
    try dsimp only
    (repeat' split) <;> first | rfl | (simp; done) | (simp; rfl)
  | storeRead tag page =>
    replace he : execStoreRead tag page s = .next t := he
    unfold execStoreRead at he
    refine command_wide (fun u => ?_) he
    try dsimp only
    (repeat' split) <;> first | rfl | (simp; done) | (simp; rfl)
  | storeReadData failed =>
    replace he : execStoreReadData failed s = .next t := he
    unfold execStoreReadData at he
    refine event_wide (fun u => ?_) he
    try dsimp only
    (repeat' split) <;> first | rfl | (simp; done) | (simp; rfl)
  | storeProgram tag page data =>
    replace he : execStoreProgram tag page data s = .next t := he
    unfold execStoreProgram at he
    refine command_wide (fun u => ?_) he
    try dsimp only
    (repeat' split) <;> first | rfl | (simp; done) | (simp; rfl)
  | blankCheckData failed =>
    replace he : execBlankCheckData failed s = .next t := he
    unfold execBlankCheckData at he
    refine event_wide (fun u => ?_) he
    try dsimp only
    (repeat' split) <;> first | rfl | (simp; done) | (simp; rfl)
  | pageProgramComplete => cases hc
  | storeErase tag sector =>
    replace he : execStoreErase tag sector s = .next t := he
    unfold execStoreErase at he
    refine command_wide (fun u => ?_) he
    try dsimp only
    (repeat' split) <;> first | rfl | (simp; done) | (simp; rfl)
  | sectorEraseComplete => cases hc
  | reloadDirectory tag =>
    replace he : execReloadDirectory tag s = .next t := he
    unfold execReloadDirectory at he
    refine command_wide (fun u => ?_) he
    try dsimp only
    (repeat' split) <;> first | rfl | (simp; done) | (simp; rfl)
  | directoryPageArrival failed =>
    replace he : execDirectoryPageArrival failed s = .next t := he
    unfold execDirectoryPageArrival at he
    refine event_wide (fun u => ?_) he
    try dsimp only
    (repeat' split) <;> first | rfl | (simp; done) | (simp; rfl)
  | residentPageArrival failed =>
    replace he : execResidentPageArrival failed s = .next t := he
    unfold execResidentPageArrival at he
    refine event_wide (fun u => ?_) he
    try dsimp only
    (repeat' split) <;> first | rfl | (simp; done) | (simp; rfl)
  | lockPersistent tag known sector =>
    replace he : execLockPersistent tag known sector s = .next t := he
    unfold execLockPersistent at he
    refine command_wide (fun u => ?_) he
    try dsimp only
    (repeat' split) <;> first | rfl | (simp; done) | (simp; rfl)
  | lockProgramComplete => cases hc
  | volatileOn => cases hc
  | volatileOff => cases hc
  | lockdown => cases hc
  | unlockAll tag =>
    replace he : execUnlockAll tag s = .next t := he
    unfold execUnlockAll at he
    refine command_wide (fun u => ?_) he
    try dsimp only
    (repeat' split) <;> first | rfl | (simp; done) | (simp; rfl)
  | lockEraseComplete => cases hc
  | freezeLocks => cases hc
  | getStoreState tag first last =>
    replace he : execGetStoreState tag first last s = .next t := he
    unfold execGetStoreState at he
    refine query_wide (fun u => ?_) he
    try dsimp only
    (repeat' split) <;> first | rfl | (simp; done) | (simp; rfl)
  | setZone tag zone gain commentary =>
    replace he : execSetZone tag zone gain commentary s = .next t := he
    unfold execSetZone at he
    refine command_wide (fun u => ?_) he
    try dsimp only
    (repeat' split) <;> first | rfl | (simp; done) | (simp; rfl)
  | duckRampAdvance =>
    replace he : execDuckRampAdvance s = .next t := he
    unfold execDuckRampAdvance at he
    refine event_wide (fun u => ?_) he
    try dsimp only
    (repeat' split) <;> first | rfl | (simp; done) | (simp; rfl)
  | outputRampAdvance =>
    replace he : execOutputRampAdvance s = .next t := he
    unfold execOutputRampAdvance at he
    refine event_wide (fun u => ?_) he
    try dsimp only
    (repeat' split) <;> first | rfl | (simp; done) | (simp; rfl)
  | setLight tag channel level ramp =>
    replace he : execSetLight tag channel level ramp s = .next t := he
    unfold execSetLight at he
    refine query_wide (fun u => ?_) he
    try dsimp only
    (repeat' split) <;> first | rfl | (simp; done) | (simp; rfl)
  | applyScene tag scene =>
    replace he : execApplyScene tag scene s = .next t := he
    unfold execApplyScene at he
    refine query_wide (fun u => ?_) he
    try dsimp only
    (repeat' split) <;> first | rfl | (simp; done) | (simp; rfl)
  | clearScene tag =>
    replace he : execClearScene tag s = .next t := he
    unfold execClearScene at he
    refine query_wide (fun u => ?_) he
    try dsimp only
    (repeat' split) <;> first | rfl | (simp; done) | (simp; rfl)
  | setMaster tag level =>
    replace he : execSetMaster tag level s = .next t := he
    unfold execSetMaster at he
    refine query_wide (fun u => ?_) he
    try dsimp only
    (repeat' split) <;> first | rfl | (simp; done) | (simp; rfl)
  | getLights tag =>
    replace he : execGetLights tag s = .next t := he
    unfold execGetLights at he
    refine query_wide (fun u => ?_) he
    try dsimp only
    (repeat' split) <;> first | rfl | (simp; done) | (simp; rfl)
  | lightRampAdvance channel =>
    replace he : execLightRampAdvance channel s = .next t := he
    unfold execLightRampAdvance at he
    refine event_wide (fun u => ?_) he
    try dsimp only
    (repeat' split) <;> first | rfl | (simp; done) | (simp; rfl)
  | flashPhaseEnd channel =>
    replace he : execFlashPhaseEnd channel s = .next t := he
    unfold execFlashPhaseEnd at he
    refine event_wide (fun u => ?_) he
    try dsimp only
    (repeat' split) <;> first | rfl | (simp; done) | (simp; rfl)
  | linkByte => cases hc
  | lineErrorByte =>
    replace he : execLineErrorByte s = .next t := he
    unfold execLineErrorByte at he
    cases he
    (repeat' split) <;> rfl
  | frameTimeout =>
    replace he : execFrameTimeout s = .next t := he
    unfold execFrameTimeout at he
    cases he
    (repeat' split) <;> rfl
  | badKind tag kind =>
    replace he : execBadKind tag kind s = .next t := he
    unfold execBadKind at he
    cases he
    (repeat' split) <;> rfl
  | frameSent => cases hc
  | getStatus tag clear =>
    replace he : execGetStatus tag clear s = .next t := he
    unfold execGetStatus at he
    refine query_wide (fun u => ?_) he
    try dsimp only
    (repeat' split) <;> first | rfl | (simp; done) | (simp; rfl)
  | restart tag =>
    replace he : execRestart tag s = .next t := he
    unfold execRestart at he
    refine query_wide (fun u => ?_) he
    try dsimp only
    (repeat' split) <;> first | rfl | (simp; done) | (simp; rfl)
  | getSetting tag id =>
    replace he : execGetSetting tag id s = .next t := he
    unfold execGetSetting at he
    refine query_wide (fun u => ?_) he
    try dsimp only
    (repeat' split) <;> first | rfl | (simp; done) | (simp; rfl)
  | setSetting => cases hc
  | saveSettings tag =>
    replace he : execSaveSettings tag s = .next t := he
    unfold execSaveSettings at he
    refine command_wide (fun u => ?_) he
    try dsimp only
    (repeat' split) <;> first | rfl | (simp; done) | (simp; rfl)
  | settingsEraseComplete => cases hc
  | settingsSaved => cases hc
  | standby => cases hc
  | ignitionRise => cases hc
  | ignitionFall => cases hc
  | ignitionOffTimer => cases hc
  | entryPhaseEnd => cases hc

end Sys2Proof.Machine
end

