-- ==== Sys2Proof/Laws/Cues.lean ====
section
/-! SUPPORT. What firing, skipping and re-arming do to the cue table, and what route changes leave of the wide part. -/

namespace Sys2Proof.Machine

theorem Engines.cues {s t : State} (h : Engines s t) : t.cues = s.cues := congrArg Fixed.cues h.fixed

theorem preempt_cues (s : State) (e : Entry) : (s.preempt e).1.cues = s.cues := by
  unfold State.preempt
  dsimp only
  refine (Engines.cues (select_engines (activate_engines (.refl _) _))).trans ?_
  unfold State.giveTicket
  dsimp only
  refine Eq.trans (b := s.releaseActive.leaveActive.cues) ?_ (Engines.cues (leaveActive_engines (releaseActive_engines (.refl _))))
  split
  · rfl
  · split
    · rfl
    · next x _ _ =>
      have h : (s.releaseActive.leaveActive.pushStack x).cues = s.releaseActive.leaveActive.cues :=
        Engines.cues (pushStack_engines (.refl _) x)
      exact h

theorem joinQueue_cues (s : State) (e : Entry) : (s.joinQueue e).1.cues = s.cues := by
  unfold State.joinQueue
  dsimp only
  exact (Engines.cues (select_engines (.refl _))).trans rfl

theorem admitEntry_cues (s : State) (e : Entry) : (s.admitEntry e).1.cues = s.cues := by
  unfold State.admitEntry
  split
  · rfl
  · split
    · exact preempt_cues s e
    · split
      · exact joinQueue_cues s e
      · split
        · rfl
        · split
          · exact joinQueue_cues _ e
          · rfl

theorem admitSilently_cues (s : State) (e : Entry) : (s.admitSilently e).cues = s.cues := by
  unfold State.admitSilently
  have ha := admitEntry_cues s e
  revert ha
  generalize s.admitEntry e = p
  obtain ⟨u, o⟩ := p
  intro ha
  cases o <;> exact ha

theorem deriveNeed_cues (s : State) : s.deriveNeed.cues = s.cues := by
  unfold State.deriveNeed
  split
  · rfl
  · exact (Engines.cues (deriveDemand_engines (.refl _))).trans rfl

/-- Handing a cue's content leaves the cue engine alone. -/
theorem handCue_cues {s t : State} {n : Nat} {c : Cue} (h : s.handCue n c = some t) : t.cues = s.cues := by
  unfold State.handCue at h
  split at h
  · obtain ⟨p, -, rfl⟩ := Option.map_eq_some_iff.1 h
    exact Engines.cues (fireCommentary_engines (.refl _) _ _ _)
  · obtain ⟨p, -, rfl⟩ := Option.map_eq_some_iff.1 h
    exact admitSilently_cues _ _
  · obtain ⟨p, -, rfl⟩ := Option.map_eq_some_iff.1 h
    exact admitSilently_cues _ _
  · split at h
    · cases h
    · obtain ⟨p, -, rfl⟩ := Option.map_eq_some_iff.1 h
      rfl
  · cases h; exact deriveNeed_cues _
  · cases h; exact deriveNeed_cues _

/-- A fired cue is FIRED, and nothing else of the cue engine changes (R35). -/
theorem fireCue_cues (forced : Bool) (s : State) (n : Nat) :
    (State.fireCue forced s n).cues =
      match s.cues.cues[n]? with
      | none => s.cues
      | some c => { s.cues with cues := s.cues.cues.set n { c with state := .fired } } := by
  unfold State.fireCue
  cases s.cues.cues[n]? with
  | none => rfl
  | some c =>
    dsimp only
    split
    · next u hu => exact (handCue_cues hu).trans rfl
    · rfl

/-- One cue's part in the jump rule (R31). -/
theorem skipCue_cues (s : State) (n : Nat) :
    (s.skipCue n).cues =
      match s.cues.cues[n]? with
      | none => s.cues
      | some c =>
        if c.state = .armed ∧ c.lateEnd < s.tracker.chainage then
          { s.cues with cues := s.cues.cues.set n { c with state := .skipped } }
        else s.cues := by
  unfold State.skipCue
  cases s.cues.cues[n]? with
  | none => rfl
  | some c =>
    dsimp only
    split <;> rfl

theorem skipCue_tracker (s : State) (n : Nat) : (s.skipCue n).tracker = s.tracker := (skipCue_acts (.refl s) n).tracker

/-- The cues that fire are those that are due, each once (R30). -/
theorem insertByAnchor_perm (s : State) (n : Nat) (l : List Nat) : (s.insertByAnchor n l).Perm (n :: l) := by
  induction l with
  | nil => exact .refl _
  | cons m rest ih =>
    unfold State.insertByAnchor
    split
    · exact .refl _
    · exact ((List.perm_cons m).2 ih).trans (.swap _ _ _)

theorem dueCues_perm (s : State) : s.dueCues.Perm ((List.range s.cues.cues.length).filter s.cueDue) := by
  unfold State.dueCues
  generalize (List.range s.cues.cues.length).filter s.cueDue = l
  induction l with
  | nil => exact .refl _
  | cons n l ih => exact (insertByAnchor_perm s n _).trans ((List.perm_cons n).2 ih)

/-! ### Route changes (R16, R23) -/

theorem lights_wide (s : State) (l : Lights) : ({ s with lights := l } : State).wide = s.wide := rfl

/-- A taken selection clears the route and unplaces the tracker. -/
theorem routeChange_wide (s : State) :
    s.routeChange.wide = ({ s with cues := s.cues.cleared, tracker := s.tracker.unplace } : State).wide := by
  unfold State.routeChange
  rw [refreshEnabled_wide, setQuiet_wide, lights_wide, dropCueEntries_wide, stopCommentary_wide]
  split <;> rfl

end Sys2Proof.Machine
end

