-- ==== Sys2Proof/Laws/Memory.lean ====
section
/-! SUPPORT. The clip store's bytes: the canonical form, what each operation reads as afterwards, and that each operation
keeps the form. -/

namespace Sys2Proof.Machine

/-- The canonical form as a property of the list: addresses strictly rising, and each cell inside the store and not erased. -/
theorem wf_iff (m : Memory) :
    m.wf = true ↔ m.Pairwise (fun c d : Host.Cell => c.1 < d.1) ∧ ∀ c ∈ m, c.1 < 2 ^ 29 ∧ c.2 ≠ erasedByte := by
  induction m with
  | nil => simp [Memory.wf]
  | cons c rest ih =>
    cases rest with
    | nil => simp [Memory.wf]
    | cons d rest =>
      rw [List.pairwise_cons, Memory.wf, Bool.and_eq_true, Bool.and_eq_true, ih, decide_eq_true_iff, decide_eq_true_iff]
      constructor
      · rintro ⟨⟨hcd, hc⟩, hp, hall⟩
        have hlt : ∀ x ∈ d :: rest, c.1 < x.1 := by
          intro x hx
          rcases List.mem_cons.1 hx with rfl | hx
          · exact hcd
          · exact lt_trans hcd ((List.pairwise_cons.1 hp).1 x hx)
        refine ⟨⟨hlt, hp⟩, ?_⟩
        intro x hx
        rcases List.mem_cons.1 hx with rfl | hx
        · exact ⟨lt_trans hcd (hall d (by simp)).1, hc⟩
        · exact hall x hx
      · rintro ⟨⟨hlt, hp⟩, hall⟩
        exact ⟨⟨hlt d (by simp), (hall c (by simp)).2⟩, hp, fun x hx => hall x (List.mem_cons_of_mem _ hx)⟩

theorem wf_tail {c : Host.Cell} {m : Memory} (h : Memory.wf (c :: m) = true) : Memory.wf m = true := by
  rw [wf_iff] at *
  exact ⟨(List.pairwise_cons.1 h.1).2, fun x hx => h.2 x (List.mem_cons_of_mem _ hx)⟩

theorem wf_head_lt {c d : Host.Cell} {m : Memory} (h : Memory.wf (c :: m) = true) (hd : d ∈ m) : c.1 < d.1 :=
  (List.pairwise_cons.1 ((wf_iff _).1 h).1).1 d hd

/-- An address that no cell lists reads as an erased byte. -/
theorem read_unlisted {m : Memory} {a : Nat} (h : ∀ c ∈ m, c.1 ≠ a) : m.read a = erasedByte := by
  induction m with
  | nil => rfl
  | cons c rest ih =>
    rw [Memory.read, if_neg (h c (by simp))]
    exact ih fun x hx => h x (List.mem_cons_of_mem _ hx)

/-- What a byte reads as after one byte is written. -/
theorem read_write {m : Memory} (hm : m.wf = true) (a x : Nat) (b : Byte) :
    (m.write a b).read x = if x = a then b else m.read x := by
  induction m with
  | nil =>
    by_cases hb : b = erasedByte
    · simp [Memory.write, hb, Memory.read]
    · by_cases hx : x = a
      · subst hx; simp [Memory.write, hb, Memory.read]
      · simp [Memory.write, hb, Memory.read, hx, Ne.symm hx]
  | cons c rest ih =>
    have ht := wf_tail hm
    have hlt : ∀ d ∈ rest, c.1 < d.1 := fun d hd => wf_head_lt hm hd
    rw [Memory.write]
    split
    · next hac =>
      by_cases hb : b = erasedByte
      · rw [if_pos hb]
        by_cases hx : x = a
        · subst hx
          rw [if_pos rfl, hb]
          apply read_unlisted
          intro d hd
          rcases List.mem_cons.1 hd with rfl | hd
          · omega
          · have := hlt d hd; omega
        · rw [if_neg hx]
      · rw [if_neg hb, Memory.read]
        by_cases hx : x = a
        · subst hx; simp
        · rw [if_neg (Ne.symm hx), if_neg hx]
    · split
      · next hac hca =>
        subst hca
        by_cases hx : x = c.1
        · subst hx
          rw [if_pos rfl]
          by_cases hb : b = erasedByte
          · rw [if_pos hb, hb]
            apply read_unlisted
            intro d hd
            have := hlt d hd
            omega
          · rw [if_neg hb, Memory.read, if_pos rfl]
        · rw [if_neg hx]
          by_cases hb : b = erasedByte
          · rw [if_pos hb, Memory.read, if_neg (Ne.symm hx)]
          · rw [if_neg hb, Memory.read, Memory.read, if_neg (Ne.symm hx), if_neg (Ne.symm hx)]
      · next hac hca =>
        rw [Memory.read, Memory.read]
        by_cases hx : c.1 = x
        · rw [if_pos hx, if_pos hx, if_neg (by omega)]
        · rw [if_neg hx, if_neg hx, ih ht]

/-- Every cell of the store after a write is the written one or was there before. -/
theorem mem_write {m : Memory} {a : Nat} {b : Byte} {c : Host.Cell} (h : c ∈ m.write a b) :
    (c = (a, b) ∧ b ≠ erasedByte) ∨ c ∈ m := by
  induction m with
  | nil =>
    rw [Memory.write] at h
    split at h
    · simp at h
    · next hb => left; exact ⟨by simpa using h, hb⟩
  | cons d rest ih =>
    rw [Memory.write] at h
    split at h
    · split at h
      · exact .inr h
      · next hb =>
        rcases List.mem_cons.1 h with rfl | h
        · exact .inl ⟨rfl, hb⟩
        · exact .inr h
    · split at h
      · split at h
        · exact .inr (List.mem_cons_of_mem _ h)
        · next hb =>
          rcases List.mem_cons.1 h with rfl | h
          · exact .inl ⟨rfl, hb⟩
          · exact .inr (List.mem_cons_of_mem _ h)
      · rcases List.mem_cons.1 h with rfl | h
        · exact .inr (by simp)
        · rcases ih h with h | h
          · exact .inl h
          · exact .inr (List.mem_cons_of_mem _ h)

/-- A write inside the store keeps the canonical form. -/
theorem write_wf {m : Memory} (hm : m.wf = true) {a : Nat} (b : Byte) (ha : a < 2 ^ 29) : (m.write a b).wf = true := by
  induction m with
  | nil =>
    by_cases hb : b = erasedByte
    · simp [Memory.write, hb, Memory.wf]
    · simpa [Memory.write, hb, Memory.wf] using ha
  | cons c rest ih =>
    have ht := wf_tail hm
    have hlt : ∀ d ∈ rest, c.1 < d.1 := fun d hd => wf_head_lt hm hd
    have hall := ((wf_iff _).1 hm).2
    rw [Memory.write]
    split
    · next hac =>
      split
      · exact hm
      · next hb =>
        rw [wf_iff, List.pairwise_cons]
        refine ⟨⟨?_, ((wf_iff _).1 hm).1⟩, ?_⟩
        · intro d hd
          rcases List.mem_cons.1 hd with rfl | hd
          · exact hac
          · exact lt_trans hac (hlt d hd)
        · intro d hd
          rcases List.mem_cons.1 hd with rfl | hd
          · exact ⟨ha, hb⟩
          · exact hall d hd
    · split
      · next hac hca =>
        split
        · exact ht
        · next hb =>
          rw [wf_iff, List.pairwise_cons]
          refine ⟨⟨fun d hd => by rw [hca]; exact hlt d hd, ((wf_iff _).1 ht).1⟩, ?_⟩
          intro d hd
          rcases List.mem_cons.1 hd with rfl | hd
          · exact ⟨ha, hb⟩
          · exact hall d (List.mem_cons_of_mem _ hd)
      · next hac hca =>
        have hw := (wf_iff _).1 (ih ht)
        rw [wf_iff, List.pairwise_cons]
        refine ⟨⟨?_, hw.1⟩, ?_⟩
        · intro d hd
          rcases mem_write hd with ⟨rfl, _⟩ | hd
          · show c.1 < a
            omega
          · exact hlt d hd
        · intro d hd
          rcases List.mem_cons.1 hd with rfl | hd
          · exact hall _ (by simp)
          · exact hw.2 d hd

/-- Programming inside the store keeps the canonical form. -/
theorem program_wf {m : Memory} (hm : m.wf = true) {a : Nat} (data : List Byte) (ha : a + data.length ≤ 2 ^ 29) :
    (m.program a data).wf = true := by
  induction data generalizing m a with
  | nil => exact hm
  | cons d ds ih =>
    rw [List.length_cons] at ha
    exact ih (write_wf hm _ (by omega)) (by omega)

/-- What a byte reads as after a run of bytes is programmed: the and of what it was and of the data (07, opening). -/
theorem read_program {m : Memory} (hm : m.wf = true) (a x : Nat) (data : List Byte) (ha : a + data.length ≤ 2 ^ 29) :
    (m.program a data).read x =
      if a ≤ x ∧ x < a + data.length then m.read x &&& data.getD (x - a) 0 else m.read x := by
  induction data generalizing m a with
  | nil => rw [if_neg (by simp)]; rfl
  | cons d ds ih =>
    rw [List.length_cons] at ha
    rw [Memory.program, ih (write_wf hm _ (by omega)) _ (by omega), read_write hm]
    by_cases hx : x = a
    · subst hx
      rw [if_neg (by omega), if_pos rfl, if_pos (by simp)]
      simp
    · rw [if_neg hx]
      by_cases hin : a + 1 ≤ x ∧ x < a + 1 + ds.length
      · rw [if_pos hin, if_pos (by simp; omega)]
        obtain ⟨k, rfl⟩ : ∃ k, x = a + 1 + k := ⟨x - (a + 1), by omega⟩
        have h1 : a + 1 + k - (a + 1) = k := by omega
        have h2 : a + 1 + k - a = k + 1 := by omega
        rw [h1, h2, List.getD_cons_succ]
      · rw [if_neg hin, if_neg (by simp; omega)]

/-- Erasing a sector keeps the canonical form. -/
theorem eraseSector_wf {m : Memory} (hm : m.wf = true) (sector : Nat) : (m.eraseSector sector).wf = true := by
  rw [wf_iff] at *
  exact ⟨hm.1.filter _, fun c hc => hm.2 c (List.mem_of_mem_filter hc)⟩

/-- What a byte reads as after a sector is erased (07, opening). -/
theorem read_eraseSector (m : Memory) (sector x : Nat) :
    (m.eraseSector sector).read x = if x / sectorBytes = sector then erasedByte else m.read x := by
  induction m with
  | nil => simp [Memory.eraseSector, Memory.read]
  | cons c rest ih =>
    unfold Memory.eraseSector at *
    by_cases hc : c.1 / sectorBytes = sector
    · rw [List.filter_cons_of_neg (by simpa using hc), ih]
      by_cases hx : x / sectorBytes = sector
      · rw [if_pos hx, if_pos hx]
      · rw [if_neg hx, if_neg hx, Memory.read, if_neg (by rintro rfl; exact hx hc)]
    · rw [List.filter_cons_of_pos (by simpa using hc), Memory.read, Memory.read]
      by_cases hx : c.1 = x
      · rw [if_pos hx, if_pos hx, if_neg (by rw [← hx]; exact hc)]
      · rw [if_neg hx, if_neg hx, ih]

/-- Cells below an address do not change what is read from it on. -/
theorem read_dropWhile {m : Memory} {a x : Nat} (hx : a ≤ x) : Memory.read (m.dropWhile fun c => decide (c.1 < a)) x = m.read x := by
  induction m with
  | nil => rfl
  | cons c rest ih =>
    by_cases hc : c.1 < a
    · rw [List.dropWhile_cons_of_pos (by simpa using hc), ih, Memory.read, if_neg (by omega)]
    · rw [List.dropWhile_cons_of_neg (by simpa using hc)]

/-- A run of bytes is what each of its addresses reads as. -/
theorem readRun_eq {m : Memory} (hm : m.wf = true) (a n : Nat) :
    m.readRun a n = (List.range n).map fun k => m.read (a + k) := by
  have drop_wf : ∀ {m : Memory} (_ : m.wf = true) (p : Host.Cell → Bool), Memory.wf (m.dropWhile p) = true := by
    intro m hm p
    rw [wf_iff] at *
    have hsub := List.dropWhile_sublist (l := m) p
    exact ⟨hm.1.sublist hsub, fun c hc => hm.2 c (hsub.subset hc)⟩
  induction n generalizing m a with
  | zero => rfl
  | succ n ih =>
    have hsplit : ∀ f : Nat → Byte, (List.range (n + 1)).map f = f 0 :: (List.range n).map fun k => f (k + 1) := by
      intro f
      rw [List.range_succ_eq_map, List.map_cons, List.map_map]
      rfl
    rw [hsplit, Memory.readRun]
    have hd := drop_wf hm fun c => decide (c.1 < a)
    have hr : ∀ x, a ≤ x → Memory.read (m.dropWhile fun c => decide (c.1 < a)) x = m.read x := fun x hx => read_dropWhile hx
    split
    · next he =>
      rw [he] at hd hr
      rw [ih hd]
      have h0 := hr a (le_refl a)
      simp only [Memory.read] at h0
      refine congrArg₂ List.cons (by simpa using h0) (List.map_congr_left fun k _ => ?_)
      have := hr (a + 1 + k) (by omega)
      rw [this]; congr 1; omega
    · next c rest he =>
      rw [he] at hd hr
      have hge : ∀ d ∈ rest, c.1 < d.1 := fun d hd' => wf_head_lt hd hd'
      split
      · next hc =>
        rw [ih (wf_tail hd)]
        have h0 := hr a (le_refl a)
        rw [Memory.read, if_pos hc] at h0
        refine congrArg₂ List.cons (by simpa using h0) (List.map_congr_left fun k _ => ?_)
        have := hr (a + 1 + k) (by omega)
        rw [Memory.read, if_neg (by omega)] at this
        rw [this]; congr 1; omega
      · next hc =>
        rw [ih hd]
        have hca : ¬ c.1 < a := by
          intro h
          have := List.head_dropWhile_not (p := fun c : Host.Cell => decide (c.1 < a)) (l := m)
            (by rw [he]; simp)
          simp [he] at this
          omega
        have h0 := hr a (le_refl a)
        rw [read_unlisted (by
          intro d hd'
          rcases List.mem_cons.1 hd' with rfl | hd'
          · exact hc
          · have := hge d hd'; omega)] at h0
        refine congrArg₂ List.cons (by simpa using h0) (List.map_congr_left fun k _ => ?_)
        have := hr (a + 1 + k) (by omega)
        rw [this]; congr 1; omega

/-- The reset state's store is in canonical form. -/
theorem reset_cells_wf : State.reset.store.cells.wf = true := rfl

end Sys2Proof.Machine
end

