-- ==== Sys2Proof/Tests/Slice0.lean ====
section
/-! SUPPORT. Tests of one command each, with expected results from the spec's worked examples and tables; the smoke test of
WellFormed; and, for every statement that has hypotheses, a witness: concrete states and operands that meet them. -/

set_option Elab.async false

namespace Sys2Proof.Tests
open Sys2Proof Sys2Proof.Machine

/-! ### States to test on -/

/-- The state a command leads to. -/
def ran (c : Instr) (s : State) : State :=
  match exec c s with
  | .next t => t
  | _ => s

/-- Settings with language tags for slots 0, 2 and 5. -/
def tagged : Settings :=
  { languageTags := (((Table.fill 12 none).set 0 (some ⟨4, 13⟩)).set 2 (some ⟨5, 17⟩)).set 5 (some ⟨3, 4⟩) }

/-- The slots 0, 2 and 5. -/
def threeSlots : Table Bool 12 := (((Table.fill 12 false).set 0 true).set 2 true).set 5 true

/-- The cues of 02 Table 2-4. -/
def routeCues : List Cue :=
  [{ anchor := 1204500, kind := .commentary, mark := 6400, late := 200, ref := some 17 },
   { anchor := 1308510, kind := .stop, mark := 10000, late := 60, ref := some 18 },
   { anchor := 2650000, kind := .commentary, mark := 12000, late := 400, ref := some 19 },
   { anchor := 3420000, kind := .warning, mark := 15000, late := 0, ref := some 20 },
   { anchor := 3900000, kind := .commentary, mark := 8000, late := 300, ref := some 21 }]

/-- Clip set 17 of the worked placement (04 section 4.3.1). -/
def placementSet : ClipSet :=
  [{ slot := 0, long := 100, short := some 101, mark := some 5200 },
   { slot := 2, long := 102, short := some 103, mark := none },
   { slot := 5, long := 104, short := none, mark := some 3000 },
   { slot := 9, long := 105, short := some 106, mark := some 4000 }]

/-- A clip set with one long clip for slot 0. -/
def plainSet : ClipSet := [{ slot := 0, long := 100, short := none, mark := none }]

/-- Route 7 READY (02 section 2.7), the tracker PLACED just below cue 0's trigger, 150,000 ms after start-up. -/
def route7 : State :=
  { State.reset with
    clock := 150000, pulseTimer := 150000000, settings := tagged
    tracker := { state := .placed, chainage := 1173413, speed := 4851, stamp := 1000120, reportTimer := some 150500 }
    cues :=
      { routeState := .ready, routeNumber := 7, extent := some { first := 8704, count := 4 }, mask := 0x02F
        cues := routeCues, clipSets := List.replicate 17 [] ++ [placementSet, plainSet, plainSet, plainSet, plainSet]
        scenes := [[{ channel := 4, level := 3000, ramp := 200 }]], directory := [⟨7, { first := 8704, count := 4 }⟩] }
    seats := { State.reset.seats with enabled := threeSlots }
    comm :=
      { streams := Table.ofFn fun i =>
          if threeSlots.get i then { state := .quiet, demand := decide (i = 0) } else { state := .off, demand := false } }
    store :=
      { clips :=
          [⟨100, 40000, 360⟩, ⟨101, 41000, 240⟩, ⟨102, 42000, 360⟩, ⟨103, 43000, 240⟩, ⟨104, 44000, 360⟩,
           ⟨105, 45000, 300⟩, ⟨106, 46000, 200⟩] } }

/-- The same in SERVICE. -/
def service : State := { route7 with store := { route7.store with mode := .service } }

/-- In STANDBY. -/
def asleep : State :=
  { State.reset with power := { defaulted := true, state := .standby, ignition := false }, link := {} }

/-- In a start-up that waits for a page. -/
def starting (r : PortRead) : State :=
  { State.reset with power := { state := .starting }, link := {}, port := { serving := some r } }

/-- A write in flight. -/
def writing (w : WriteRecord) (s : State) : State := { s with store := { s.store with write := some w } }

/-- A read served. -/
def serving (r : PortRead) (s : State) : State := { s with port := { s.port with serving := some r } }

/-- A link that transmits nothing. -/
def silent (s : State) : State := { s with link := {} }

/-- A commanding state: the command waits alone. -/
def facing (c : Instr) (s : State) : State := { s with pending := [c] }

/-- A fetched page with a good trailer: identity, index, audio or stream bytes, and the CRC (12 Table 12-2). -/
def goodPage (identity index : Nat) (body : List Byte) : List Byte :=
  let run := body ++ List.replicate (506 - body.length) 0 ++ beBytes 2 identity ++ beBytes 2 index
  run ++ beBytes 2 (crc16 run).toNat

/-! ### WellFormed -/

theorem test_pulse_outside_its_millisecond_is_refused : (Instr.odometerPulse 1000).wellFormed = false := by decide

theorem test_last_microsecond_is_well_formed : (Instr.odometerPulse 999).wellFormed = true := by decide

theorem test_short_page_is_refused : (Instr.storeProgram 0 512 (List.replicate 511 0)).wellFormed = false := by decide +kernel

theorem test_bad_kind_of_a_known_kind_is_refused : (Instr.badKind 0 0x39).wellFormed = false := by decide

/-- No row of the table gives bits. -/
theorem test_no_word_spells_a_command : decodeTableWord 16 0x1234 = none := rfl

/-! ### Position (01) -/

/-- 01 section 1.2.1. -/
theorem test_pulse_advances_chainage :
    let s := { route7 with tracker := { route7.tracker with chainage := 1172100, residue := 830 } }
    ((ran (.odometerPulse 0) s).tracker.chainage, (ran (.odometerPulse 0) s).tracker.residue) = (1172142, 80) := by
  decide +kernel

/-- 01 section 1.2.1, with a pending correction of -2,000,000 µm. -/
theorem test_pulse_works_off_the_correction :
    let s := { route7 with tracker := { route7.tracker with chainage := 1172193, residue := 642, correction := -2000000 } }
    let t := (ran (.odometerPulse 0) s).tracker
    (t.chainage, t.residue, t.correction) = (1172224, 580, -1989688) := by decide +kernel

/-- 01 section 1.4.1, windows 1 and 4. -/
theorem test_speed_windows :
    let speed (v n : Nat) : Nat :=
      (ran .speedWindow { route7 with windowDue := true, tracker := { route7.tracker with speed := v, windowCount := n } }).tracker.speed
    (speed 4700 30, speed 4917 0) = (4763, 3687) := by decide +kernel

/-- 01 section 1.5.1. -/
theorem test_soft_fix :
    let s := silent { route7 with tracker := { route7.tracker with chainage := 1172100, residue := 580 } }
    let t := ran (.fixSoft 9 true 1170000 1000100) s
    (t.tracker.correction, t.link.sending) =
      (-1275000, some (.reply { kind := 0x90, tag := 9, code := .ok, data := .fix 1170825 (-1275), order := 0 })) := by
  decide +kernel

/-- 01 section 1.5.1: the same FIX as HARD, and STALE with an older stamp. -/
theorem test_hard_fix :
    let s := silent { route7 with tracker := { route7.tracker with chainage := 1172100, residue := 580 } }
    let t := (ran (.fixHard 9 1170000 1000100) s).tracker
    (t.chainage, t.residue, (ran (.fixHard 9 1170000 930000) s).link.sending) =
      (1170825, 0, some (.reply { kind := 0x90, tag := 9, code := .stale, order := 0 })) := by decide +kernel

/-! ### Cues (02) and commentary (04) -/

/-- 01 section 1.4, the example of R8; 02, the example of R37. -/
theorem test_lead_and_fit :
    (route7.lead 6400, ({ route7 with tracker := { route7.tracker with chainage := 1173454 } }).fitResult) =
      (31046, some 17840) := by decide +kernel

/-- Step 4 of 02 section 2.7: the pulse to 1,173,454 fires cue 0 alone. -/
theorem test_pulse_fires_cue_0 :
    ((ran (.odometerPulse 0) { route7 with tracker := { route7.tracker with residue := 0 } }).cues.cues.map Cue.state) =
      [.fired, .armed, .armed, .armed, .armed] := by decide +kernel

/-- 04 section 4.3.1: the placements of that firing. -/
theorem test_placement :
    let t := ran (.odometerPulse 0) route7
    ([0, 2, 5, 9].map fun i : Fin 12 => (t.stream i).current.map fun g => (g.variant, g.pages, g.start)) =
      [some (.short, 240, 151200), some (.short, 240, 150000), some (.long, 360, 153400), none] := by decide +kernel

/-- Step 9 of 02 section 2.7: a HARD fix over cue 3 skips it, and cue 4 stays ARMED. -/
theorem test_forward_jump_skips_a_warning :
    let s := { route7 with
      tracker := { route7.tracker with chainage := 3250000, speed := 8000 }
      cues := { route7.cues with cues := routeCues.mapIdx fun i c => if i < 3 then { c with state := .fired } else c } }
    ((ran (.fixHard 1 3440000 1000120) s).cues.cues.map Cue.state) = [.fired, .fired, .fired, .skipped, .armed] := by
  decide +kernel

/-- 04 section 4.5, the example of R70: a listener at 112,345 joins at page 205, so the stream asks for a voice. -/
theorem test_join_page : ({ firing := 0, cue := 0, clip := 1, variant := .short, pages := 240, start := 100000 } : Segment).pageAt 112345 = 205 := by
  decide

/-! ### Seats (03) -/

/-- The row of 03 section 3.8 after step 1, with slots 0, 1, 2, 3 and 5 enabled. -/
def row : SeatTable :=
  { State.reset.seats with
    enabled := Table.ofFn fun i => decide (i.val ∈ [0, 1, 2, 3, 5])
    seats := Table.ofFn fun i =>
      if 20 ≤ i.val ∧ i.val ≤ 23 then
        { chosen := 2, volume := 8, cap := 10, follow := if i.val = 20 then none else some 20, served := some 2, effective := 8 }
      else State.reset.seats.seats.get i }

/-- Step 1 of 03 section 3.8: four seats change, and their links and levels are the row's. -/
theorem test_seat_apply :
    let s := silent
      { State.reset with seats := { row with seats := State.reset.seats.seats } }
    let t := ran (.seatApply 7
      { first := 20, last := 23, condition := .always, invert := false, chosen := .set 2, volume := .keep, cap := .set 10
        muted := .keep, follow := .leader }) s
    t.link.sending = some (.reply { kind := 0x99, tag := 7, code := .ok, data := .seatCount 4, order := 0 }) ∧
      t.seats.seats.get 20 = row.seats.get 20 ∧ t.seats.seats.get 23 = row.seats.get 23 := by decide +kernel

/-- Steps 3 and 5 of 03 section 3.8: a leader's press moves its followers, a follower's press ends its link. -/
theorem test_language_presses :
    let a := row.press 20 .langUp
    let b := a.press 21 .langUp
    ((a.seats.get 20).chosen, (a.seats.get 22).chosen, (b.seats.get 21).chosen, (b.seats.get 21).follow) =
      (3, 3, 5, none) := by decide +kernel

/-! ### Announcements (05) -/

/-- A press with no voice held starts a LIVE announcement at once, under which commentary is SUSPENDED (R90, R96). -/
theorem test_press_to_talk :
    let t := ran .pttPress State.reset
    (t.ann.active.map Entry.phase, t.mixer.microphone, t.comm.state) = (some .playing, true, .suspended) := by
  decide +kernel

/-- Step 5 of 02 section 2.7: the STOP admission's expiry chainage is 1,368,510. -/
theorem test_stop_cue_is_admitted :
    let s := { route7 with
      tracker := { route7.tracker with chainage := 1259990 }
      cues := { route7.cues with cues := routeCues.modify 0 fun c => { c with state := .fired } } }
    (ran (.odometerPulse 0) s).ann.active.map (fun e => (e.cls, e.expiry)) = some (.stop, .chainage 1368510) := by
  decide +kernel

/-! ### Voices (06) -/

/-- A PLAYING voice with pages 40 to 42 queued (06 section 6.3.1). -/
def playing (queue : List Page) (starved underruns : Nat) : State :=
  { State.reset with
    clock := 180
    voices := { State.reset.voices with
      voices := State.reset.voices.voices.set 9
        { state := .playing, owner := some (.stream 0), clip := some 512, firstPage := 60000, pageCount := 90, nextFetch := 44
          nextPlay := 43, queue := queue, outstanding := true, starved := starved, underruns := underruns, due := some 180 } }
    comm := { State.reset.comm with
      streams := State.reset.comm.streams.set 0
        { state := .playing, demand := true, voice := some 9
          current := some { firing := 0, cue := 0, clip := 512, variant := .long, pages := 90, start := 0 } } } }

/-- 06 section 6.3.1, the line of 180 ms. -/
theorem test_underrun_holds :
    let v := (ran (.voicePageDue 9) (playing [] 0 12)).voice 9
    (v.state, v.starved, v.underruns, v.nextPlay) = (.playing, 1, 13, 43) := by decide +kernel

/-- 06 section 6.3.1, the line of 300 ms: a page arrived meanwhile. -/
theorem test_page_is_output :
    let v := (ran (.voicePageDue 9) (playing [.silent] 2 14)).voice 9
    (v.starved, v.underruns, v.nextPlay, v.queue.length) = (0, 14, 44, 0) := by decide +kernel

/-- A page of a sector under erase plays as a silent page and is counted, whatever its bytes (R131). -/
theorem test_page_under_erase_is_silent :
    let s := writing { kind := .sectorErase, sector := 117, page := none, phase := .suspended }
      (serving { page := 60043, use := .voice 9 0 43 } (playing [] 0 12))
    let t := ran (.voicePageArrival 9 false) s
    ((t.voice 9).queue, t.voices.integrity, t.voices.firstFault.map FaultRecord.kind) = ([.silent], 1, some .check) := by
  decide +kernel

/-- A start at the end of its clip completes: the voice is FREE, and its next pages stay as they were (R106). -/
theorem test_start_past_the_end :
    let v := (route7.startVoice 2 (.stream 0) .notice 101 240).1.voice 2
    (v.state, v.pageCount, v.nextFetch, v.nextPlay) = (.free, 240, 0, 0) := by decide +kernel

/-! ### The store (07) -/

/-- A program clears bits alone (R130). -/
theorem test_program_clears_bits :
    let s := writing { kind := .pageProgram (0x0F :: List.replicate 511 0xFF) 1, sector := 20, page := some 10240, phase := .running }
      { service with store := { service.store with cells := [⟨10240 * 512, 0x3C⟩, ⟨10240 * 512 + 1, 0x55⟩] } }
    let t := ran .pageProgramComplete s
    (t.store.cells, t.store.write) = ([⟨10240 * 512, 0x0C⟩, ⟨10240 * 512 + 1, 0x55⟩], none) := by decide +kernel

/-- An erase sets the bytes of its sector alone to 0xFF (R131). -/
theorem test_erase_leaves_other_sectors :
    let s := writing { kind := .sectorErase, sector := 20, page := none, phase := .running }
      { service with store := { service.store with cells := [⟨20 * 262144 - 1, 1⟩, ⟨20 * 262144, 2⟩, ⟨21 * 262144 - 1, 3⟩, ⟨21 * 262144, 4⟩] } }
    (ran .sectorEraseComplete s).store.cells = [⟨20 * 262144 - 1, 1⟩, ⟨21 * 262144, 4⟩] := by decide +kernel

/-- A persistent lock programs 0x00 at the sector's byte of the map (12 section 12.6, R133). -/
theorem test_lock_programs_its_byte :
    let s := writing { kind := .lockProgram 600 1, sector := 2047, page := some 1048065, phase := .running } route7
    let t := ran .lockProgramComplete s
    (t.store.cells, t.store.locked) = ([⟨1048065 * 512 + 88, 0⟩], [600]) := by decide +kernel

/-! ### The mixer (08) -/

/-- The mix of 08 section 8.8: voices 0, 3, 12 and 13 under a NOTICE. -/
def mix (quiet : Bool) : State :=
  let output (x : Int) : Voice := { state := .playing, owner := none, sounding := [x] }
  { State.reset with
    voices := { State.reset.voices with
      voices := (((State.reset.voices.voices.set 0 (output (-9000))).set 3 (output 12000)).set 12 (output 15000)).set 13 (output 20000) }
    mixer := { State.reset.mixer with
      duck := 8231, quiet := quiet, lower := { gain := 15, commentary := true }
      destinations :=
        ((((Table.fill 16 none).set 0 (some { kind := .commentary, slots := [0], zone := true })).set 3
          (some { kind := .commentary, slots := [2], zone := false })).set 12
          (some { kind := .announcement .notice, slots := [0, 1], zone := true })).set 13
          (some { kind := .announcement .notice, slots := [2], zone := false }) } }

theorem test_worked_mix :
    ((mix false).slotMix 2 0 0, (mix false).zoneMix true 0 0, (mix false).zoneMix false 0 0) = (23013, 4519, 12737) := by
  decide +kernel

theorem test_worked_mix_in_a_quiet_zone :
    ((mix true).slotMix 2 0 0, (mix true).zoneMix true 0 0, (mix true).zoneMix false 0 0) = (23013, 0, 12737) := by
  decide +kernel

/-- 08 section 8.8: one millisecond into the duck the factor is 32,522. -/
theorem test_duck_ramp :
    (ran .duckRampAdvance
      { State.reset with
        clock := 1
        mixer := { State.reset.mixer with duckRamp := some { start := 32767, target := 8231, length := 100, startTime := 0 } } }).mixer.duck =
      32522 := by decide +kernel

/-! ### Lights (09) -/

/-- 09 section 9.9, step 2: channel 4 under master 3,000. -/
theorem test_light_ramp :
    let s := { State.reset with
      clock := 10
      lights :=
        { master := 3000, warningGroup := 0x000F, stopGroup := 0x0030
          channels := (Table.fill 16 {}).set 4
            { base := 1000, scene := some 3000, output := 1000, duty := 732
              ramp := some { start := 1000, target := 3000, length := 20, startTime := 0 } } } }
    let c := (ran (.lightRampAdvance 4) s).lights.channels.get 4
    (c.output, c.duty, c.ramp.map Ramp.position) = (1100, 805, some 1) := by decide +kernel

/-- 09 section 9.3.1, the lines of 11,200 and 11,600. -/
theorem test_flash_ends :
    let s (on : Bool) (now since : Clock) (output : Nat) : State :=
      { State.reset with
        clock := now
        lights :=
          { master := 4095, warningGroup := 0x000F, stopGroup := 0x0030
            channels := (Table.fill 16 {}).set 0
              { scene := some 2000, announce := some (.flash on since true), output := output, duty := output } } }
    let a := (ran (.flashPhaseEnd 0) (s true 11200 10800 4095)).lights.channels.get 0
    let b := (ran (.flashPhaseEnd 0) (s false 11600 11200 0)).lights.channels.get 0
    (a.announce, a.output, b.announce, b.output, b.ramp) =
      (some (.flash false 11200 true), 0, none, 0,
        some { start := 0, target := 2000, length := 30, position := 0, startTime := 11600 }) := by decide +kernel

/-! ### The link (10) and the layouts (12) -/

/-- R187's check value. -/
theorem test_crc : crc16 [0x31, 0x32, 0x33, 0x34, 0x35, 0x36, 0x37, 0x38, 0x39] = 0x29B1 := by decide +kernel

/-- A frame whose check stands is queued (R169): GET_POSITION with tag 11. -/
theorem test_frame_is_queued :
    let check := beBytes 2 (crc16 [0x00, 0x02, 0x13, 0x0B]).toNat
    let s := { State.reset with link := { receiver := .frame 2 ([0x13, 0x0B] ++ check.take 1) } }
    ((ran (.linkByte (check.getD 1 0)) s).link.input, (ran (.linkByte (check.getD 1 0 + 1)) s).link.counters.crcErrors) =
      ([{ kind := 0x13, tag := 11, body := [] }], 1) := by decide +kernel

/-- SET_SETTING of the pulse length takes four bytes, most significant first (12 Table 12-9). -/
theorem test_set_setting :
    (ran (.setSetting 3 1 [0x00, 0x00, 0x9C, 0x40]) State.reset).settings.pulseLength = 40000 := by decide +kernel

/-- The last frame of a restart's reply begins the restart (R174, R181). -/
theorem test_restart_follows_its_reply :
    let s := { State.reset with link := { sending := some (.reply { kind := 0x82, tag := 1, code := .ok, order := 0 }) } }
    ((ran .frameSent s).power.state, (ran .frameSent s).power.kind) = (.starting, .restart) := by decide +kernel

/-! ### Power (11) -/

/-- The ignition-off timer runs for the standby delay, 600 s (R183). -/
theorem test_ignition_fall : (ran .ignitionFall State.reset).power.offTimer = some 600000 := by decide +kernel

/-- STANDBY is refused WAKE_PENDING while the ignition is on (R184). -/
theorem test_standby_with_ignition :
    (ran (.standby 5) (silent State.reset)).link.sending =
      some (.reply { kind := 0x83, tag := 5, code := .wakePending, order := 0 }) := by decide +kernel

/-! ### Witnesses: what a statement assumes can be met -/

/-- With no reply owed and no request waiting in the input queue a request is taken. -/
theorem takes_free {s : State} {kind : Nat} {tag : Byte} (hr : s.running = true := by decide)
    (ho : s.replyOwed = false := by decide) (hq : s.link.nextRequest = none := by decide) : s.takes kind tag :=
  ⟨by simp [State.turnOf, hr, ho, hq], fun q h => by simp [hq] at h⟩

/-- A queued request without fields, of the same kind and tag, is taken. -/
theorem witness_takes_a_queued_frame :
    State.takes { route7 with link := { input := [{ kind := 0x11, tag := 4, body := [] }] } } 0x11 4 :=
  ⟨by decide, fun q h => by
    have : q = { kind := 0x11, tag := 4, body := [] } := by simpa [Link.nextRequest] using h.symm
    subst this; rfl⟩

theorem route7_takes {kind : Nat} {tag : Byte} : route7.takes kind tag := takes_free (by decide)

theorem service_takes {kind : Nat} {tag : Byte} : service.takes kind tag := takes_free (by decide) (by decide) (by decide)

theorem witness_EmptyQueueStep :
    (asleep.pending = [] ∧ asleep.running = false) ∧
    (State.reset.pending = [] ∧ State.reset.running = true ∧ State.reset.dueEvents ≠ []) ∧
    (let s := { State.reset with pollDue := false }
     s.pending = [] ∧ s.running = true ∧ s.dueEvents = []) := by decide +kernel

theorem witness_PowerOnOverErasedStoreGivesReset :
    State.reset.store.cells = [] ∧ State.reset.store.interrupted = [] ∧ State.reset.store.write = none ∧
      State.reset.power.ignition = true ∧ State.reset.power.pttLine = false := by decide

/-- The last two bytes of a page hold what is appended to its first 510. -/
theorem field_tail {body : List Byte} (h : body.length = 510) {n : Nat} (hn : n < 65536) :
    field (body ++ beBytes 2 n) 510 2 = n ∧ (body ++ beBytes 2 n).take 510 = body := by
  constructor
  · have : (body ++ beBytes 2 n).drop 510 = beBytes 2 n := by rw [← h]; exact List.drop_left
    simp only [field, this]
    simp [beBytes, beNat]
    omega
  · rw [← h]; exact List.take_left

/-- What is programmed into an erased store reads back. -/
theorem readRun_program {a : Nat} {data : List Byte} (ha : a + data.length ≤ 2 ^ 29) :
    (Memory.program [] a data).readRun a data.length = data := by
  rw [readRun_eq (program_wf rfl data ha)]
  refine List.ext_getElem (by simp) fun i h1 h2 => ?_
  simp only [List.getElem_map, List.getElem_range]
  rw [read_program rfl a (a + i) data ha, if_pos (by simp at h1; omega)]
  have : data.getD (a + i - a) 0 = data[i] := by simp [h2]
  rw [this]
  show (255#8 &&& data[i]) = data[i]
  have : ∀ b : BitVec 8, 255#8 &&& b = b := by decide
  exact this _

/-- The record of the default settings reads back. -/
theorem default_record : Settings.ofRecord (Settings.record {}) = some {} := by
  have h := field_tail (body := beBytes 2 0x5E11 ++ settingIds.flatMap (Settings.read {}) ++
      List.replicate (510 - (beBytes 2 0x5E11 ++ settingIds.flatMap (Settings.read {})).length) 0)
    (by decide +kernel) (crc16 (beBytes 2 0x5E11 ++ settingIds.flatMap (Settings.read {}) ++
      List.replicate (510 - (beBytes 2 0x5E11 ++ settingIds.flatMap (Settings.read {})).length) 0)).isLt
  rw [Settings.ofRecord, if_pos]
  · decide +kernel
  · refine ⟨by decide +kernel, ?_⟩
    simp only [Settings.record]
    rw [h.1, h.2]

/-- A page with a good trailer has 512 bytes and passes its check. -/
theorem goodPage_passes {identity index : Nat} {body : List Byte} (hb : body.length ≤ 506) (hi : identity < 65536)
    (hx : index < 65536) : (goodPage identity index body).length = 512 ∧ pageFault (goodPage identity index body) identity index = none := by
  have hn : (body ++ List.replicate (506 - body.length) 0).length = 506 := by simp; omega
  have hbe : ∀ n < 65536, beNat (beBytes 2 n) = n := fun n hn => by simp [beBytes, beNat]; omega
  generalize he : body ++ List.replicate (506 - body.length) (0 : Byte) = front at hn
  have hl : (front ++ beBytes 2 identity ++ beBytes 2 index).length = 510 := by simp [hn, beBytes]
  have hc := field_tail hl (crc16 (front ++ beBytes 2 identity ++ beBytes 2 index)).isLt
  have h506 : ∀ rest, field (front ++ rest) 506 2 = beNat (rest.take 2) := fun rest => by
    simp only [field]; rw [← hn, List.drop_left]
  have h508 : ∀ a rest, a.length = 2 → field (front ++ (a ++ rest)) 508 2 = beNat (rest.take 2) := fun a rest ha => by
    simp only [field]; rw [← List.append_assoc, show (508 : Nat) = (front ++ a).length by simp [hn, ha], List.drop_left]
  constructor
  · simp [goodPage, beBytes]; omega
  · simp only [pageFault, goodPage, he]
    rw [if_neg (by rw [hc.1, hc.2]; exact fun h => h rfl), if_neg]
    rintro (h | h) <;> apply h
    · simp only [List.append_assoc]; rw [h506]; exact hbe _ hi
    · simp only [List.append_assoc]; rw [h508 _ _ rfl]; exact hbe _ hx

/-- A state whose store holds one page. -/
def holding (page : Nat) (bytes : List Byte) (s : State) : State :=
  { s with store := { s.store with cells := Memory.program [] (page * 512) bytes } }

/-- The page that a store holds is read as it is. -/
theorem readPage_holding {page : Nat} {bytes : List Byte} {s : State} (hb : bytes.length = 512) (hp : page ≤ 1048575)
    (hi : s.store.interrupted = []) (hw : s.store.write = none) :
    ((holding page bytes s).readPage page false).1 = some bytes := by
  have h : (Memory.program [] (page * 512) bytes).readRun (page * 512) 512 = bytes := by
    have := readRun_program (a := page * 512) (data := bytes)
    rw [hb] at this; exact this (by omega)
  simp [State.readPage, holding, hi, hw, Store.erasing, h]
/-- What POWER_ON leaves of the interrupted sectors. -/
theorem powerOn_interrupted (s : State) : (ran .powerOn s).store.interrupted = s.store.cutOff.interrupted := by
  simp only [ran, exec, execPowerOn, State.beginStartUp, State.abandon]

theorem witness_PowerOnBeginsStartUp :
    (let s := { State.reset with store := { cells := Memory.program [] 0 (Settings.record {}) } }
     0 ∉ (ran .powerOn s).store.interrupted ∧ Settings.ofRecord (s.store.cells.readRun 0 512) = some {}) ∧
    0 ∈ (ran .powerOn
      (writing { kind := .settingsSave [] false, sector := 0, page := none, phase := .running } State.reset)).store.interrupted ∧
    (State.reset.store.cells.readRun 0 512).head? = some 0xFF := by
  refine ⟨⟨?_, ?_⟩, ?_, by decide +kernel⟩
  · simp [powerOn_interrupted, Store.cutOff, State.reset]
  · have h := readRun_program (a := 0) (data := Settings.record {}) (by decide +kernel)
    rw [show (Settings.record {}).length = 512 by decide +kernel] at h
    simp only
    rw [h, default_record]
  · rw [powerOn_interrupted]; decide

theorem witness_StartUpLoadsInOrder :
    (∀ i ∈ [0, 7],
      let s := starting { page := 512 + i, use := .routeDirectory i }
      s.power.state = .starting ∧ s.port.serving = some { page := 512 + i, use := .routeDirectory i }) ∧
    (∀ i ∈ [0, 254, 255],
      let s := starting { page := clipDirectoryPage 3 i, use := .clipDirectory i }
      s.port.serving = some { page := clipDirectoryPage s.inForce.partition i, use := .clipDirectory i }) ∧
    (ran (.startupPageArrival false)
      (starting { page := clipDirectoryPage 3 255, use := .clipDirectory 255 })).voices.residents = [] ∧
    ((ran (.startupPageArrival false)
      { starting { page := clipDirectoryPage 3 255, use := .clipDirectory 255 } with
        store := { clips := [⟨512, 60000, 3⟩] }
        inForce := { residentList := (Table.fill 4 0).set 0 512 } }).voices.residents.map Resident.need) = [3] ∧
    (let buffer (need : Nat) : Resident := { clip := 512, first := 60000, need := need }
     let s := { starting { page := 60000, use := .resident 0 0 } with voices := { residents := [buffer 2, buffer 1] } }
     s.port.serving = some { page := 60000, use := .resident 0 0 } ∧ s.voices.residents[0]? = some (buffer 2) ∧
       0 + 1 < (buffer 2).need ∧ (buffer 2).need ≤ 1 + 1 ∧ s.voices.residents[0 + 1]? = some (buffer 1) ∧
       (buffer 1).need ≤ 0 + 1 ∧ s.voices.residents[1 + 1]? = none) ∧
    (∀ i ∈ [0, 2, 3],
      let s := starting { page := 1048064 + i, use := .lockMap i }
      s.port.serving = some { page := 1048064 + i, use := .lockMap i } ∧ s.link = {}) ∧
    (let s := starting { page := 1048067, use := .lockMap 3 }
     s.power.ignition = true ∧ ({ s with power := { s.power with ignition := false } } : State).power.ignition = false ∧
       s.power.faults.length < 15 ∧ (s.readPage 1048067 true).1 = none ∧
       (s.readPage 1048067 false).1 = some (List.replicate 512 0xFF)) := by decide +kernel

/-- AWAKE with the ignition off. -/
def parked : State := { State.reset with power := { ignition := false, offTimer := some 0 } }

/-- In an entry phase that has not run out, with the ignition off. -/
def entering : State :=
  { State.reset with
    clock := 500
    power := { state := .entering, ignition := false, phaseEnd := some 500 } }

/-- A held announcement. -/
def held (cls : AnnClass) (phase : Phase) : Entry :=
  { ticket := 3, cls := cls, source := .link, clipSet := none, clips := [], route := none, cue := none, expiry := .never
    admitted := 0, phase := phase }

/-- An entry active in a state; commentary is SUSPENDED under one that is heard alone. -/
def active (e : Entry) (s : State) : State :=
  { s with
    ann := { s.ann with active := some e }
    comm := { s.comm with state := if e.cls = .notice then s.comm.state else .suspended } }

theorem witness_Standby :
    ((∀ s ∈ [entering, parked, State.reset, active (held .notice .playing) parked], s.takes 0x03 1) ∧
      entering.power.state = .entering ∧ State.reset.power.ignition = true ∧
      parked.power.state ≠ .entering ∧ parked.power.ignition = false ∧ parked.ann.pressed = false ∧
      parked.ann.active = none ∧ parked.store.write = none ∧ (active (held .notice .playing) parked).ann.active ≠ none) ∧
    (parked.running = true ∧ parked.power.offTimer = some 0 ∧ reached parked.clock 0 = true ∧ parked.power.state = .awake) ∧
    (entering.power.phaseOver = false ∧ entering.power.phaseEnd = some 500 ∧ reached entering.clock 500 = true ∧
      entering.store.write = none) ∧
    (∀ kind ∈ [WriteKind.settingsSave [] true, .sectorErase, .pageProgram [] 1, .lockProgram 20 1, .lockErase],
      let s := writing { kind := kind, sector := 0, page := some 0, phase := .running }
        { entering with power := { entering.power with phaseOver := true } }
      s.power.state = .entering ∧ s.power.phaseOver = true ∧
        s.store.write = some { kind := kind, sector := 0, page := some 0, phase := .running }) := by
  refine ⟨⟨?_, by decide +kernel⟩, by decide +kernel, by decide +kernel, by decide +kernel⟩
  intro s hs
  simp only [List.mem_cons, List.not_mem_nil, or_false] at hs
  rcases hs with rfl | rfl | rfl | rfl <;> exact takes_free (by decide) (by decide) (by decide)

theorem witness_WakeInputs :
    (∀ s ∈ [parked, entering, asleep], s.power.ignition = false ∧ s.power.pttLine = false) ∧
    (parked.power.state, entering.power.state, asleep.power.state) = (.awake, .entering, .standby) ∧
    (let s := { starting { page := 512, use := .routeDirectory 0 } with
       power := { state := .starting, kind := .wake, ignition := false } }
     s.power.state = .starting ∧ s.power.kind = .wake ∧ s.power.ignition = false ∧ s.power.pttLine = false) ∧
    State.reset.power.ignition = true ∧ State.reset.running = true ∧ entering.link.receiver = .hunt ∧
    ({ asleep with power := { asleep.power with ignition := true } } : State).running = false := by decide +kernel

theorem witness_SetSettingTaken :
    State.reset.takes 0x05 1 ∧ settingWidth 0 = none ∧ settingWidth 30 = none ∧
    (settingWidth 1 = some 4 ∧ (tagged.write 1 [0, 0, 0, 1]).isNone = true) ∧
    (∀ p ∈ [(3, [0, 0, 0, 1]), (15, [5]), (18, [0, 0]), (19, [0, 1]), (20, [15, 0]), (21, [0, 1]), (24, [0x0F, 0xFF])],
      settingWidth p.1 = some p.2.length ∧ (tagged.write p.1 p.2).isSome = true) :=
  ⟨takes_free (by decide) (by decide) (by decide), by decide +kernel⟩

/-- A moving bus in SERVICE, with a directory reload in progress or not. -/
def moving (reload : Option Reload) : State := { service with store := { service.store with reload := reload } }

/-- Every voice plays; voice 3 for stream 0, whose slot nobody but the speaker hears. -/
def crowded : State :=
  { route7 with
    mixer := { route7.mixer with
      destinations := route7.mixer.destinations.set 3 (some { kind := .commentary, slots := [0], zone := true }) }
    comm := { route7.comm with
      streams := route7.comm.streams.set 0
        { state := .playing, demand := true, voice := some 3
          current := some { firing := 0, cue := 0, clip := 101, variant := .short, pages := 240, start := 144000 } } }
    voices := { voices := Table.fill 16 { state := .playing } } }

theorem witness_SetSettingTaken_owners :
    (route7.takes 0x05 1 ∧ (moving none).takes 0x05 1 ∧ (moving (some {})).takes 0x05 1 ∧ crowded.takes 0x05 1) ∧
    (∀ p ∈ [(14, [15]), (5, [0, 0, 0, 0]), (6, [0x07, 0xD0]), (6, [0, 0]), (11, [2])],
      settingWidth p.1 = some p.2.length ∧ (tagged.write p.1 p.2).isSome = true) ∧
    route7.store.mode = .run ∧ (moving none).store.mode = .service ∧
    ((tagged.write 6 [0x12, 0xF4]).isNone = true ∧ (tagged.write 6 [0x07, 0xD0]).map Settings.crawlSpeed = some 2000 ∧
      2000 ≤ (moving none).tracker.speed ∧
      (let s := { service with tracker := { service.tracker with speed := 1999 } }; s.takes 0x05 1 ∧ s.tracker.speed < 2000)) ∧
    (crowded.freeVoice = none ∧ (crowded.stream 0).demand = true ∧ (crowded.stream 0).state = .playing ∧
      (crowded.stream 0).voice = some 3 ∧ crowded.seats.counts.get 0 = 0) ∧
    (let t := ran (.setSetting 1 11 [2]) crowded
     (t.stream 0).demand = false ∧ (t.stream 2).demand = true ∧ (t.voice 3).state = .stopping ∧
       (t.mixer.destinations.get 3).map Destination.zone = some false) :=
  ⟨⟨route7_takes, takes_free, takes_free, takes_free⟩, by decide +kernel, rfl, rfl,
    ⟨by decide +kernel, by decide +kernel, by decide, takes_free, by decide⟩, by decide +kernel, by decide +kernel⟩

/-- The test settings lie in their ranges. -/
theorem tagged_valid : tagged.Valid := by constructor <;> decide

theorem witness_SettingsSave_record :
    tagged.Valid ∧ ({ tagged with pulseLength := 999999, masterLevel := 0, positionPeriod := 0 } : Settings).Valid :=
  ⟨tagged_valid, by constructor <;> decide⟩

/-- A settings save of the test settings. -/
def saving (erased : Bool) : WriteRecord :=
  { kind := .settingsSave tagged.record erased, sector := 0, page := some 0, phase := .running }

/-- A store state without blank checks is sound if its cells, its write and its sleep are. -/
theorem storeInv_of {s : State} (hc : s.store.cells.wf = true) (hr : s.running = true)
    (hw : ∀ w, s.store.write = some w → w.sound s.store) (hp : s.port.reads = []) : StoreInv s :=
  ⟨hc, fun h => by simp [hr] at h, hw, fun r h => by simp [hp] at h⟩

theorem witness_SettingsSave :
    (State.reset.takes 0x06 1 ∧ State.reset.store.write = none ∧ (writing (saving false) State.reset).takes 0x06 1) ∧
    ((writing (saving false) State.reset).running = true ∧
      (writing (saving false) State.reset).store.write = some (saving false)) ∧
    (StoreInv (writing (saving true) State.reset) ∧ (writing (saving true) State.reset).store.write = some (saving true) ∧
      (writing (saving true) State.reset).power.phaseOver = false ∧
      (writing (saving true) State.reset).link.reports.length < 16) :=
  ⟨⟨takes_free (by decide) (by decide) (by decide), rfl, takes_free (by decide) (by decide) (by decide)⟩, ⟨by decide, rfl⟩,
    storeInv_of (by decide) (by decide)
      (fun w h => by obtain rfl : saving true = w := by simpa [writing] using h
                     exact ⟨rfl, by decide +kernel⟩) (by decide),
    rfl, by decide, by decide⟩

/-- A tracker whose last pulse was accepted at a moment. -/
def pulsed (p : BitVec 32) : State := { route7 with tracker := { route7.tracker with lastPulse := some p } }

theorem witness_PulseAcceptance :
    asleep.running = false ∧ (pulsed 149998001).running = true ∧
    ((pulsed 149998001).pulseTimer + BitVec.ofNat 32 0 - 149998001).toNat < tagged.pulseSpacing ∧
    tagged.pulseSpacing ≤ ((pulsed 149998000).pulseTimer + BitVec.ofNat 32 0 - 149998000).toNat ∧
    route7.tracker.lastPulse = none := by decide +kernel

theorem witness_AcceptedPulseWork :
    (∀ st ∈ [TrackerState.unplaced, .placed, .detour],
      let s := { route7 with tracker := { route7.tracker with state := st } }
      s.running = true ∧ s.tracker.accepts s.settings.pulseSpacing (s.pulseTimer + BitVec.ofNat 32 999) = true) ∧
    ({ route7.tracker with residue := 0, correction := -2000000 } : Tracker).accepts 2000 0 = true := by decide +kernel

theorem witness_SpeedWindowEnds :
    (route7.running = true ∧ route7.windowDue = false) ∧
    (let due (s : State) : State := { s with windowDue := true }
     (due route7).store.mode = .run ∧ (due service).store.mode = .service ∧
       service.settings.crawlSpeed ≤ (ran .speedWindow (due service)).tracker.speed ∧ service.store.reload = none ∧
       (let s := due { service with tracker := { service.tracker with speed := 100 } }
        s.store.mode = .service ∧ (ran .speedWindow s).tracker.speed < s.settings.crawlSpeed)) ∧
    ({ service with store := { service.store with reload := some {} } } : State).store.reload ≠ none := by decide +kernel

/-- A pending LISTENERS report, whose hold ends at 250. -/
def pendingListeners (counts : Table Nat 12) : State :=
  { State.reset with
    clock := 250
    seats := { State.reset.seats with reportPending := true, lastReport := some 0, counts := counts } }

theorem witness_TimedReports :
    (let s := { State.reset with clock := 1000 }
     s.running = true ∧ s.tracker.reportTimer = some 1000 ∧ reached s.clock 1000 = true ∧ s.link.reports.length < 16 ∧
       s.voices.requests = []) ∧
    (reached State.reset.clock 1000 = false) ∧
    (∀ counts ∈ [Table.fill 12 0, (Table.fill 12 0).set 0 64],
      (pendingListeners counts).seats.reportPending = true ∧ (pendingListeners counts).seats.lastReport = some 0 ∧
        reached (pendingListeners counts).clock (0 + 250) = true) ∧
    State.reset.seats.reportPending = false := by decide +kernel

theorem witness_FixTaken :
    route7.takes 0x10 1 ∧ route7.cues.routeState = .ready ∧ route7.tracker.state = .placed ∧
      999999999 ≤ 999999999 ∧ (route7.tracker.stamp - (1000120 - 65535)).toNat ≤ 65535 ∧
      (((1173413 + 30000 : Nat) : Int) - route7.tracker.chainage).natAbs ≤ route7.settings.slewLimit ∧
      route7.settings.slewLimit < (((1173413 + 30001 : Nat) : Int) - route7.tracker.chainage).natAbs ∧
      route7.tracker.chainage ≤ 1173413 ∧ 1173412 < route7.tracker.chainage ∧ route7.tracker.state ≠ .unplaced :=
  ⟨route7_takes, by decide +kernel⟩



/-- On a detour. -/
def detoured : State := { route7 with tracker := { route7.tracker with state := .detour, detour := 1200 } }

theorem detoured_takes {kind : Nat} {tag : Byte} : detoured.takes kind tag := takes_free

theorem witness_FixRefusalsAndDetours :
    (route7.takes 0x10 1 ∧ State.reset.takes 0x10 1 ∧ detoured.takes 0x10 1) ∧ State.reset.cues.routeState ≠ .ready ∧
    (route7.cues.routeState = .ready ∧ 999999999 < 1000000000 ∧ 65535 < (route7.tracker.stamp - (1000120 - 65536)).toNat) ∧
    (detoured.cues.routeState = .ready ∧ detoured.tracker.state ≠ .placed) ∧
    (route7.takes 0x11 1 ∧ route7.tracker.state = .placed ∧ detoured.takes 0x11 1) ∧
    (detoured.takes 0x12 1 ∧ detoured.tracker.state = .detour ∧ route7.takes 0x12 1 ∧ route7.tracker.state ≠ .detour) :=
  ⟨⟨route7_takes, takes_free, detoured_takes⟩, by decide, by decide +kernel, by decide,
    ⟨route7_takes, rfl, detoured_takes⟩, detoured_takes, rfl, route7_takes, by decide⟩

theorem witness_TrackerStaysInRange :
    ∃ s t, (TrackerInv s ∧ s.settings.Valid) ∧ step s = .next t :=
  ⟨facing (.odometerPulse 0) route7, _, ⟨by constructor <;> decide +kernel, tagged_valid⟩, rfl⟩

theorem witness_ReadingRequests :
    (∀ kind ∈ [0x13, 0x15, 0x1B, 0x22, 0x39, 0x2C, 0x04, 0x01, 0x1A, 0x3A], route7.takes kind 1 ∧ State.reset.takes kind 1) ∧
    (route7.cues.routeState = .ready ∧ 4 ≤ 4 ∧ 4 < route7.cues.cues.length ∧ 4 - 0 < 32) ∧
    (State.reset.cues.routeState ≠ .ready ∧ 3 < 4 ∧ route7.cues.cues.length ≤ 5 ∧ 0 + 32 ≤ 32) ∧
    (1792 ≤ 2047 ∧ 2047 ≤ 2047 ∧ 2047 - 1792 < 256 ∧ 2047 < 2048 ∧ 1791 + 256 ≤ 2047) ∧
    (1 ≤ 24 ∧ ¬(25 ≤ 24) ∧ 25 ≤ 29 ∧ 29 < 30) ∧ (20 < 21 ∧ 63 < 64 ∧ 63 ≤ 63) :=
  ⟨fun _ _ => ⟨route7_takes, takes_free⟩, by decide⟩

theorem witness_RouteSelected :
    route7.takes 0x14 1 ∧ route7.store.reload = none ∧
    (route7.cues.directory.find? fun e : RouteEntry => decide (e.route = 7)) = some ⟨7, { first := 8704, count := 4 }⟩ ∧
    (∀ e ∈ route7.cues.directory, e.route ≠ 8) ∧
    ({ route7 with store := { route7.store with reload := some {} } } : State).store.reload ≠ none :=
  ⟨route7_takes, by decide⟩

/-- Route 7 LOADING, its first page served. -/
def loading (count : Nat) (stream : List Byte) : State :=
  holding 8704 (goodPage 7 0 stream)
    { route7 with
      tracker := {}
      cues :=
        { routeState := .loading, routeNumber := 7, extent := some { first := 8704, count := count }, loadSerial := 1
          load := some { serial := 1, next := 0, stream := [] } }
      port := { serving := some { page := 8704, use := .route 1 0 } } }

/-- The header of a route program of route 7 with no records (12 Table 12-6). -/
def header (pages cues : Nat) : List Byte := beBytes 2 7 ++ beBytes 4 pages ++ beBytes 2 0x02F ++ beBytes 2 cues ++ [0, 0, 0, 0, 0, 0]

/-- The stream a page of the header carries. -/
def headerStream (pages cues : Nat) : List Byte := (goodPage 7 0 (header pages cues)).take 506

theorem witness_RoutePageTaken :
    (∀ count, (loading count (header count 0)).running = true ∧
      (loading count (header count 0)).cues.load = some { serial := 1, next := 0, stream := [] } ∧
      (loading count (header count 0)).cues.extent = some { first := 8704, count := count } ∧
      (loading count (header count 0)).port.serving = some { page := 8704, use := .route 1 0 }) ∧
    (∀ count cues, readFault ((loading count (header count cues)).readRoutePage 8704 false).1 7 0 = none) ∧
    (writing { kind := .sectorErase, sector := 17, page := none, phase := .suspended } (loading 1 [])).store.erasing (8704 / 512) =
      true ∧
    readFault ((loading 1 []).readRoutePage 8704 true).1 7 0 ≠ none ∧
    (match scanRoute 7 1 (headerStream 1 0) with | .done _ _ => true | _ => false) = true ∧
    (match scanRoute 7 2 (headerStream 1 0) with | .bad r i => decide (r = .header ∧ i = 0) | _ => false) = true ∧
    (match scanRoute 7 2 (headerStream 2 512) with | .short r _ => decide (r = .cue) | .bad r _ => decide (r = .cue) | _ => false) = true := by
  refine ⟨fun count => ⟨rfl, rfl, rfl, rfl⟩, fun count cues => ?_, by decide, by decide, by decide +kernel, by decide +kernel,
    by decide +kernel⟩
  have hb : (header count cues).length ≤ 506 := by simp [header, beBytes]
  have h := goodPage_passes (identity := 7) (index := 0) hb (by decide) (by decide)
  have hr : (loading count (header count cues)).readRoutePage 8704 false =
      (loading count (header count cues)).readPage 8704 false := rfl
  rw [hr, show ((loading count (header count cues)).readPage 8704 false).1 = some (goodPage 7 0 (header count cues)) from
    readPage_holding h.1 (by decide) rfl rfl]
  exact h.2

theorem witness_CueRules_forced :
    (route7.takes 0x16 1 ∧ service.takes 0x16 1 ∧ State.reset.takes 0x16 1) ∧
    State.reset.cues.routeState ≠ .ready ∧ service.store.mode = .service ∧
    (route7.cues.routeState = .ready ∧ route7.store.mode = .run ∧ route7.cues.cues.length ≤ 5 ∧
      (route7.cues.cues[4]?).map Cue.state = some .armed) ∧
    ((ran (.forceCue 1 4) route7).cues.cues[4]?).map Cue.state = some .fired :=
  ⟨⟨route7_takes, service_takes, takes_free (by decide) (by decide) (by decide)⟩, by decide +kernel⟩

theorem witness_CueRules :
    (route7.cues.routeState = .ready ∧ route7.tracker.state = .placed ∧ route7.store.mode = .run) ∧
    (State.reset.cues.routeState ≠ .ready ∧ detoured.tracker.state ≠ .placed ∧ service.store.mode = .service) ∧
    (route7.settings.rearmDistance ≤ 150000 ∧ 149999 < route7.settings.rearmDistance) := by decide

/-- A SCENE and a STOP cue at one anchor (R36, R100, log 36): the STOP has no clip in the cache and leaves the slot at once, so
the scene, fired after it, meets no STEADY layer and takes its own ramp time, 200 ms. -/
theorem test_scene_after_a_stop_that_left :
    let s := { route7 with
      settings := { tagged with stopGroup := 0x0010 }
      cues := { route7.cues with
        cues := [{ anchor := 1173400, kind := .stop, mark := 0, late := 10, ref := some 0 },
          { anchor := 1173400, kind := .scene, mark := 0, late := 10, ref := some 0 }] } }
    let c := s.advance.lights.channels.get 4
    (s.advance.lights.cls, c.announce, c.scene, c.ramp) =
      (.none, none, some 3000, some { start := 4095, target := 3000, length := 20, startTime := 150000 }) := by
  decide +kernel

theorem witness_NoDueCueWaits : ∃ s t, CueInv s ∧ step s = .next t :=
  ⟨facing (.odometerPulse 0) route7, _, by constructor <;> decide +kernel, rfl⟩

/-- A box that has missed replies in a row, polled again. -/
def missing (present : Bool) (missed : Nat) : State :=
  { State.reset with
    seats := { State.reset.seats with
      awaiting := some 5
      boxes := State.reset.seats.boxes.set 5 { present := present, missed := missed, lastSequence := some true } } }

theorem witness_PollsAndMissedReplies :
    (State.reset.running = true ∧ State.reset.pollDue = true ∧ State.reset.seats.awaiting = none ∧
      State.reset.clock.toNat % 16 = (0 : Fin 16).val ∧ State.reset.clock.toNat % 16 ≠ (1 : Fin 16).val) ∧
    ({ State.reset with pollDue := false } : State).pollDue = false ∧ (missing true 0).seats.awaiting ≠ none ∧
    (∀ m ∈ [missing true 1, missing true 2, missing false 0],
      m.running = true ∧ m.pollDue = true ∧ m.seats.awaiting = some 5 ∧ m.link.reports.length < 16) ∧
    State.reset.seats.awaiting ≠ some 5 ∧
    ((missing true 1).seats.boxes.get 5).missed + 1 < 3 ∧ 3 ≤ ((missing true 2).seats.boxes.get 5).missed + 1 ∧
    ((missing true 2).seats.boxes.get 5).present = true ∧ ((missing false 0).seats.boxes.get 5).present = false := by
  decide +kernel

/-- A reply of box 5 with button events. -/
def boxReply (checked sequence : Bool) (presses : Nat) : PollReply :=
  { box := 5, checked := checked, plugs := Table.fill 4 true, sequence := sequence
    presses := List.replicate presses { position := 0, button := .volUp } }

theorem witness_ReplyTaken :
    ((missing true 0).running = true ∧ (missing true 0).seats.awaiting = some (boxReply true true 4).box ∧
      (boxReply true true 4).checked = true ∧ (boxReply true true 4).presses.length ≤ 4 ∧
      ((missing true 0).seats.boxes.get 5).lastSequence = some true) ∧
    (State.reset.seats.awaiting ≠ some (boxReply true true 4).box ∧ (boxReply false true 4).checked = false ∧
      4 < (boxReply true true 5).presses.length) ∧
    (((missing true 0).seats.boxes.get 5).present = true ∧
      ((missing true 0).seats.boxes.get 5).lastSequence ≠ some (boxReply true false 4).sequence) ∧
    ((missing false 0).seats.boxes.get 5).present = false ∧
    ((ran (.pollReply (boxReply true false 4)) (missing true 0)).seats.seats.get 20).volume = 12 := by decide +kernel

theorem witness_ButtonPresses :
    (∀ i, (row.seats.get i).volume ≤ (row.seats.get i).cap) ∧
    (row.enabled.get 3 = true ∧ (row.seats.get 20).chosen < 3 ∧
      ∀ d : Fin 12, row.enabled.get d = true → (row.seats.get 20).chosen < d → 3 ≤ d) ∧
    (let top := { row with enabled := (Table.fill 12 false).set 1 true }
     top.enabled.get 1 = true ∧ ∀ d : Fin 12, top.enabled.get d = true → d ≤ (top.seats.get 20).chosen ∧ 1 ≤ d) ∧
    (row.enabled.get 1 = true ∧ 1 < (row.seats.get 20).chosen ∧
      ∀ d : Fin 12, row.enabled.get d = true → d < (row.seats.get 20).chosen → d ≤ 1) ∧
    (let low := { row with enabled := (Table.fill 12 false).set 5 true }
     low.enabled.get 5 = true ∧ ∀ d : Fin 12, low.enabled.get d = true → (low.seats.get 20).chosen ≤ d ∧ d ≤ 5) ∧
    (∀ d : Fin 12, ({ row with enabled := Table.fill 12 false } : SeatTable).enabled.get d = false) := by decide +kernel

/-- The row of 03 section 3.8 in the reset state. -/
def rowState : State := { State.reset with seats := row }

/-- Fields of SET_SEAT. -/
def seatFields (chosen cap : Option Nat) (follow : Option (Option Nat)) : SeatFields :=
  { chosen := chosen, volume := some 15, cap := cap, muted := none, follow := follow }

theorem witness_SeatSet :
    rowState.takes 0x18 1 ∧
    (seatFieldsInRange (seatFields (some 11) (some 15) none) = true ∧ seatFieldsInRange (seatFields (some 12) none none) = false ∧
      seatFieldsInRange (seatFields none (some 16) (some none)) = false ∧
      seatFieldsInRange (seatFields none none (some (some 64))) = false) ∧
    (seatFieldsInRange (seatFields none none (some (some 63))) = true ∧ (row.seats.get 63).follow = none ∧
      (∀ j, (row.seats.get j).follow ≠ some 0)) ∧
    ((row.seats.get 21).follow ≠ none ∧ (row.seats.get 22).follow = some 20) :=
  ⟨takes_free (by decide) (by decide) (by decide), by decide +kernel⟩

/-- Fields of SEAT_APPLY over the row. -/
def rowApply (last : Nat) (condition : SeatCondition) (follow : FollowAction) : SeatApply :=
  { first := 20, last := last, condition := condition, invert := false, chosen := .keep, volume := .set 15, cap := .set 6
    muted := .keep, follow := follow }

theorem witness_SeatsApplied :
    rowState.takes 0x19 1 ∧ seatApplyValid (rowApply 64 .always .keep) = false ∧
    (∀ follow ∈ [FollowAction.keep, .none, .leader],
      seatApplyValid (rowApply 63 .always follow) = true ∧
        linksTooDeep (row.outcome (rowApply 63 .always follow) {}) = false) ∧
    (row.selects (rowApply 63 .always .keep) 20 = true ∧ row.selects (rowApply 63 .always .keep) 19 = false ∧
      (row.seats.get 19).follow = none ∧ (rowApply 63 .always .leader).first = (20 : Fin 64).val) ∧
    (∃ l, ((copyLeaders (row.outcome (rowApply 63 .always .leader) {})).get 63).follow = some l) ∧
    (seatApplyValid { rowApply 63 .always .leader with first := 21 } = true ∧
      linksTooDeep (row.outcome { rowApply 63 .always .leader with first := 21 } {}) = true) :=
  ⟨takes_free, by decide +kernel, by decide +kernel, by decide +kernel, ⟨20, by decide +kernel⟩, by decide +kernel⟩



theorem witness_SeatsStaySound : ∃ s t, SeatInv s ∧ step s = .next t :=
  ⟨facing (.pollReply (boxReply true false 4)) rowState, _,
    ⟨by constructor <;> decide, by decide +kernel, by decide +kernel,
      by
        intro i l h
        have hall : ∀ i, (row.seats.get i).follow = none ∨
            ((row.seats.get i).follow = some 20 ∧ i ≠ 20 ∧ (row.seats.get i).chosen = (row.seats.get 20).chosen) := by
          decide +kernel
        rcases hall i with h' | ⟨h', hi, hc⟩
        · exact absurd (h'.symm.trans h) (by simp)
        · obtain rfl : (20 : Fin 64) = l := by simpa using h'.symm.trans h
          exact ⟨fun h => hi h.symm, by decide, hc⟩,
      by decide +kernel⟩, rfl⟩

theorem witness_DerivedStateStaysCurrent : ∃ s t, DerivedInv s ∧ step s = .next t :=
  ⟨facing (.odometerPulse 0) route7, _, by constructor <;> decide +kernel, rfl⟩

/-- A segment of 240 pages that begins at a moment. -/
def segment (start : Clock) : Segment := { firing := 0, cue := 0, clip := 101, variant := .short, pages := 240, start := start }

/-- Route 7 with a stream in a state; `voice` is the state of every voice. -/
def streaming (i : Fin 12) (r : Stream) (voice : VoiceState) : State :=
  { route7 with
    comm := { route7.comm with
      state := .running, streams := route7.comm.streams.set i r, cueList := [{ id := 0, cue := 0, started := true, segments := 1 }] }
    voices := { voices := Table.fill 16 { state := voice } } }

theorem witness_StreamDelayAndTimeEnd :
    (let s := streaming 0 { state := .delay, current := some (segment 150000), demand := true } .playing
     s.running = true ∧ (s.stream 0).state = .delay ∧ (s.stream 0).current = some (segment 150000) ∧
       reached s.clock 150000 = true ∧ s.freeVoice = none ∧ (s.stream 0).demand = true) ∧
    (let s := streaming 2 { state := .delay, current := some (segment 150000), demand := false } .free
     (s.stream 2).state = .delay ∧ s.voices.requests = [] ∧ (s.stream 2).demand = false) ∧
    (∀ next ∈ [none, some (segment 1), some (segment 150001)],
      let s := streaming 2 { state := .quiet, current := some (segment 135600), next := next, demand := false } .free
      (s.stream 2).state = .quiet ∧ (s.stream 2).current = some (segment 135600) ∧
        reached s.clock (135600 + BitVec.ofNat 32 (240 * 60)) = true ∧ s.voices.requests = [] ∧ (s.stream 2).next = next) ∧
    (let s := streaming 2 { state := .waitVoice, current := some (segment 135600), next := some (segment 1), demand := true } .playing
     let s := { s with voices := { s.voices with requests := [.stream 2] } }
     (s.stream 2).state = .waitVoice ∧ s.freeVoice = none ∧ (s.stream 2).demand = true ∧
       reached s.clock (later 1 s.clock) = true ∧ reached s.clock (later 150001 s.clock) = false) ∧
    route7.delayDue 0 = false ∧ route7.segmentDue 0 = false := by decide +kernel

/-- Clip set 17's segment in slot 0 plays on voice 3, the one in slot 2 waits for its start with one behind it. -/
def commenting : State :=
  let s := streaming 0 { state := .playing, current := some (segment 144000), voice := some 3, demand := true } .free
  let s := { s with comm := { s.comm with
    streams := s.comm.streams.set 2 { state := .delay, current := some (segment 160000), next := some (segment 170000), demand := false } } }
  { s with voices := { s.voices with voices := s.voices.voices.set 3 { state := .playing, owner := some (.stream 0) } } }

/-- The announcement invariant of a state in which no announcement is active and commentary is not SUSPENDED. -/
theorem annInv_of {s : State} (ha : s.ann = {}) (hc : s.comm.state ≠ .suspended)
    (ho : ∀ i, (s.stream i).state = .off → (s.stream i).current = none)
    (hb : ∀ i, (s.stream i).current = none → (s.stream i).next = none) : AnnInv s :=
  ⟨by rw [ha]; decide, by rw [ha]; decide, fun _ => by rw [ha]; decide,
    iff_of_false hc (by rw [ha]; rintro ⟨e, h, _⟩; cases h), fun h => absurd h hc, ho, hb⟩

theorem witness_RouteSelected_commentary :
    (AnnInv commenting ∧ commenting.takes 0x14 1 ∧ commenting.voices.requests = [] ∧ (commenting.stream 0).state ≠ .off ∧
      (commenting.stream 0).voice = some 3) ∧
    (let s := active { held .stop .playing with source := .cue } route7
     AnnInv s ∧ s.takes 0x14 1 ∧ s.voices.requests = [] ∧ s.comm.state = .suspended) :=
  ⟨⟨annInv_of rfl (by decide) (by decide) (by decide), takes_free, by decide⟩,
    ⟨by decide, by decide, fun h => absurd h (by decide), iff_of_true rfl ⟨_, rfl, by decide⟩, fun _ => by decide, by decide,
      by decide⟩, takes_free, by decide⟩

/-- The record of a suspension at 144,060 ms: slot 0 at page 1, and slot 9, which is not enabled. -/
def paused (travelled : Nat) (pending : Option PendingFiring) : State :=
  { route7 with
    tracker := { route7.tracker with travel := BitVec.ofNat 32 travelled }
    comm := { route7.comm with
      state := .suspended, pendingFiring := pending
      suspend := some
        { travel := 0
          entries := [{ slot := 0, segment := segment 144000, page := 1, next := none },
            { slot := 9, segment := segment 144000, page := 1, next := none }] } } }

theorem witness_SuspendAndResume :
    (commenting.comm.state ≠ .suspended ∧ (commenting.stream 0).current ≠ none ∧ (commenting.stream 0).voice = some 3 ∧
      (commenting.stream 1).current = none) ∧
    (let s := paused 0 (some { cue := 2, clipSet := plainSet, mark := 12000 })
     (∀ i, (s.stream i).current = none) ∧ (s.stream 0).demand = true ∧
       (s.resume.stream 0).current.map Segment.cue = some 2 ∧ s.resume.stream 2 = s.stream 2) ∧
    (State.reset.comm.state ≠ .suspended ∧ State.reset.power.state = .awake ∧ State.reset.power.pttLine = false ∧
      State.reset.ann.active = none ∧ State.reset.ann.queue = [] ∧ State.reset.ann.stack = [] ∧
      State.reset.voices.requests = []) ∧
    (∀ pending ∈ [none, some { cue := 2, clipSet := plainSet, mark := 12000 }],
      ∀ travelled ∈ [route7.settings.resumeLimit, route7.settings.resumeLimit + 1],
      let s := paused travelled pending
      s.comm.state = .suspended ∧ s.link.reports.length < 16 ∧
      ∃ r, s.comm.suspend = some r ∧ r.entries ≠ [] ∧ (r.entries.map SuspendEntry.slot).Nodup ∧
        (s.settings.resumeLimit < (s.tracker.travel - r.travel).toNat ↔ travelled ≠ s.settings.resumeLimit)) ∧
    (route7.seats.enabled.get 0 = true ∧ route7.seats.enabled.get 9 = false ∧ (route7.stream 0).demand = true) := by
  refine ⟨by decide, by decide +kernel, by decide, fun p hp n hn => ?_, by decide⟩
  simp only [List.mem_cons, List.not_mem_nil, or_false] at hp hn
  rcases hp with rfl | rfl <;> rcases hn with rfl | rfl <;> exact ⟨rfl, by decide, _, rfl, by decide, by decide, by decide⟩

/-- Announcements held: a LIVE one active, a number of NOTICEs behind it. -/
def queued (n : Nat) : State :=
  { route7 with ann := { route7.ann with
      active := some (held .live .playing)
      queue := (List.range n).map fun k => { held .notice .queued with ticket := 4 + k, order := BitVec.ofNat 32 k }
      ticketCounter := 20, admissionCounter := 8 } }

/-- An announcement that is heard on voice 3. -/
def sounding (e : Entry) : State :=
  active { e with voices := [3], speakerVoice := some 3 }
    { route7 with voices := { route7.voices with voices := route7.voices.voices.set 3 { state := .playing } } }

theorem witness_AnnouncementRequests :
    (∀ kind ∈ [0x20, 0x21, 0x23], route7.takes kind 1 ∧ State.reset.takes kind 1 ∧ (queued 8).takes kind 1 ∧
      (sounding (held .stop .playing)).takes kind 1) ∧
    State.reset.cues.routeState ≠ .ready ∧
    (route7.cues.routeState = .ready ∧ route7.cues.clipSets.length ≤ 22 ∧ route7.cues.clipSets[17]? = some placementSet ∧
      (route7.ann.duplicate (route7.linkEntry .warning 17 placementSet (some 600000))).isNone = true ∧
      route7.ann.preempts (route7.linkEntry .warning 17 placementSet (some 1)) = false ∧ route7.ann.queue.length < 8) ∧
    ((active { held .stop .playing with clipSet := some 17 } route7).ann.duplicate
      (route7.linkEntry .stop 17 placementSet none)).isSome = true ∧
    ((queued 7).ann.queue.length < 8 ∧ (queued 7).ann.active ≠ none ∧ (queued 7).voices.requests = []) ∧
    (∀ cls ∈ [AnnClass.notice, .stop],
      (queued 8).ann.duplicate ((queued 8).linkEntry cls 17 placementSet none) = none ∧
      (queued 8).ann.preempts ((queued 8).linkEntry cls 17 placementSet none) = false ∧ 8 ≤ (queued 8).ann.queue.length ∧
      ∃ old, (queued 8).ann.evictable = some old ∧
        (rank (queued 8).ann.code cls ≤ rank (queued 8).ann.code old.cls ∨
          rank (queued 8).ann.code cls < rank (queued 8).ann.code old.cls)) ∧
    (rank (queued 8).ann.code .stop < rank (queued 8).ann.code .notice ∧ (queued 8).ann.active ≠ none ∧
      (queued 8).voices.requests = [] ∧ (queued 8).link.reports.length < 16) ∧
    (∀ x ∈ [held .stop .playing, held .live .hang, { held .stop .playing with source := .cue, route := some 8 },
        { held .stop .playing with source := .cue, route := some 7 }],
      (sounding x).ann.duplicate ((sounding x).linkEntry .warning 17 placementSet none) = none ∧ x.cls ≠ .warning ∧
        (sounding x).allFree = false ∧ (sounding x).voices.requests = []) ∧
    ((active (held .live .playing) route7).ann.byTicket 3 = some (held .live .playing)) ∧
    ((queued 8).ann.byTicket 4 = some { held .notice .queued with ticket := 4 } ∧
      ((queued 8).ann.active.map fun x => decide (x.ticket ≠ 4)) = some true) ∧
    (let s := sounding (held .stop .playing)
     (s.ann.byTicket 3).isSome = true ∧ s.ann.queue = [] ∧ s.ann.stack = [] ∧ (s.voice 3).state ≠ .free) ∧
    (∀ e ∈ route7.ann.held, e.ticket ≠ 3) ∧ 6 ≤ 6 ∧ (5 : Fin 6).val = 5 := by
  refine ⟨fun kind _ => ⟨route7_takes, takes_free, takes_free, takes_free⟩, by decide +kernel, by decide +kernel,
    by decide +kernel, by decide +kernel, fun cls h => ?_, by decide +kernel, by decide +kernel, by decide +kernel,
    by decide +kernel, by decide +kernel, by decide +kernel⟩
  simp only [List.mem_cons, List.not_mem_nil, or_false] at h
  rcases h with rfl | rfl
  · exact ⟨by decide +kernel, by decide +kernel, by decide +kernel, _, rfl, .inl (by decide +kernel)⟩
  · exact ⟨by decide +kernel, by decide +kernel, by decide +kernel, _, rfl, .inr (by decide +kernel)⟩

/-- A cue as the statement of fired cues names it. -/
def contentCue (kind : CueKind) (ref : Option Nat) : Cue := { anchor := 1204500, kind := kind, mark := 6400, late := 200, ref := ref }

/-- Route 7 with one cue, and a state of the bus and the engines given. -/
def cued (kind : CueKind) (ref : Option Nat) (s : State) : State :=
  { s with cues := { s.cues with cues := [contentCue kind ref] } }

/-- Three listeners have been lost: every voice plays. -/
def busy (s : State) : State := { s with voices := { voices := Table.fill 16 { state := .playing } } }

theorem witness_FiredCueHandsOn :
    (∀ kind ∈ [CueKind.commentary, .stop, .warning, .scene], ∀ ref ∈ [none, some 22],
      ((cued kind ref route7).cues.cues[0]?).isSome = true ∧ (∀ r, ref = some r → route7.cues.clipSets.length ≤ r) ∧
        ∀ r, ref = some r → route7.cues.scenes.length ≤ r) ∧
    (route7.cues.scenes[0]?).isSome = true ∧ route7.cues.clipSets[17]? = some placementSet ∧
    route7.comm.state ≠ .suspended ∧ (paused 0 (some { cue := 2, clipSet := plainSet, mark := 12000 })).comm.state = .suspended ∧
    (paused 0 none).link.reports.length < 15 ∧
    (route7.seats.enabled.get 0 = true ∧ route7.seats.enabled.get 9 = false ∧ (∀ e ∈ placementSet, e.slot ≠ 1) ∧
      (route7.stream 0).current = none ∧ (commenting.stream 0).current ≠ none) ∧
    ((route7.clip 104).isSome = true ∧ (route7.clip 101).isSome = true ∧ (route7.clip 107).isNone = true) ∧
    (let s := active { held .stop .playing with source := .cue, clipSet := some 17 } route7
     (s.ann.duplicate (s.cueEntry .stop 0 17 placementSet 1404500)).isSome = true) ∧
    ((queued 7).ann.duplicate ((queued 7).cueEntry .stop 0 17 placementSet 1404500) = none ∧
      (queued 7).ann.preempts ((queued 7).cueEntry .stop 0 17 placementSet 1404500) = false ∧
      (queued 7).ann.queue.length < 8 ∧ (queued 7).ann.active ≠ none ∧ 8 ≤ (queued 8).ann.queue.length ∧
      (queued 8).ann.evictable.map Entry.cls = some .notice ∧
      rank (queued 8).ann.code .stop < rank (queued 8).ann.code .notice ∧
      rank 1 .notice ≤ rank 1 .stop) ∧
    (let s := busy route7
     s.ann.active = none ∧ s.ann.queue = [] ∧ s.ann.stack = [] ∧ s.allFree = false ∧ s.tracker.chainage ≤ 1404500 ∧
       1173412 < s.tracker.chainage) ∧
    (let s := busy (active (held .stop .playing) route7)
     s.ann.duplicate (s.cueEntry .warning 0 17 placementSet 1404500) = none ∧ s.allFree = false) := by
  refine ⟨fun kind hk ref hr => ?_, by decide +kernel⟩
  simp only [List.mem_cons, List.not_mem_nil, or_false] at hk hr
  rcases hr with rfl | rfl <;> exact ⟨rfl, by decide, by decide⟩

/-- An entry of the worked clip set, in a state with listeners of slots 0, 2 and 5. -/
def fanned : State :=
  { route7 with seats := { route7.seats with counts := (((Table.fill 12 0).set 0 3).set 2 1).set 5 1 } }

theorem witness_FanOutFormed :
    (let e := fanned.linkEntry .stop 17 placementSet none
     fanned.clipOf e fanned.settings.speakerSlot = some 100 ∧ fanned.speakerClip e = some 100 ∧ fanned.freeVoice = some 0 ∧
       fanned.store.reload = none ∧ (∀ k ∈ fanned.store.clips, 0 < k.count) ∧ fanned.heard 0 = true ∧ fanned.heard 2 = true ∧
       fanned.clipOf e 2 = some 102 ∧ fanned.clipOf e 1 = none ∧ fanned.heard 1 = false ∧ fanned.heard 5 = true ∧
       fanned.clipOf e 5 = some 104 ∧ fanned.seats.counts.get 5 = fanned.seats.counts.get 2) ∧
    (∀ i, fanned.clipOf (fanned.linkEntry .stop 17 [] none) i = none) ∧
    (let e := fanned.linkEntry .stop 17 (placementSet.drop 1) none
     fanned.clipOf e fanned.settings.speakerSlot = none ∧ fanned.clipOf e 2 = some 102 ∧ ∀ j, j < 2 → fanned.clipOf e j = none) := by
  decide +kernel

/-- One voice is FREE: the speaker clip takes it, and the slots with another clip fall back. -/
theorem witness_FanOutFormed_fallback :
    let s := { fanned with voices := { voices := (Table.fill 16 ({ state := .playing } : Voice)).set 6 {} } }
    let p := s.fanOut (s.linkEntry .stop 17 placementSet none)
    s.freeVoice = some 6 ∧ p.2.map.get 0 = .own 6 ∧ p.2.map.get 2 = .fallback ∧ p.1.freeVoice = none := by decide +kernel

/-- With a STOP chime. -/
def chimed (s : State) : State := { s with settings := { s.settings with stopChime := 106 } }

/-- Only voice 3 is not FREE; it is at the end of its clip, and its owner is given. -/
def ending (owner : Owner) (s : State) : State :=
  let last : Voice := { state := .playing, owner := some owner, due := some 150000, pageCount := 9, nextPlay := 9 }
  { s with voices := { voices := (Table.fill 16 {}).set 3 last } }

/-- The chime of a STOP entry ends. -/
def chimeEnding (set : ClipSet) : State :=
  ending (.chime 3)
    { fanned with
      comm := { fanned.comm with state := .suspended }
      ann :=
        { active := some { fanned.linkEntry .stop 17 set none with ticket := 3, phase := .chime, chimeVoice := some 3 } } }

/-- The last voice of a STOP entry ends, with a queue and a stack behind it. -/
def lastEnding (queue stack : List Entry) : State :=
  ending (.announcement 3 .speaker)
    { fanned with
      comm := { fanned.comm with state := .suspended }
      ann := { active := some { held .stop .playing with voices := [3], speakerVoice := some 3 }, queue := queue, stack := stack } }

theorem witness_AnnouncementProgress :
    (∀ s ∈ [route7, chimed route7, busy route7],
      s.takes 0x20 1 ∧ s.cues.routeState = .ready ∧ s.cues.clipSets[17]? = some placementSet ∧ s.ann.active = none ∧
      s.ann.queue = [] ∧ s.ann.stack = [] ∧ s.voices.requests = [] ∧ s.store.reload = none ∧
      (∀ k ∈ s.store.clips, 0 < k.count) ∧ (∀ i, (s.stream i).current = none) ∧ s.comm.state ≠ .suspended) ∧
    (route7.allFree = true ∧ (busy route7).allFree = false ∧ route7.freeVoice = some 0 ∧ (busy route7).freeVoice = none) ∧
    ((chimed route7).settings.chime .stop = 106 ∧ ((chimed route7).clip 106).isSome = true ∧ route7.settings.chime .stop = 0 ∧
      (fanned.fanOut (fanned.linkEntry .stop 17 placementSet none)).2.voices ≠ [] ∧ route7.link.reports.length < 14) ∧
    (∀ cls ∈ [AnnClass.stop, .live],
      let s := active (held cls .queued)
        { fanned with voices := { voices := (Table.fill 16 ({} : Voice)).set 3 { state := .stopping, fade := 20 } } }
      s.running = true ∧ (s.voice 3).state = .stopping ∧ 20 ≤ (s.voice 3).fade ∧ (∀ w, w ≠ 3 → (s.voice w).state = .free) ∧
        s.voices.requests = []) ∧
    (∀ set ∈ [placementSet, []],
      let s := chimeEnding set
      s.running = true ∧ (s.voice 3).state = .playing ∧ (s.voice 3).due = some 150000 ∧ reached s.clock 150000 = true ∧
        (s.voice 3).pageCount ≤ (s.voice 3).nextPlay ∧ s.voices.requests = [] ∧ (s.voice 3).owner = some (.chime 3) ∧
        s.ann.queue = [] ∧ s.ann.stack = []) ∧
    (∀ cls ∈ [AnnClass.stop, .live], ∀ limit ∈ [0, 1173413],
      let q := { held cls .queued with ticket := 4, expiry := .chainage limit }
      let s := lastEnding [q] []
      s.ann.takeCandidate = some (q, { s.ann with queue := [] }) ∧ s.expired q = decide (limit = 0) ∧
        (s.voice 3).owner = some (.announcement 3 .speaker) ∧ (∀ w, w ≠ 3 → (s.voice w).state = .free) ∧
        (∀ i, (s.stream i).current = none)) := by
  refine ⟨fun s h => ?_, by decide +kernel, by decide +kernel, by decide +kernel, by decide +kernel, by decide +kernel⟩
  simp only [List.mem_cons, List.not_mem_nil, or_false] at h
  rcases h with rfl | rfl | rfl <;>
    exact ⟨takes_free, rfl, rfl, rfl, rfl, rfl, rfl, rfl, by decide, by decide, by decide⟩

/-- The end of the chime forms the fan-out: slots 0, 2 and 5 are heard, on voices 0, 1 and 2 (R92, R93). -/
theorem test_chime_leads_to_the_fan_out :
    (ran (.voicePageDue 3) (chimeEnding placementSet)).ann.active.map (fun e => (e.phase, e.voices, e.chimeVoice)) =
      some (.playing, [0, 1, 2], none) := by decide +kernel

/-- The last voice ends and a LIVE entry follows: with every voice FREE it is heard at once (R89, R90, R95). -/
theorem test_last_voice_leads_to_the_next :
    let t := ran (.voicePageDue 3) (lastEnding [{ held .live .queued with ticket := 4 }] [])
    (t.ann.active.map fun e => (e.ticket, e.phase), t.ann.queue, t.mixer.microphone) = (some (4, .playing), [], true) := by
  decide +kernel

theorem witness_PressToTalk_press :
    State.reset.power.state = .awake ∧ State.reset.power.pttLine = false ∧ State.reset.ann.active = none ∧
      State.reset.ann.queue = [] ∧ State.reset.ann.stack = [] ∧ State.reset.allFree = true ∧ State.reset.voices.requests = [] ∧
      ∀ i, (State.reset.stream i).current = none := by decide +kernel

/-- A LIVE announcement in a phase, the line held down, the hang timer at a moment. -/
def live (phase : Phase) (line : Bool) (hang : Option Clock) : State :=
  { State.reset with
    power := { State.reset.power with pttLine := line }
    comm := { State.reset.comm with state := .suspended }
    ann := { active := some (held .live phase), pressed := line, hangTimer := hang } }

theorem witness_PressToTalk_hang :
    (∀ phase ∈ [Phase.playing, .hang],
      (live phase true none).running = true ∧ (live phase true none).power.pttLine = true ∧
        (live phase true none).ann.active = some (held .live phase) ∧ (live phase true none).voices.requests = [] ∧
        (live phase true none).settings.liveHang ≠ 0) ∧
    (live .hang false (some 0)).power.pttLine = false ∧ (live .hang false (some 0)).ann.queue = [] ∧
    reached (live .hang false (some 0)).clock 0 = true ∧ reached (live .hang false (some 1)).clock 1 = false := by decide

/-- A NOTICE that waits for a voice while every voice plays, 2 ms after its admission. -/
def waitingNotice (limit : Nat) : State :=
  { State.reset with
    clock := 2
    voices := { voices := Table.fill 16 { state := .playing }, requests := [.announcement] }
    ann := { active := some { held .notice .queued with expiry := .wait limit } } }

theorem witness_PressToTalk_notice :
    (waitingNotice 1).running = true ∧ (waitingNotice 1).ann.queue = [] ∧ (waitingNotice 1).ann.stack = [] ∧
      1 < ((waitingNotice 1).clock - 0).toNat ∧ ((waitingNotice 2).clock - 0).toNat ≤ 2 ∧ (waitingNotice 1).freeVoice = none := by
  decide

theorem witness_AnnouncementsStayBounded : ∃ s t, AnnInv s ∧ step s = .next t :=
  ⟨facing .hangTimerExpiry
    { active (held .live .hang) State.reset with ann := { active := some (held .live .hang), hangTimer := some 0 } }, _,
    ⟨by decide, by decide, fun h => absurd h (by decide), iff_of_true rfl ⟨_, rfl, by decide⟩, fun _ => by decide, by decide,
      by decide⟩, rfl⟩

/-- A page for voice 9 of the worked underrun is served; its clip is 512 and its index 43. -/
def arriving (page : List Byte) : State :=
  holding 60043 page (serving { page := 60043, use := .voice 9 0 43 } (playing [] 0 12))

/-- A state with the record of voice 9 changed. -/
def voiced (f : Voice → Voice) (s : State) : State := s.setVoice 9 f

/-- Voice 9 plays for the active announcement, which holds voice 10 too. -/
def announcing : State :=
  active { held .stop .playing with voices := [9, 10], speakerVoice := some 9 }
    (voiced (fun r => { r with owner := some (.announcement 3 .speaker), nextPlay := 90 }) (playing [] 0 12))

theorem witness_VoicePages :
    (∀ page, (arriving page).running = true ∧
      (arriving page).port.serving = some { page := 60043, use := .voice 9 0 43 } ∧ ((arriving page).voice 9).serial = 0 ∧
      ((arriving page).voice 9).outstanding = true ∧ ((arriving page).voice 9).state = .playing ∧
      ((arriving page).voice 9).clip = some 512 ∧ (arriving page).voices.requests = []) ∧
    readFault ((arriving (goodPage 512 43 [])).readPage 60043 false).1 512 43 = none ∧
    readFault ((arriving []).readPage 60043 true).1 512 43 ≠ none ∧
    (∀ queue ∈ [[], [Page.silent]], ∀ start ∈ [0, 89],
      let s := voiced (fun r => { r with state := .priming, queue := queue, startPage := start, due := none }) (arriving [])
      (s.voice 9).state = .priming ∧ (s.voice 9).waiting = none ∧ (s.voice 9).outstanding = true ∧ (s.voice 9).clip = some 512 ∧
        s.voices.requests = []) ∧
    ((arriving []).store.erasing (60043 / 512) = false ∧
      ∀ f ∈ [(fun r => { r with serial := 1 } : Voice → Voice), fun r => { r with outstanding := false },
          fun r => { r with state := .stopping }, fun r => { r with state := .free }],
        ((voiced f (arriving [])).voice 9).serial ≠ 0 ∨ ((voiced f (arriving [])).voice 9).outstanding = false ∨
          ((voiced f (arriving [])).voice 9).state = .stopping ∨ ((voiced f (arriving [])).voice 9).state = .free) ∧
    (∀ queue ∈ [[], [Page.silent]],
      let s := playing queue 3 12
      (s.voice 9).state = .playing ∧ (s.voice 9).due = some 180 ∧ reached s.clock 180 = true ∧
        (s.voice 9).nextPlay < (s.voice 9).pageCount ∧ s.voices.requests = [] ∧ (s.voice 9).queue = queue ∧ (s.voice 9).starved < 4) ∧
    (∀ s ∈ [playing [] 4 12, voiced (fun r => { r with nextPlay := 90 }) (playing [] 0 12)],
      (s.voice 9).state = .playing ∧ s.voices.requests = [] ∧
        ((s.voice 9).pageCount ≤ (s.voice 9).nextPlay ∨ ((s.voice 9).queue = [] ∧ 4 ≤ (s.voice 9).starved)) ∧
        (s.voice 9).owner = some (.stream 0) ∧ (s.stream 0).next = none ∧ s.ann.active = none ∧ (s.stream 0).current ≠ none) ∧
    ((announcing.voice 9).owner = some (.announcement 3 .speaker) ∧ announcing.ann.active.isSome = true ∧
      announcing.voices.requests = [] ∧ (9 : Fin 16) ∈ [9, 10] ∧ (10 : Fin 16) ≠ 9 ∧
      (announcing.voice 9).pageCount ≤ (announcing.voice 9).nextPlay) ∧
    (∀ queue ∈ [[], [Page.silent]], ∀ played ∈ [43, 90],
      let s := voiced (fun r => { r with state := .stopping, owner := none, nextPlay := played }) (playing queue 0 12)
      (s.voice 9).state = .stopping ∧ (s.voice 9).due = some 180 ∧ reached s.clock 180 = true ∧ s.voices.requests = [] ∧
        s.ann.active = none) ∧
    (let s := { State.reset with voices := { State.reset.voices with
       voices := State.reset.voices.voices.set 15 { state := .stopping, fade := 20 } } }
     s.running = true ∧ (s.voice 15).state = .stopping ∧ 20 ≤ (s.voice 15).fade ∧ s.voices.requests = [] ∧ s.ann.active = none) ∧
    State.reset.pageDue 0 = false ∧ State.reset.fadeOver 0 = false := by
  refine ⟨fun page => ⟨rfl, rfl, rfl, rfl, rfl, rfl, rfl⟩, ?_, by decide, by decide +kernel, ⟨by decide +kernel, ?_⟩,
    by decide +kernel⟩
  · have h := goodPage_passes (identity := 512) (index := 43) (body := []) (by decide) (by decide) (by decide)
    rw [show ((arriving (goodPage 512 43 [])).readPage 60043 false).1 = some (goodPage 512 43 []) from
      readPage_holding h.1 (by decide) rfl rfl]
    exact h.2
  · intro f hf
    simp only [List.mem_cons, List.not_mem_nil, or_false] at hf
    rcases hf with rfl | rfl | rfl | rfl
    · exact .inl (by decide +kernel)
    · exact .inr (.inl (by decide +kernel))
    · exact .inr (.inr (.inl (by decide +kernel)))
    · exact .inr (.inr (.inr (by decide +kernel)))

/-- Requests for a voice, with one voice FREE or none. -/
def requesting (requests : List Requester) (free : Option (Fin 16)) : State :=
  let s := { fanned with voices := { voices := Table.ofFn fun v => { state := if some v = free then .free else .playing } } }
  { s with
    voices := { s.voices with requests := requests }
    comm := { s.comm with
      streams := s.comm.streams.set 2
        { state := if requests = [] then .delay else .waitVoice, current := some (segment 144000), demand := true } } }

theorem witness_VoiceArbiterOrder :
    (requesting [] (some 15)).freeVoice = some 15 ∧ (requesting [.stream 2] none).freeVoice = none ∧
    (Requester.announcement ∈ (requesting [.stream 0, .announcement] (some 4)).voices.requests) ∧
    (let s := requesting [.stream 5, .stream 2, .stream 0] (some 4)
     Requester.announcement ∉ s.voices.requests ∧ Requester.stream s.settings.speakerSlot ∈ s.voices.requests) ∧
    (let s := requesting [.stream 5, .stream 2] (some 4)
     Requester.stream s.settings.speakerSlot ∉ s.voices.requests ∧ s.firstRequest = some (.stream 2) ∧
       ∀ j, j ≠ 2 → Requester.stream j ∈ s.voices.requests →
         s.seats.counts.get j < s.seats.counts.get 2 ∨ (s.seats.counts.get j = s.seats.counts.get 2 ∧ 2 < j)) ∧
    (∀ requests ∈ [[], [Requester.stream 2]],
      let s := requesting requests (some 4)
      s.freeVoice = some 4 ∧ (∀ w, w ≠ 4 → (s.voice w).state ≠ .free) ∧ (s.stream 2).current = some (segment 144000) ∧
        s.store.reload = none ∧ (s.clip 101).isSome = true ∧ (s.clock - 144000).toNat / 60 < 240 ∧ s.running = true ∧
        reached s.clock 144000 = true) := by decide +kernel

/-- Reads wait at the port, an erase or a program in flight. -/
def porting (serving : Option PortRead) (fetches second : List PortRead) (w : Option WriteRecord) : State :=
  { (playing [.silent] 0 0) with
    port := { serving := serving, fetches := fetches, second := second }
    store := { State.reset.store with write := w } }

theorem witness_ReadPortChoice :
    (let slow : PortRead := { page := 1, use := .voice 9 0 0 }
     let quick : PortRead := { page := 2, use := .voice 10 0 0 }
     let other : PortRead := { page := 3, use := .storeRead 1 }
     let s := porting none [slow, quick] [other] (some { kind := .sectorErase, sector := 20, page := none, phase := .running })
     s.port.serving = none ∧ quick ∈ s.port.fetches ∧ (s.voice 10).queue.length < (s.voice 9).queue.length ∧
       (porting none [] [other] none).port.fetches = [] ∧ (porting none [] [] none).port.second = [] ∧
       (porting (some other) [] [] none).port.serving = some other) ∧
    (∀ kind ∈ [WriteKind.pageProgram [] 1, .lockProgram 1 1, .settingsSave [] true],
      (porting none [] [] (some { kind := kind, sector := 20, page := none, phase := .running })).store.write =
        some { kind := kind, sector := 20, page := none, phase := .running }) := by decide +kernel

/-- One page fault recorded. -/
def faulty : State :=
  { State.reset with voices := { State.reset.voices with
      integrity := 15, firstFault := some { page := 9, clip := 1, index := 0, kind := .check, clock := 0 } } }

theorem witness_FaultsAndQueuesStayBounded : ∃ s t, (FaultInv s ∧ LinkInv s) ∧ step s = .next t :=
  ⟨facing (.clearStoreFaults 1) faulty, _, ⟨by constructor <;> decide, by constructor <;> decide⟩, rfl⟩

theorem witness_ServiceEnteredAndLeft :
    (∀ kind ∈ [0x30, 0x31], route7.takes kind 1 ∧ service.takes kind 1 ∧ State.reset.takes kind 1) ∧
    (State.reset.store.mode = .run ∧ State.reset.tracker.speed < State.reset.settings.crawlSpeed) ∧
    (route7.store.mode = .run ∧ route7.settings.crawlSpeed ≤ route7.tracker.speed) ∧
    (service.store.mode = .service ∧ service.store.reload = none) ∧
    ({ service with store := { service.store with reload := some {} } } : State).store.reload ≠ none :=
  ⟨fun _ _ => ⟨route7_takes, service_takes, takes_free (by decide) (by decide) (by decide)⟩, by decide⟩

theorem witness_StoreRead :
    route7.takes 0x32 1 ∧ 1048575 < 1048576 ∧ 1048575 ≤ 1048575 ∧
    (let s := serving { page := 1048575, use := .storeRead 1 } route7
     s.running = true ∧ s.port.serving = some { page := 1048575, use := .storeRead 1 } ∧ s.store.cells.wf = true ∧
       1048575 / 512 ∉ s.store.interrupted ∧ s.store.erasing (1048575 / 512) = false) ∧
    (let s := { route7 with store := { route7.store with interrupted := [2047] } }
     1048575 / 512 ∈ s.store.interrupted) :=
  ⟨route7_takes, by decide⟩

/-- A page program at the port, its write record running. -/
def programming : WriteRecord :=
  { kind := .pageProgram (List.replicate 512 0) 1, sector := 20, page := some 10240, phase := .running }

theorem witness_PageProgrammed :
    (route7.takes 0x33 1 ∧ service.takes 0x33 1 ∧ route7.store.mode = .run ∧ service.store.mode = .service ∧
      service.store.reload = none ∧ 1048575 / 512 = 2047 ∧ 1048063 / 512 ≠ 2047 ∧ 512 / 512 ≠ 0 ∧ 511 / 512 = 0 ∧
      service.inUse (8704 / 512) = true ∧ service.inUse (1048063 / 512) = false ∧
      1048063 / 512 ∉ service.store.locked ∧ 1048063 / 512 ∉ service.store.volatileLocks) ∧
    (let s := serving { page := 10240, use := .blankCheck 1 [] } service
     s.running = true ∧ s.port.serving = some { page := 10240, use := .blankCheck 1 [] } ∧ s.programCheck 10240 = none ∧
       s.store.erasing (10240 / 512) = false ∧ s.store.write = none ∧ (writing programming s).store.write ≠ none) ∧
    (blank (service.readPage 10240 false).1 = true ∧ blank (service.readPage 10240 true).1 = false) ∧
    (let s := writing { programming with phase := .waiting } service
     s.running = true ∧ s.port.serving = none ∧ s.port.fetches = [] ∧ s.port.second = [] ∧ s.voices.requests = []) ∧
    (StoreInv (writing programming service) ∧ (writing programming service).running = true ∧
      (writing programming service).power.phaseOver = false ∧ (writing programming service).store.write = some programming) :=
  ⟨⟨route7_takes, service_takes, by decide +kernel⟩, by decide +kernel, by decide +kernel, by decide +kernel,
    storeInv_of (by decide) (by decide)
      (fun w h => by obtain rfl : programming = w := Option.some.inj h
                     exact ⟨List.length_replicate, ⟨10240, rfl, by unfold pageOk; decide, rfl⟩, rfl, rfl⟩) (by decide),
    by decide, by decide, rfl⟩

/-- An erase of sector 2046 in flight. -/
def erasing : WriteRecord := { kind := .sectorErase, sector := 2046, page := none, phase := .running }

theorem witness_SectorErased :
    (route7.takes 0x34 1 ∧ service.takes 0x34 1 ∧ (writing erasing service).takes 0x34 1 ∧ route7.store.mode = .run ∧
      service.store.mode = .service ∧ service.store.reload = none ∧ 2047 < 2048 ∧ service.inUse 17 = true ∧
      service.inUse 2046 = false ∧ service.inUse 1 = false ∧ 2046 ∉ service.store.locked ∧
      2046 ∉ service.store.volatileLocks ∧ service.store.write = none) ∧
    (let s := writing erasing service
     s.running = true ∧ s.power.phaseOver = false ∧ s.store.write = some erasing ∧ erasing.phase = .running ∧
       erasing.kind = .sectorErase ∧ s.link.reports.length < 16) :=
  ⟨⟨route7_takes, service_takes, takes_free (by decide) (by decide) (by decide), by decide⟩, by decide⟩

/-- Locks of the two kinds, and a lockdown. -/
def guarded : State :=
  { route7 with store := { route7.store with locked := [600], volatileLocks := [601], lockdowns := [601] } }

/-- A lock program, or an erase of the lock sector, in flight. -/
def locking (kind : WriteKind) : WriteRecord := { kind := kind, sector := 2047, page := some 1048067, phase := .running }

theorem witness_SectorLocks :
    (∀ kind ∈ [0x36, 0x37], route7.takes kind 1 ∧ guarded.takes kind 1 ∧ (writing (locking .lockErase) route7).takes kind 1) ∧
    (0 < 1 ∧ 2046 < 2047 ∧ 2047 < 2048 ∧ 600 ∈ guarded.store.locked ∧ 2046 ∉ guarded.store.locked ∧
      guarded.store.freeze = false ∧ guarded.store.write = none) ∧
    ({ guarded with store := { guarded.store with freeze := true } } : State).store.freeze = true ∧
    (StoreInv (writing (locking (.lockProgram 2046 1)) route7) ∧
      (writing (locking (.lockProgram 2046 1)) route7).power.phaseOver = false) ∧
    (writing (locking .lockErase) route7).running = true :=
  ⟨fun _ _ => ⟨route7_takes, takes_free (by decide) (by decide) (by decide), takes_free (by decide) (by decide) (by decide)⟩, by decide, rfl,
    ⟨storeInv_of (by decide) (by decide)
      (fun w h => by obtain rfl : locking (.lockProgram 2046 1) = w := Option.some.inj h
                     exact ⟨rfl, by decide, rfl⟩) (by decide), rfl⟩, by decide⟩

theorem witness_SectorLocks_volatile :
    (guarded.takes 0x36 1 ∧ guarded.takes 0x38 1) ∧
    (2047 < 2048 ∧ 0 < 1 ∧ 2046 < 2047 ∧ 601 ∈ guarded.store.lockdowns ∧ 600 ∉ guarded.store.lockdowns) ∧
    ((writing erasing guarded).takes 0x36 1 ∧ erasing.sector = 2046 ∧ erasing.sector ≠ 600) ∧
    ((writing (locking .lockErase) guarded).takes 0x38 1 ∧ erasing.kind ≠ .lockErase) :=
  ⟨⟨takes_free (by decide) (by decide) (by decide), takes_free (by decide) (by decide) (by decide)⟩, by decide,
    ⟨takes_free (by decide) (by decide) (by decide), by decide⟩, takes_free (by decide) (by decide) (by decide), by decide⟩

/-- A directory reload that waits for a page. -/
def reloading (use : ReadUse) : State :=
  serving { page := 600, use := use } { service with store := { service.store with reload := some {} } }

theorem witness_DirectoryReloaded :
    (route7.takes 0x35 1 ∧ service.takes 0x35 1 ∧ service.store.reload = none ∧ service.allFree = true ∧
      ({ service with voices := (playing [] 0 0).voices } : State).allFree = false) ∧
    (∀ use ∈ [ReadUse.routeDirectory 7, .clipDirectory 254, .clipDirectory 255],
      (reloading use).running = true ∧ (reloading use).store.reload = some {} ∧
        (reloading use).port.serving = some { page := 600, use := use } ∧ (reloading use).store.motionPending = false ∧
        ∀ v, ((reloading use).voice v).waiting = none) ∧
    (let s := writing { kind := .sectorErase, sector := 1, page := none, phase := .suspended } (reloading (.clipDirectory 254))
     s.running = true ∧ s.store.erasing (600 / 512) = true) ∧
    (let r : Resident := { clip := 100, first := 40000, need := 2, pages := [.silent] }
     let s := serving { page := 40001, use := .resident 0 1 } { service with voices := { service.voices with residents := [r] } }
     s.running = true ∧ s.voices.residents[0]? = some r ∧ r.pages.length = 1) :=
  ⟨⟨route7_takes, service_takes, by decide⟩, by decide +kernel⟩

/-- A blank check waits and a program is in flight. -/
theorem programming_sound : StoreInv (facing .pageProgramComplete (writing programming service)) :=
  storeInv_of (by decide) (by decide)
    (fun w h => by obtain rfl : programming = w := Option.some.inj h
                   exact ⟨List.length_replicate, ⟨10240, rfl, by unfold pageOk; decide, rfl⟩, rfl, rfl⟩) (by decide)

theorem witness_StoreStaysSound : ∃ s t, StoreInv s ∧ step s = .next t := ⟨_, _, programming_sound, rfl⟩

/-- An erase of sector 2046 completes in a store that holds a byte there and one in a locked sector. -/
def completing : State :=
  facing .sectorEraseComplete
    (writing erasing
      { service with store := { service.store with locked := [1], cells := [⟨262144, 1⟩, ⟨2046 * 262144, 2⟩] } })

theorem completing_sound : StoreInv completing :=
  storeInv_of (by decide) (by decide)
    (fun w h => by obtain rfl : erasing = w := Option.some.inj h
                   exact ⟨by decide, rfl, rfl⟩) (by decide)

theorem witness_LockedSectorsKeepTheirBytes :
    ∃ t, StoreInv completing ∧ step completing = .next t ∧ 262144 / 262144 ∈ completing.store.locked ∧
      t.store.cells.read (2046 * 262144) ≠ completing.store.cells.read (2046 * 262144) :=
  ⟨_, completing_sound, rfl, by decide, by decide +kernel⟩

theorem witness_FrozenLockMapStays :
    ∃ s t, StoreInv s ∧ s.running = true ∧ s.store.freeze = true ∧ step s = .next t :=
  ⟨facing (.unlockAll 1) { guarded with store := { guarded.store with freeze := true } }, _,
    storeInv_of (by decide) (by decide) (fun w h => by cases h) (by decide), by decide, rfl, rfl⟩

/-- A ramp with its last step due. -/
def lastStep : Ramp := { start := 32767, target := 8231, length := 100, position := 99, startTime := 0 }

theorem witness_ZonesAndRamps :
    route7.takes 0x24 1 ∧ (∃ g : Nat, some 16 = some g ∧ 15 < g) ∧
    (let s := { State.reset with clock := 100, mixer := { State.reset.mixer with duckRamp := some lastStep, outputRamp := some lastStep } }
     s.running = true ∧ s.mixer.duckRamp = some lastStep ∧ s.mixer.outputRamp = some lastStep ∧
       reached s.clock (lastStep.startTime + BitVec.ofNat 32 (lastStep.position + 1)) = true) :=
  ⟨route7_takes, ⟨16, rfl, by decide⟩, by decide⟩

theorem witness_MixesFormed :
    (let s := { mix false with mixer := { (mix false).mixer with upper := { gain := 0, commentary := true } } }
     s.mixer.upper.gain = 0 ∧ s.slotMix 2 0 0 = 23013) ∧
    (let s := { mix false with mixer := { (mix false).mixer with lower := { gain := 0, commentary := true } } }
     s.mixer.lower.gain = 0) ∧
    (∀ state ∈ [VoiceState.free, .priming, .playing, .stopping], ({ state := state } : Voice).state = state) := by
  decide +kernel

theorem witness_LightRequests :
    (∀ kind ∈ [0x28, 0x29, 0x2A, 0x2B], route7.takes kind 1 ∧ State.reset.takes kind 1) ∧
    (15 < 16 ∧ 4095 < 4096 ∧ 65535 < 65536 ∧ (15 : Fin 16).val = 15) ∧
    (let c := State.reset.lights.channels.get 15
     c.announce = none ∧ c.scene = none ∧ 4095 ≠ c.target ∧ 0 = c.target) ∧
    (let c : Channel := { scene := some 7, output := 7 }
     c.announce = none ∧ c.scene ≠ none ∧ c.winning = c.target ∧ c.base ≠ c.target) ∧
    (let c : Channel := { announce := some .steady, output := 4095 }
     c.announce = some .steady) ∧
    State.reset.cues.routeState ≠ .ready ∧ route7.cues.scenes.length ≤ 1 ∧
    (let scene : List SceneEntry := [{ channel := 4, level := 3000, ramp := 200 }]
     route7.cues.scenes[0]? = some scene ∧
       ((scene.find? fun e : SceneEntry => decide (e.channel = 4)).map SceneEntry.level) = some 3000 ∧
       3000 ≠ (route7.lights.channels.get 4).target ∧ (scene.find? fun e : SceneEntry => decide (e.channel = 5)) = none) :=
  ⟨fun _ _ => ⟨route7_takes, takes_free⟩, by decide⟩

/-- Channel 4 flashing since 0, at 400 ms; with a STOP announcement active it is in the group of the active class. -/
def flashing (on finishing stop : Bool) : State :=
  let s := { State.reset with
    clock := 400
    lights :=
      { master := 4095, cls := if stop then .stop else .none, warningGroup := 0x000F, stopGroup := 0x0030
        channels := (Table.fill 16 {}).set 4
          { scene := some 2000, announce := some (.flash on 0 finishing), output := if on then 4095 else 0 } } }
  if stop then active (held .stop .playing) s else s

/-- A light ramp with its last step due at 200 ms. -/
def lastLight : Ramp := { start := 0, target := 4095, length := 20, position := 19, startTime := 0 }

/-- Channel 4 with a ramp, at 200 ms. -/
def lit (r : Ramp) : State :=
  let c : Channel := { ramp := some r }
  { State.reset with
    clock := 200
    lights := { master := 4095, warningGroup := 0x000F, stopGroup := 0x0030, channels := (Table.fill 16 {}).set 4 c } }

theorem witness_RampsAndFlashes :
    (∀ p ∈ [(true, false, false), (false, false, false), (false, true, true), (false, true, false)],
      let s := flashing p.1 p.2.1 p.2.2
      s.running = true ∧ s.voices.requests = [] ∧ s.lights.cls = s.ann.announceClass ∧
        (s.lights.channels.get 4).announce = some (.flash p.1 0 p.2.1) ∧ reached s.clock (0 + 400) = true) ∧
    ((flashing false true true).lights.stopGroup.getLsbD 4 = true ∧ (flashing false true true).lights.cls = .stop ∧
      (flashing false true true).lights.stopGroup.getLsbD 3 = false ∧ (flashing false true false).lights.cls ≠ .stop) ∧
    ((lit lastLight).running = true ∧ (lit lastLight).lights.cls = (lit lastLight).ann.announceClass ∧
      ((lit lastLight).lights.channels.get 4).ramp = some lastLight ∧
      reached (lit lastLight).clock (0 + BitVec.ofNat 32 (10 * (19 + 1))) = true) ∧
    ((flashing false true false).lights.channels.get 4).scene.getD 0 ≠ ((flashing false true false).lights.channels.get 4).output := by
  decide +kernel

theorem witness_LightsStayWithinTheMaster :
    ∃ s t, LightInv s ∧ step s = .next t ∧ (s.lights.channels.get 0).announce = none := by
  refine ⟨facing (.applyScene 1 0) route7, _, ⟨tagged_valid, by decide, by decide, by decide +kernel, ?_, by decide +kernel, ?_,
    by decide +kernel⟩, rfl, by decide⟩
  · intro i n h
    have : ∀ i, (route7.lights.channels.get i).scene = none := by decide +kernel
    exact absurd ((this i).symm.trans h) (by simp)
  · intro i r h
    have : ∀ i, (route7.lights.channels.get i).ramp = none := by decide +kernel
    exact absurd ((this i).symm.trans h) (by simp)

/-- The receiver in a state, the input queue with a number of requests, the busy list with a number of replies. -/
def receiving (receiver : Receiver) (input busy : Nat) : State :=
  { State.reset with
    clock := 20
    link :=
      { receiver := receiver, input := List.replicate input { kind := 0x13, tag := 1, body := [] }
        busy := List.replicate busy { kind := 0x93, tag := 1, code := .linkBusy, order := 0, byLink := true } } }

theorem witness_FramesReceived :
    (∀ r ∈ [Receiver.hunt, .length [], .length [2], .frame 2 [], .frame 2 [0x13, 0x0B], .frame 2 [0x13, 0x0B, 0x0D]],
      ∀ input ∈ [0, 3, 4], ∀ busy ∈ [3, 4], (receiving r input busy).running = true ∧ (receiving r input busy).link.receiver = r) ∧
    (receiving .hunt 0 0).power.state = .awake ∧
    (0x00 * 256 + 0x02 = 2 ∧ 0x02 * 256 + 0x5A = 602 ∧ 602 < 0x02 * 256 + 0x5B ∧ 0x00 * 256 + 0x01 < 2) ∧
    (let frame := [0x13, 0x0B] ++ beBytes 2 (crc16 [0x00, 0x02, 0x13, 0x0B]).toNat
     ∃ received b, frame = received ++ [b] ∧ received.length = 2 + 1 ∧
       field frame 2 2 = (crc16 (beBytes 2 2 ++ frame.take 2)).toNat ∧ frame.take 2 = 0x13 :: 0x0B :: []) ∧
    ((receiving (.length []) 0 0).link.receiver ≠ .hunt ∧
      reached (receiving (.length []) 0 0).clock ((receiving (.length []) 0 0).link.lastByte + 20) = true) :=
  ⟨by decide +kernel, by decide, by decide, ⟨[0x13, 0x0B, 0x0D], 0xEB, by decide +kernel, by decide, by decide +kernel, by decide⟩, by decide⟩

/-- The transmitter sends a frame while the busy list and the reply list hold replies. -/
def transmitting (frame : OutFrame) (busy replies : List Reply) (reports : List Report) : State :=
  { State.reset with
    link := { input := [{ kind := 0x13, tag := 7, body := [], taken := true }], sending := some frame, busy := busy
              replies := replies, reports := reports, formed := 9 } }

theorem witness_FramesSentAndRestart :
    (requestOf (.detourBegin 3) = some (0x11, 3) ∧
      (let s := { State.reset with link := { input := [{ kind := 0x11, tag := 3, body := [0] }] } }
       s.turnOf (BitVec.ofNat 8 0x11) 3 = true ∧ s.link.nextRequest = some { kind := 0x11, tag := 3, body := [0] } ∧
         admits 0x11 [0] = false ∧ s.turnOf 0x11 4 = false) ∧
      asleep.turnOf 0x11 3 = false ∧
      (serving { page := 1, use := .storeRead 1 } route7).turnOf 0x11 3 = false) ∧
    (State.reset.turnOf 0xFF 1 = true ∧ (0x00 : Byte).toNat ∉ requestKinds ∧ (0x3B : Byte).toNat ∉ requestKinds ∧
      (0xFF : Byte).toNat ∉ requestKinds) ∧
    (0x11 ∈ emptyKinds ∧ 0x14 ∉ emptyKinds) ∧
    (∀ busy ∈ [[], [({ kind := 0x93, tag := 1, code := .linkBusy, order := 4, byLink := true } : Reply)]],
      ∀ replies ∈ [[], [({ kind := 0x93, tag := 7, code := .ok, order := 5 } : Reply)]],
      ∀ reports ∈ [[], [Report.settingsSaved 0]],
        (transmitting (.report (.settingsSaved 1)) busy replies reports).link.sending = some (.report (.settingsSaved 1))) ∧
    (let r : Reply := { kind := 0x93, tag := 7, code := .ok, order := 5 }
     let s := transmitting (.reply r) [] [] []
     s.link.sending = some (.reply r) ∧ ¬(r.kind = 0x82 ∧ r.code = .ok) ∧ r.byLink = false ∧
       s.link.input = [{ kind := 0x13, tag := 7, body := [], taken := true }] ∧ r.kind = replyKind 0x13) ∧
    State.reset.takes 0x02 1 ∧
    (let r : Reply := { kind := 0x82, tag := 1, code := .ok, order := 5 }
     (transmitting (.reply r) [] [] []).link.sending = some (.reply r)) :=
  ⟨by decide, by decide, by decide, by decide +kernel, by decide, takes_free, rfl⟩

theorem witness_FramesOnTheLine :
    (List.replicate 600 (0 : Byte)).length ≤ 600 ∧
    (let busy : Reply := { kind := 0x93, tag := 1, code := .linkBusy, order := 4, byLink := true }
     let value : Reply := { kind := 0x84, tag := 1, code := .ok, data := .setting 25 [1] (some [0]), order := 4 }
     busy.data = .none ∧ value.data = .setting 25 [1] (some [0])) :=
  ⟨Nat.le_of_eq List.length_replicate, by decide⟩

/-- A refusal on the line: GET_POSITION with tag 11 answered LINK_BUSY (12 Table 12-1). -/
theorem test_refusal_frame :
    (OutFrame.reply { kind := 0x93, tag := 11, code := .linkBusy, order := 0, byLink := true }).bytes.take 6 =
      [0xA5, 0x00, 0x03, 0x93, 0x0B, BitVec.ofNat 8 ResultCode.linkBusy.value] := by decide +kernel

/-- A written stop group is in force from the next change of class on (R163). -/
theorem test_mask_waits_for_a_change_of_class :
    let t := ran (.setSetting 3 23 [0, 0]) (silent (flashing false true true))
    (t.settings.stopGroup, t.lights.stopGroup, (t.lights.channels.get 4).announce) =
      (0, 0x0030, some (.flash false 0 true)) := by decide +kernel

/-- Data of a read posted before the release change no field of the voice, whose read stays outstanding (R109). -/
theorem test_stopping_voice_keeps_its_record :
    let s := voiced (fun r => { r with state := .stopping, owner := none }) (arriving [])
    (ran (.voicePageArrival 9 true) s).voice 9 = s.voice 9 := by decide +kernel

/-- A voice released while its start waits on a reload fades silence, not the clip before it (R111). -/
theorem test_released_start_is_silent :
    (({ state := .priming, hold := 1200, waiting := some (512, 0) } : Voice).released.sample 0) = 0 := by decide +kernel

/-- A body too short for a kind's mandatory fields is answered BAD_LENGTH (R171). -/
theorem test_empty_body_is_a_bad_length :
    let s := { route7 with link := { input := [{ kind := 0x14, tag := 2, body := [] }] } }
    let t := ran (.selectRoute 2 0) s
    (t.link.sending, t.cues) = (some (.reply { kind := 0x94, tag := 2, code := .badLength, order := 0 }), s.cues) := by
  decide +kernel

end Sys2Proof.Tests
end

section
/-! SUPPORT. What the tracker's and the cues' invariants read of a state, and the commands that leave it alone. One lemma per
operation, as for the wide part. -/

namespace Sys2Proof.Machine

/-- The part of the state that the tracker's and the cues' invariants read. -/
structure PlaceView where
  tracker : Tracker
  cues : CueEngine
  settings : Settings
  mode : Mode

/-- That part of a state: the tracker without its report timer, the cue engine without the directory. -/
def State.placeView (s : State) : PlaceView :=
  { tracker := { s.tracker with reportTimer := none }, cues := { s.cues with directory := [] }, settings := s.settings
    mode := s.store.mode }

section
variable {s t : State}

/-- Acts that leave the cue engine alone leave the view alone. -/
theorem Acts.placeView (h : Acts s t) (hc : t.cues = s.cues) : t.placeView = s.placeView := by
  unfold State.placeView
  rw [hc, h.tracker, h.settings, h.store]

theorem Engines.placeView (h : Engines s t) : t.placeView = s.placeView := (Acts.ofEngines h).placeView h.cues

theorem EventFrame.mode (h : EventFrame s t) : t.store.mode = s.store.mode := by
  have hs := congrArg Store.mode h.store
  exact hs

theorem EventFrame.placeView (h : EventFrame s t) : t.placeView = s.placeView := by
  unfold State.placeView
  rw [h.cues, h.tracker, h.settings, h.mode]

end

/-! ### Operations -/

@[simp] theorem endEvent_placeView (s : State) : s.endEvent.placeView = s.placeView := (endEvent_frame s).placeView
@[simp] theorem reply_placeView (s : State) (k : Nat) (tag : Byte) (c : ResultCode) (d : ReplyData) :
    (s.reply k tag c d).placeView = s.placeView := rfl
@[simp] theorem report_placeView (s : State) (r : Report) : (s.report r).placeView = s.placeView := rfl
@[simp] theorem kick_placeView (s : State) : s.kick.placeView = s.placeView := rfl
@[simp] theorem setLink_placeView (s : State) (f : Link → Link) : (s.setLink f).placeView = s.placeView := rfl
@[simp] theorem setVoice_placeView (s : State) (v : Fin 16) (f : Voice → Voice) : (s.setVoice v f).placeView = s.placeView := rfl
@[simp] theorem dropVoice_placeView (s : State) (v : Fin 16) : (s.dropVoice v).placeView = s.placeView := rfl
@[simp] theorem portDone_placeView (s : State) : s.portDone.placeView = s.placeView := rfl
@[simp] theorem armTimer_placeView (s : State) : s.armTimer.placeView = s.placeView := rfl
@[simp] theorem idleTimer_placeView (s : State) : s.idleTimer.placeView = s.placeView := rfl
@[simp] theorem acceptWrite_placeView (s : State) (k : WriteKind) (n : Nat) (p : Option Nat) :
    (s.acceptWrite k n p).placeView = s.placeView := rfl
@[simp] theorem shiftWrite_placeView (s : State) (a b : WritePhase) : (s.shiftWrite a b).placeView = s.placeView := by
  rw [shiftWrite_eq]; rfl
@[simp] theorem topUp_placeView (s : State) (v : Fin 16) : (s.topUp v).placeView = s.placeView :=
  (topUp_engines (.refl s) v).placeView
@[simp] theorem tellFree_placeView (s : State) : s.tellFree.placeView = s.placeView := (tellFree_engines (.refl s)).placeView
@[simp] theorem select_placeView (s : State) : s.select.placeView = s.placeView := (select_engines (.refl s)).placeView
@[simp] theorem endActive_placeView (s : State) (o : AnnOutcome) : (s.endActive o).placeView = s.placeView :=
  (endActive_engines (.refl s) o).placeView
@[simp] theorem cancelEntry_placeView (s : State) (e : Entry) : (s.cancelEntry e).placeView = s.placeView :=
  (cancelEntry_engines (.refl s) e).placeView
@[simp] theorem endDelay_placeView (s : State) (i : Fin 12) : (s.endDelay i).placeView = s.placeView :=
  (endDelay_engines (.refl s) i).placeView
@[simp] theorem finishSegment_placeView (s : State) (i : Fin 12) : (s.finishSegment i).placeView = s.placeView :=
  (finishSegment_engines (.refl s) i).placeView
@[simp] theorem voiceEnded_placeView (s : State) (v : Fin 16) : (s.voiceEnded v).placeView = s.placeView :=
  (voiceEnded_engines (.refl s) v).placeView
@[simp] theorem ownerActs_placeView (s : State) (o : Option Owner) (v : Fin 16) : (s.ownerActs o v).placeView = s.placeView :=
  (ownerActs_engines (.refl s) o v).placeView
@[simp] theorem stopCommentary_placeView (s : State) : s.stopCommentary.placeView = s.placeView :=
  (stopCommentary_engines (.refl s)).placeView
@[simp] theorem dropCueEntries_placeView (s : State) : s.dropCueEntries.placeView = s.placeView :=
  (dropCueEntries_engines (.refl s)).placeView
@[simp] theorem deriveDemand_placeView (s : State) : s.deriveDemand.placeView = s.placeView :=
  (deriveDemand_engines (.refl s)).placeView
@[simp] theorem deriveNeed_placeView (s : State) : s.deriveNeed.placeView = s.placeView :=
  (deriveNeed_acts (.refl s)).placeView (deriveNeed_cues s)
@[simp] theorem setQuiet_placeView (s : State) (q : Bool) : (s.setQuiet q).placeView = s.placeView := by
  unfold State.setQuiet; exact deriveNeed_placeView _
@[simp] theorem admitEntry_placeView (s : State) (e : Entry) : (s.admitEntry e).1.placeView = s.placeView :=
  (admitEntry_acts (.refl s) e).placeView (admitEntry_cues s e)
@[simp] theorem admitSilently_placeView (s : State) (e : Entry) : (s.admitSilently e).placeView = s.placeView :=
  (admitSilently_acts (.refl s) e).placeView (admitSilently_cues s e)
@[simp] theorem liveRelease_placeView (s : State) : s.liveRelease.placeView = s.placeView := (liveRelease_engines s).placeView

@[simp] theorem livePress_placeView (s : State) : s.livePress.placeView = s.placeView := by
  unfold State.livePress
  dsimp only
  (repeat' split) <;> first | rfl | exact admitSilently_placeView _ _

@[simp] theorem readPage_placeView (s : State) (p : Nat) (f : Bool) : (s.readPage p f).2.placeView = s.placeView := by
  obtain ⟨n, h⟩ := readPage_state s p f
  rw [h]; rfl

@[simp] theorem checkPage_placeView (s : State) (p : Nat) (d : Option (List Byte)) (c i : Nat) (q : Bool) :
    (s.checkPage p d c i q).2.placeView = s.placeView := by
  obtain ⟨n, f, l, fs, h⟩ := checkPage_state s p d c i q
  rw [h]; rfl

@[simp] theorem tellListeners_placeView (s : State) : s.tellListeners.placeView = s.placeView := by
  obtain ⟨r, l, p, rs, h⟩ := tellListeners_eq s
  rw [h]; rfl

@[simp] theorem seatsTaken_placeView (s : State) (t : SeatTable) : (s.seatsTaken t).placeView = s.placeView := by
  obtain ⟨u, hu, h | h⟩ := seatsTaken_spec s t
  · rw [h]; exact hu.placeView
  · rw [h, tellListeners_placeView]; exact hu.placeView

@[simp] theorem refreshEnabled_placeView (s : State) : s.refreshEnabled.placeView = s.placeView := by
  obtain ⟨-, h⟩ | ⟨u, hu, h | h⟩ := refreshEnabled_spec s
  · rw [h]
  · rw [h]; exact hu.placeView
  · rw [h, tellListeners_placeView]; exact hu.placeView

@[simp] theorem endListenersHold_placeView (s : State) : s.endListenersHold.placeView = s.placeView := by
  unfold State.endListenersHold; dsimp only; split <;> rfl

@[simp] theorem missReply_placeView (s : State) (b : Fin 16) : (s.missReply b).placeView = s.placeView := by
  unfold State.missReply; dsimp only
  split
  · exact seatsTaken_placeView _ _
  · rfl

@[simp] theorem takeReply_placeView (s : State) (r : PollReply) : (s.takeReply r).placeView = s.placeView := by
  unfold State.takeReply; dsimp only
  split <;> exact seatsTaken_placeView _ _

@[simp] theorem voicePage_placeView (s : State) (v : Fin 16) (serial index page : Nat) (data : Option (List Byte)) :
    (s.voicePage v serial index page data).placeView = s.placeView := by
  unfold State.voicePage; dsimp only
  split
  · split
    · rfl
    · exact (topUp_placeView _ _).trans (checkPage_placeView _ _ _ _ _ _)
  · rfl

@[simp] theorem duePlaying_placeView (s : State) (v : Fin 16) : (s.duePlaying v).placeView = s.placeView := by
  unfold State.duePlaying; dsimp only
  (repeat' split) <;> simp

@[simp] theorem dueStopping_placeView (s : State) (v : Fin 16) : (s.dueStopping v).placeView = s.placeView := by
  unfold State.dueStopping; dsimp only
  (repeat' split) <;> simp

@[simp] theorem residentPage_placeView (s : State) (b i p : Nat) (d : Option (List Byte)) (q : Bool) :
    (s.residentPage b i p d q).placeView = s.placeView := by
  unfold State.residentPage
  split
  · rfl
  · split
    · exact checkPage_placeView _ _ _ _ _ _
    · rfl

@[simp] theorem waitingLookup_placeView (s : State) (v : Fin 16) : (s.waitingLookup v).placeView = s.placeView := by
  unfold State.waitingLookup
  split
  · rfl
  · next clip page _ =>
    have hl := (lookUp_engines (.refl s) v clip page).placeView
    revert hl
    generalize s.lookUp v clip page = p
    obtain ⟨u, o⟩ := p
    intro hl
    cases o
    · exact hl
    · exact (ownerActs_placeView _ _ _).trans hl
    · exact (ownerActs_placeView _ _ _).trans hl

theorem foldl_placeView {α : Type} {f : State → α → State} (hf : ∀ s a, (f s a).placeView = s.placeView) (l : List α)
    (s : State) : (l.foldl f s).placeView = s.placeView := by
  induction l generalizing s with
  | nil => rfl
  | cons a l ih => exact (ih _).trans (hf s a)

@[simp] theorem blankChecked_placeView (s : State) (tag : Byte) (page : Nat) (bytes : List Byte) (d : Option (List Byte)) :
    (s.blankChecked tag page bytes d).placeView = s.placeView := by
  unfold State.blankChecked
  (repeat' split) <;> rfl

@[simp] theorem abortEntry_placeView (s : State) (w : WakeCause) : (s.abortEntry w).placeView = s.placeView := by
  unfold State.abortEntry
  dsimp only
  split <;> rfl

/-! ### Start-up (R181, R182) -/

@[simp] theorem takeLockPage_placeView (s : State) (i p : Nat) (d : Option (List Byte)) :
    (s.takeLockPage i p d).placeView = s.placeView := by
  unfold State.takeLockPage
  split <;> rfl

@[simp] theorem takeLoad_placeView (s : State) (r : PortRead) (d : Option (List Byte)) :
    (s.takeLoad r d).placeView = s.placeView := by
  unfold State.takeLoad
  split
  · rfl
  · dsimp only
    split <;> rfl
  · exact residentPage_placeView _ _ _ _ _ _
  · exact takeLockPage_placeView _ _ _ _
  · rfl

theorem foldl_report_placeView (rs : List FaultRecord) (s : State) :
    (rs.foldl (fun s f => s.report (.storeFault f)) s).placeView = s.placeView :=
  foldl_placeView (fun u f => report_placeView u (.storeFault f)) rs s

@[simp] theorem completeStartUp_placeView (s : State) : s.completeStartUp.placeView = s.placeView := by
  have lined : ∀ u : State, (if u.power.ignition then u else u.armTimer).placeView = u.placeView := by
    intro u
    split <;> rfl
  unfold State.completeStartUp
  dsimp only
  rw [kick_placeView, lined, foldl_report_placeView]
  rfl

@[simp] theorem loadArrives_placeView (s : State) (failed : Bool) : (s.loadArrives failed).placeView = s.placeView := by
  unfold State.loadArrives
  split
  · rfl
  · dsimp only
    split
    · exact (takeLoad_placeView _ _ _).trans (readPage_placeView _ _ _)
    · rw [completeStartUp_placeView, portDone_placeView, takeLoad_placeView, readPage_placeView]

end Sys2Proof.Machine
end

section
/-! SUPPORT. The ranges of Table 11-2 under writes of settings, stored records and start-ups (R179, R181). -/

namespace Sys2Proof.Machine

/-- The defaults of Table 11-2 lie in its ranges. -/
theorem defaults_valid : ({} : Settings).Valid := by
  constructor <;> simp

theorem inRange_some {n lo hi x : Nat} (h : inRange n lo hi = some x) : lo ≤ x ∧ x ≤ hi := by
  unfold inRange at h
  split at h
  · next hr => cases h; exact hr
  · cases h

/-- A write that is taken keeps the ranges (R179). -/
theorem write_valid {g g' : Settings} {id : Nat} {v : List Byte} (hg : g.Valid) (h : g.write id v = some g') : g'.Valid := by
  unfold Settings.write at h
  dsimp only at h
  split at h
  case h_1 => obtain ⟨x, hx, rfl⟩ := Option.map_eq_some_iff.1 h; exact { hg with pulseLength := inRange_some hx }
  case h_2 => obtain ⟨x, hx, rfl⟩ := Option.map_eq_some_iff.1 h; exact { hg with pulseSpacing := inRange_some hx }
  case h_3 => obtain ⟨x, hx, rfl⟩ := Option.map_eq_some_iff.1 h; exact { hg with slewLimit := (inRange_some hx).2 }
  case h_4 => obtain ⟨x, hx, rfl⟩ := Option.map_eq_some_iff.1 h; exact { hg with rearmDistance := inRange_some hx }
  case h_5 => obtain ⟨x, hx, rfl⟩ := Option.map_eq_some_iff.1 h; exact { hg with maxLead := (inRange_some hx).2 }
  case h_6 => obtain ⟨x, hx, rfl⟩ := Option.map_eq_some_iff.1 h; exact { hg with crawlSpeed := (inRange_some hx).2 }
  case h_7 => obtain ⟨x, hx, rfl⟩ := Option.map_eq_some_iff.1 h; exact { hg with resumeLimit := (inRange_some hx).2 }
  case h_8 => obtain ⟨x, hx, rfl⟩ := Option.map_eq_some_iff.1 h; exact { hg with resumeRewind := (inRange_some hx).2 }
  case h_12 => obtain ⟨x, hx, rfl⟩ := Option.map_eq_some_iff.1 h; exact { hg with defaultVolume := (inRange_some hx).2 }
  case h_13 => obtain ⟨x, hx, rfl⟩ := Option.map_eq_some_iff.1 h; exact { hg with warningFloor := (inRange_some hx).2 }
  case h_17 => obtain ⟨x, hx, rfl⟩ := Option.map_eq_some_iff.1 h; exact { hg with liveHang := (inRange_some hx).2 }
  case h_19 => obtain ⟨x, hx, rfl⟩ := Option.map_eq_some_iff.1 h; exact { hg with standbyDelay := (inRange_some hx).2 }
  case h_24 => obtain ⟨x, hx, rfl⟩ := Option.map_eq_some_iff.1 h; exact { hg with masterLevel := (inRange_some hx).2 }
  case h_16 => split at h <;> cases h; next hr => exact { hg with chimes := hr }
  case h_18 => split at h <;> cases h; next hr => exact { hg with positionPeriod := hr }
  case h_29 =>
    split at h <;> cases h
    next hr =>
    refine { hg with residentList := fun i => ?_ }
    rw [Table.get_ofFn]
    exact of_decide_eq_true (List.all_eq_true.1 hr i.val (List.mem_range.2 i.isLt))
  case h_9 | h_26 => split at h <;> cases h; exact { hg with }
  case h_10 | h_11 | h_14 | h_15 | h_27 | h_28 => obtain ⟨x, -, rfl⟩ := Option.map_eq_some_iff.1 h; exact { hg with }
  case h_20 | h_21 | h_25 => split at h <;> cases h; exact { hg with }
  case h_22 | h_23 => cases h; exact { hg with }
  case h_30 => cases h

theorem writeAll_valid {g g' : Settings} {ids : List Nat} {bytes : List Byte} (hg : g.Valid)
    (h : g.writeAll ids bytes = some g') : g'.Valid := by
  induction ids generalizing g bytes with
  | nil => cases h; exact hg
  | cons id ids ih =>
    unfold Settings.writeAll at h
    dsimp only at h
    split at h
    · cases h
    · next g1 h1 => exact ih (write_valid hg h1) h

/-- A stored record that passes its check holds settings in their ranges (R181). -/
theorem ofRecord_valid {page : List Byte} {g : Settings} (h : Settings.ofRecord page = some g) : g.Valid := by
  unfold Settings.ofRecord at h
  split at h
  · exact writeAll_valid defaults_valid h
  · cases h

theorem storedSettings_valid {st : Store} {failed : Bool} {g : Settings} (h : st.storedSettings failed = some g) : g.Valid := by
  unfold Store.storedSettings at h
  split at h
  · next g1 h1 => split at h <;> cases h; exact ofRecord_valid h1
  · cases h

/-- A start-up settles settings in their ranges (R181). -/
theorem settleSettings_valid {s : State} (kind : StartKind) (h : s.settings.Valid) : (s.settleSettings kind).1.Valid := by
  have stored : ∀ failed, (match s.store.storedSettings failed with
      | some g => ((g, false) : Settings × Bool)
      | none => ({}, true)).1.Valid := by
    intro failed
    split
    · next g hg => exact storedSettings_valid hg
    · exact defaults_valid
  cases kind
  case restart => exact h
  case powerOn => exact stored _
  case wake => exact stored _

end Sys2Proof.Machine
end

section
/-! SUPPORT. Invariants that read the place view alone: kept by every command whose own work leaves the view alone, and by every
start-up and entry into STANDBY, which leave the tracker unplaced and no route. -/

namespace Sys2Proof.Machine

/-- A property that reads the place view alone and holds after a start-up. -/
structure PlaceInv (P : State → Prop) : Prop where
  reads : ∀ {s t : State}, P s → t.placeView = s.placeView → P t
  fresh : ∀ {s t : State}, P s → t.tracker = {} → t.cues = {} → (s.settings.Valid → t.settings.Valid) → P t

/-- The commands whose own work can change the place view, start-ups and the entry into STANDBY apart. -/
def movesPlace : Instr → Bool
  | .odometerPulse _ | .speedWindow | .fixSoft _ _ _ _ | .fixHard _ _ _ | .detourBegin _ | .detourEnd _
  | .selectRoute _ _ | .routePageArrival _ | .forceCue _ _ | .enterService _ | .leaveService _
  | .directoryPageArrival _ | .setSetting _ _ _ => true
  | _ => false

namespace PlaceInv
variable {P : State → Prop} (hP : PlaceInv P) {s t : State}
include hP

theorem closed : Closed P where
  queue _ _ _ h := hP.reads h rfl
  link _ _ h := hP.reads h rfl
  ending s h := hP.reads h (endEvent_placeView s)

theorem tick (h : P s) : P s.tick := hP.reads h rfl

/-! ### Start-ups and STANDBY -/

theorem beginStartUp (kind : StartKind) (latches : Latches) (h : P s) : P (s.beginStartUp kind latches) :=
  hP.fresh h rfl rfl fun hv => settleSettings_valid (s := { s with store := s.store.cutOff }) kind hv

theorem enterStandby (h : P s) : P s.enterStandby := hP.fresh h rfl rfl id

theorem afterWrite (h : P s) : P s.afterWrite := by
  unfold State.afterWrite
  split
  · exact hP.enterStandby h
  · exact h

theorem wakeInput (w : WakeCause) (h : P s) : P (s.wakeInput w) := by
  unfold State.wakeInput
  split
  · exact h
  · exact hP.reads h (abortEntry_placeView _ _)
  · exact hP.beginStartUp _ _ h
  · split
    · exact hP.reads h rfl
    · exact h

/-! ### Commands whose act leaves the view alone -/

theorem ofEvent {act : State → State} (ha : ∀ u, (act u).placeView = u.placeView) (he : s.event act = .next t) (h : P s) : P t :=
  hP.closed.event h (fun u hu => hP.reads hu (ha u)) he

theorem ofCommand {kind : Nat} {tag : Byte} {act : State → State} (ha : ∀ u, (act u).placeView = u.placeView)
    (he : s.command kind tag act = .next t) (h : P s) : P t :=
  hP.closed.command h (fun u hu => hP.reads hu (ha u)) he

theorem ofQuery {kind : Nat} {tag : Byte} {act : State → State} (ha : ∀ u, (act u).placeView = u.placeView)
    (he : s.query kind tag act = .next t) (h : P s) : P t :=
  hP.closed.query h (fun u hu => hP.reads hu (ha u)) he

theorem writeDone {store : Store} {act : State → State} (ha : ∀ u, (act u).placeView = u.placeView)
    (hm : store.mode = s.store.mode) (h : P s) : P (s.writeDone store act) := by
  refine hP.afterWrite (hP.reads h ((endEvent_placeView _).trans ((ha _).trans ?_)))
  unfold State.placeView Store.writeEnds
  rw [hm]

end PlaceInv
end Sys2Proof.Machine
end

section
namespace Sys2Proof.Machine

@[simp] theorem linkUpdate_placeView (s : State) (l : Link) : ({ s with link := l } : State).placeView = s.placeView := rfl
@[simp] theorem mixerUpdate_placeView (s : State) (m : Mixer) : ({ s with mixer := m } : State).placeView = s.placeView := rfl

@[simp] theorem replyAdmission_placeView (s : State) (tag : Byte) (o : Admission) :
    (s.replyAdmission tag o).placeView = s.placeView := by
  cases o <;> rfl

namespace PlaceInv
variable {P : State → Prop} (hP : PlaceInv P) {s t : State}
include hP

/-- A byte received while the part runs (R167, R185). -/
theorem receive (b : Byte) (h : P s) : P (s.receive b) := by
  unfold State.receive
  split
  · split
    · exact hP.closed.setLink (hP.wakeInput _ h) _
    · exact hP.closed.setLink h _
  · exact hP.closed.setLink h _

/-- A command that does not move the tracker, a cue, the mode or a setting keeps the property. -/
theorem ofExec {c : Instr} (hc : movesPlace c = false) (he : exec c s = .next t) (h : P s) : P t := by
  cases c
  -- The commands that move the place.
  case odometerPulse | speedWindow | fixSoft | fixHard | detourBegin | detourEnd | selectRoute | routePageArrival | forceCue
      | enterService | leaveService | directoryPageArrival | setSetting => cases hc
  -- Requests answered outside any event: nothing but the link and the other blocks.
  case getPosition | getCues | getSeats | getStreams | getAnnouncements | setPrecedence | clearStoreFaults | volatileOn
      | volatileOff | lockdown | freezeLocks | getStoreState | setLight | applyScene | clearScene | setMaster | getLights
      | getStatus | restart | getSetting | standby =>
    simp only [exec, execGetPosition, execGetCues, execGetSeats, execGetStreams, execGetAnnouncements, execSetPrecedence,
      execClearStoreFaults, execVolatileOn, execVolatileOff, execLockdown, execFreezeLocks, execGetStoreState, execSetLight,
      execApplyScene, execClearScene, execSetMaster, execGetLights, execGetStatus, execRestart, execGetSetting,
      execStandby] at he
    exact hP.ofQuery (fun u => by (repeat' split) <;> rfl) he h
  -- Requests of the store, the seats and the announcements.
  case setSeat | seatApply | cancelAnnounce | storeRead | storeProgram | storeErase | reloadDirectory | lockPersistent
      | unlockAll | setZone | saveSettings | announce =>
    simp only [exec, execSetSeat, execSeatApply, execCancelAnnounce, execStoreRead, execStoreProgram, execStoreErase,
      execReloadDirectory, execLockPersistent, execUnlockAll, execSetZone, execSaveSettings, execAnnounce] at he
    exact hP.ofCommand (fun u => by (repeat' split) <;> first | rfl | simp) he h
  -- Events of the other blocks.
  case positionReport | poll | missedReply | pollReply | listenersHoldEnd | streamDelayEnd | segmentTimeEnd | noticeMaxWait
      | hangTimerExpiry | voicePageDue | fadeEnd | writeBegin | duckRampAdvance | outputRampAdvance | lightRampAdvance
      | flashPhaseEnd | ignitionOffTimer | settingsEraseComplete =>
    simp only [exec, execPositionReport, execPoll, execMissedReply, execPollReply, execListenersHoldEnd, execStreamDelayEnd,
      execSegmentTimeEnd, execNoticeMaxWait, execHangTimerExpiry, execVoicePageDue, execFadeEnd, execWriteBegin,
      execDuckRampAdvance, execOutputRampAdvance, execLightRampAdvance, execFlashPhaseEnd, execIgnitionOffTimer,
      execSettingsEraseComplete] at he
    exact hP.ofEvent (fun u => by (repeat' split) <;> first | rfl | simp) he h
  -- Pages that arrive.
  case voicePageArrival | storeReadData | blankCheckData | residentPageArrival =>
    simp only [exec, execVoicePageArrival, execStoreReadData, execBlankCheckData, execResidentPageArrival] at he
    exact hP.ofEvent (fun u => by (repeat' split) <;> simp) he h
  -- The receiver and the transmitter.
  case lineErrorByte | frameTimeout | badKind =>
    simp only [exec, execLineErrorByte, execFrameTimeout, execBadKind] at he
    cases he
    split
    · exact hP.reads h rfl
    · exact h
  case linkByte =>
    simp only [exec, execLinkByte] at he
    cases he
    split
    · exact hP.closed.kick (hP.receive _ h)
    · split
      · exact hP.wakeInput _ h
      · exact h
  case frameSent =>
    simp only [exec, execFrameSent] at he
    cases he
    split
    · exact h
    · split
      · exact hP.beginStartUp _ _ (hP.closed.setLink h _)
      · exact hP.reads h rfl
    · exact hP.reads h rfl
  -- Start-ups.
  case powerOn => cases he; exact hP.beginStartUp _ _ h
  case startupPageArrival =>
    simp only [exec, execStartupPageArrival] at he
    cases he
    split
    · exact hP.reads h (loadArrives_placeView _ _)
    · exact h
  -- The input lines.
  case pttPress =>
    simp only [exec, execPttPress] at he
    cases he
    split
    · exact h
    · have pressed := hP.reads (t := { s with power := { s.power with pttLine := true } }) h rfl
      split
      · exact hP.reads (hP.wakeInput _ pressed) ((endEvent_placeView _).trans (livePress_placeView _))
      · exact hP.wakeInput _ pressed
  case pttRelease =>
    simp only [exec, execPttRelease] at he
    cases he
    split
    · split
      · exact hP.reads h ((endEvent_placeView _).trans (liveRelease_placeView _))
      · exact hP.reads h rfl
    · exact h
  case ignitionRise =>
    simp only [exec, execIgnitionRise] at he
    cases he
    split
    · exact h
    · have risen := hP.reads (t := { s with power := { s.power with ignition := true, offTimer := none } }) h rfl
      split
      · exact hP.closed.ending _ (hP.wakeInput _ risen)
      · exact hP.wakeInput _ risen
  case ignitionFall =>
    simp only [exec, execIgnitionFall] at he
    cases he
    split
    · split <;> exact hP.reads h rfl
    · exact h
  case entryPhaseEnd =>
    simp only [exec, execEntryPhaseEnd] at he
    cases he
    split
    · split
      · exact hP.enterStandby h
      · exact hP.reads h rfl
    · exact h
  -- Writes done.
  case pageProgramComplete | sectorEraseComplete | lockProgramComplete | lockEraseComplete | settingsSaved =>
    simp only [exec, execPageProgramComplete, execSectorEraseComplete, execLockProgramComplete, execLockEraseComplete,
      execSettingsSaved] at he
    cases he
    split
    · split
      · exact hP.writeDone (fun _ => rfl) rfl h
      · exact h
    · exact h

/-- A step keeps the property when the commands that move the place do. -/
theorem kept (hm : ∀ c s t, movesPlace c = true → P s → exec c s = .next t → P t) : Kept P := by
  refine hP.closed.kept (fun s => hP.tick) fun c s t h he => ?_
  cases hc : movesPlace c
  · exact hP.ofExec hc he h
  · exact hm c s t hc h he

end PlaceInv
end Sys2Proof.Machine
end

section
/-! SUPPORT. What the commands that move the place do to the tracker, the route and the cues: one lemma per operation. -/

namespace Sys2Proof.Machine

theorem tracker_of_wide {s t : State} (h : t.wide = s.wide) : t.tracker = s.tracker := congrArg WideView.tracker h
theorem settings_of_wide {s t : State} (h : t.wide = s.wide) : t.settings = s.settings := congrArg WideView.settings h
theorem routeState_of_wide {s t : State} (h : t.wide = s.wide) : t.cues.routeState = s.cues.routeState :=
  congrArg (fun v : WideView => v.cues.routeState) h
theorem load_of_wide {s t : State} (h : t.wide = s.wide) : t.cues.load = s.cues.load :=
  congrArg (fun v : WideView => v.cues.load) h

/-! ### Written settings (R17, R179) -/

/-- A write of one setting leaves the slew limit, the maximum lead and the crawl speed to their own identifiers. -/
theorem write_others {g g' : Settings} {id : Nat} {v : List Byte} (h : g.write id v = some g') :
    (id ≠ 3 → g'.slewLimit = g.slewLimit) ∧ (id ≠ 5 → g'.maxLead = g.maxLead) ∧ (id ≠ 6 → g'.crawlSpeed = g.crawlSpeed) := by
  unfold Settings.write at h
  dsimp only at h
  split at h
  case h_9 | h_16 | h_18 | h_20 | h_21 | h_25 | h_26 | h_29 =>
    split at h <;> cases h
    exact ⟨fun _ => rfl, fun _ => rfl, fun _ => rfl⟩
  case h_22 | h_23 => cases h; exact ⟨fun _ => rfl, fun _ => rfl, fun _ => rfl⟩
  case h_30 => cases h
  case h_3 => obtain ⟨x, -, rfl⟩ := Option.map_eq_some_iff.1 h; exact ⟨fun h => absurd rfl h, fun _ => rfl, fun _ => rfl⟩
  case h_5 => obtain ⟨x, -, rfl⟩ := Option.map_eq_some_iff.1 h; exact ⟨fun _ => rfl, fun h => absurd rfl h, fun _ => rfl⟩
  case h_6 => obtain ⟨x, -, rfl⟩ := Option.map_eq_some_iff.1 h; exact ⟨fun _ => rfl, fun _ => rfl, fun h => absurd rfl h⟩
  all_goals
    obtain ⟨x, -, rfl⟩ := Option.map_eq_some_iff.1 h
    exact ⟨fun _ => rfl, fun _ => rfl, fun _ => rfl⟩

/-- The owners of all settings but the slew limit and the two that make leads leave the place alone. -/
theorem settingWritten_placeView {s : State} {id : Nat} (h3 : id ≠ 3) (h5 : id ≠ 5) (h6 : id ≠ 6) :
    (s.settingWritten id).placeView = s.placeView := by
  unfold State.settingWritten
  split
  case h_1 | h_2 | h_3 => contradiction
  case h_4 => exact refreshEnabled_placeView s
  case h_5 => exact seatsTaken_placeView s s.seats
  case h_6 => exact (deriveDemand_placeView _).trans (deriveNeed_placeView _)
  case h_11 =>
    unfold State.delayWritten
    split <;> rfl
  case h_13 => exact deriveNeed_placeView _
  all_goals rfl

/-! ### Route pages (R25 to R27) -/

@[simp] theorem readRoutePage_placeView (s : State) (page : Nat) (failed : Bool) :
    (s.readRoutePage page failed).2.placeView = s.placeView := by
  unfold State.readRoutePage
  split
  · rfl
  · exact readPage_placeView _ _ _

/-- What a page of a load can do: nothing, or, while a load is in progress, end it or go on with it; the tracker stays. -/
structure LoadStep (s t : State) : Prop where
  loading : s.cues.load ≠ none
  tracker : t.tracker = s.tracker
  settings : t.settings = s.settings
  load : t.cues.load = none ∨ t.cues.routeState = s.cues.routeState

theorem routeReady_step {s : State} (h : s.cues.load ≠ none) (p : RouteProgram) : LoadStep s (s.routeReady p) := by
  have w := refreshEnabled_wide
    (({ s with
      cues := { s.cues with
        routeState := .ready, mask := p.mask, cues := p.cues, clipSets := p.clipSets, scenes := p.scenes, load := none } }).report
      (.routeReady s.cues.routeNumber p.cues.length p.clipSets.length p.scenes.length p.mask))
  exact ⟨h, (tracker_of_wide w).trans rfl, (settings_of_wide w).trans rfl, .inl ((load_of_wide w).trans rfl)⟩

theorem loadPage_step {s : State} (h : s.cues.load ≠ none) (extent : Extent) (load : Load) (page : List Byte) :
    LoadStep s (s.loadPage extent load page) := by
  unfold State.loadPage
  dsimp only
  split
  · exact routeReady_step h _
  · exact ⟨h, rfl, rfl, .inl rfl⟩
  · split
    · exact ⟨h, rfl, rfl, .inl rfl⟩
    · exact ⟨h, rfl, rfl, .inr rfl⟩

theorem routePage_step (s : State) (serial index page : Nat) (data : Option (List Byte)) :
    s.routePage serial index page data = s ∨ LoadStep s (s.routePage serial index page data) := by
  unfold State.routePage
  split
  · next load extent hl _ =>
    have h : s.cues.load ≠ none := by simp [hl]
    split
    · split
      · exact .inr ⟨h, rfl, rfl, .inl rfl⟩
      · exact .inr (loadPage_step h _ _ _)
    · exact .inl rfl
  · exact .inl rfl

/-! ### Route changes (R16, R22, R23) -/

theorem routeChange_tracker (s : State) : s.routeChange.tracker = s.tracker.unplace :=
  tracker_of_wide (routeChange_wide s)

theorem routeChange_settings (s : State) : s.routeChange.settings = s.settings :=
  (settings_of_wide (routeChange_wide s)).trans rfl

theorem routeChange_routeState (s : State) : s.routeChange.cues.routeState = .none :=
  routeState_of_wide (routeChange_wide s)

theorem routeChange_load (s : State) : s.routeChange.cues.load = none :=
  load_of_wide (routeChange_wide s)

/-- A pulse changes neither the tracker's state nor its speed (R2). -/
theorem pulse_state_speed (tr : Tracker) (l : Nat) (arrival : BitVec 32) :
    (tr.pulse l arrival).state = tr.state ∧ (tr.pulse l arrival).speed = tr.speed := by
  unfold Tracker.pulse
  split <;> exact ⟨rfl, rfl⟩

/-! ### The advance rule (R30) -/

/-- Triggers depend on the speed, the maximum lead and the crawl speed alone (R7, R8, R29). -/
theorem trigger_congr {s t : State} (hv : t.tracker.speed = s.tracker.speed) (hl : t.settings.maxLead = s.settings.maxLead)
    (hs : t.settings.crawlSpeed = s.settings.crawlSpeed) (c : Cue) : t.trigger c = s.trigger c := by
  unfold State.trigger State.lead State.stationary
  rw [hv, hl, hs]

/-- So does whether a cue is due, with the chainage. -/
theorem not_due_congr {s t : State} {c : Cue} (hx : t.tracker.chainage = s.tracker.chainage)
    (hv : t.tracker.speed = s.tracker.speed) (hl : t.settings.maxLead = s.settings.maxLead)
    (hs : t.settings.crawlSpeed = s.settings.crawlSpeed) (h : s.tracker.chainage < s.trigger c) :
    t.tracker.chainage < t.trigger c := by
  rw [hx, trigger_congr hv hl hs]
  exact h

/-- What acts leave of a cue's being due. -/
theorem Acts.not_due {s t : State} (a : Acts s t) {c : Cue} (h : s.tracker.chainage < s.trigger c) :
    t.tracker.chainage < t.trigger c :=
  not_due_congr (by rw [a.tracker]) (by rw [a.tracker]) (by rw [a.settings]) (by rw [a.settings]) h

/-- Cues fired one after another: those named are FIRED, the others are as they were (R30, R35). -/
theorem foldl_fireCue_get (forced : Bool) (l : List Nat) (s : State) (i : Nat) :
    (l.foldl (State.fireCue forced) s).cues.cues[i]? =
      (s.cues.cues[i]?).map fun c => if i ∈ l then { c with state := .fired } else c := by
  induction l generalizing s with
  | nil => simp
  | cons n l ih =>
    rw [List.foldl_cons, ih, fireCue_cues]
    cases hn : s.cues.cues[n]? with
    | none =>
      by_cases hi : i = n
      · subst hi; simp [hn]
      · simp [hi]
    | some c =>
      have hlt : n < s.cues.cues.length := (List.getElem?_eq_some_iff.1 hn).1
      by_cases hi : i = n
      · subst hi
        simp only [List.getElem?_set_self hlt, hn, Option.map_some, List.mem_cons_self, if_pos, ite_self]
      · simp [hi, List.getElem?_set_ne (Ne.symm hi)]

theorem mem_dueCues {s : State} {n : Nat} : n ∈ s.dueCues ↔ n < s.cues.cues.length ∧ s.cueDue n = true := by
  rw [(dueCues_perm s).mem_iff, List.mem_filter, List.mem_range]

/-- After the advance rule no ARMED cue is due (R30). -/
theorem advance_none_due {s : State} (hr : s.cues.routeState = .ready) (hp : s.tracker.state = .placed)
    (hm : s.store.mode = .run) {c : Cue} (hc : c ∈ s.advance.cues.cues) (ha : c.state = .armed) :
    s.tracker.chainage < s.trigger c := by
  obtain ⟨i, hi⟩ := List.mem_iff_getElem?.1 hc
  unfold State.advance at hi
  rw [if_pos ⟨hr, hp, hm⟩, foldl_fireCue_get] at hi
  obtain ⟨d, hd, hdc⟩ := Option.map_eq_some_iff.1 hi
  by_cases hmem : i ∈ s.dueCues
  · rw [if_pos hmem] at hdc
    rw [← hdc] at ha
    cases ha
  · rw [if_neg hmem] at hdc
    subst hdc
    have hdue : s.cueDue i ≠ true := fun h => hmem (mem_dueCues.2 ⟨(List.getElem?_eq_some_iff.1 hd).1, h⟩)
    simpa [State.cueDue, hd, ha] using hdue

end Sys2Proof.Machine
end

section
/-! SUPPORT. The tracker's ranges through the commands that move the place (01 Table 1-1). -/

namespace Sys2Proof.Machine

/-- A state with the given place and nothing else of its own: invariants that read the place alone hold of it or fail of it
with any state of that place. -/
def standIn (tracker : Tracker) (cues : CueEngine) (settings : Settings) (mode : Mode) : State :=
  { State.reset with tracker := tracker, cues := cues, settings := settings, store := { mode := mode } }

/-- The tracker's ranges and those of the settings. -/
def Ranged (s : State) : Prop := TrackerInv s ∧ s.settings.Valid

theorem Ranged.reads {s t : State} (h : Ranged s) (hv : t.placeView = s.placeView) : Ranged t := by
  have view : Ranged (standIn s.placeView.tracker s.placeView.cues s.placeView.settings s.placeView.mode) :=
    ⟨{ h.1 with }, h.2⟩
  rw [← hv] at view
  exact ⟨{ view.1 with }, view.2⟩

theorem Ranged.ofWide {s t : State} (h : Ranged s) (hv : t.wide = s.wide) : Ranged t := by
  have view : Ranged (standIn s.wide.tracker s.wide.cues s.wide.settings .run) := ⟨{ h.1 with }, h.2⟩
  rw [← hv] at view
  exact ⟨{ view.1 with }, view.2⟩

theorem ranged_placeInv : PlaceInv Ranged where
  reads h hv := h.reads hv
  fresh h ht hc hg := by
    refine ⟨?_, hg h.2⟩
    constructor <;> simp [ht, hc]

/-! ### Pulses (R1 to R4) -/

theorem clampInt_le (x : Int) (limit : Nat) : (clampInt x limit).natAbs ≤ limit := by
  unfold clampInt; omega

/-- What remains of a correction after a slew amount is not larger (R3). -/
theorem sub_clampInt_le (x : Int) (limit : Nat) : (x - clampInt x limit).natAbs ≤ x.natAbs := by
  unfold clampInt; omega

theorem bump_le (n : Nat) : bump n ≤ 65535 := Nat.min_le_right _ _

theorem Ranged.pulsed {s : State} (h : Ranged s) (arrival : BitVec 32) :
    Ranged { s with tracker := s.tracker.pulse s.settings.pulseLength arrival } := by
  refine ⟨?_, h.2⟩
  have counted : TrackerInv { s with tracker := s.tracker.countPulse s.settings.pulseLength arrival } :=
    { h.1 with travelResidue := Nat.mod_lt _ (by decide), windowCount := bump_le _ }
  unfold Tracker.pulse
  split
  · exact counted
  · next hs =>
    exact { counted with
      chainage := Nat.min_le_right _ _
      residue := Nat.mod_lt _ (by decide)
      correction := (sub_clampInt_le _ _).trans h.1.correction
      unplaced := fun hu => by rw [show s.tracker.state = .unplaced from hu] at hs; cases hs
      inDetour := fun hu => by rw [show s.tracker.state = .detour from hu] at hs; cases hs }
  · exact { counted with detour := Nat.min_le_right _ _, detourResidue := Nat.mod_lt _ (by decide) }

theorem Ranged.pulse {s : State} (h : Ranged s) (arrival : BitVec 32) : Ranged (s.pulse arrival) := by
  unfold State.pulse
  dsimp only
  split
  · split
    · exact (h.pulsed arrival).ofWide (advance_wide _)
    · exact h.pulsed arrival
  · exact ⟨{ h.1 with noise := bump_le _ }, h.2⟩

/-! ### Speed windows, fixes and detours (R6, R10 to R15) -/

theorem speedAfter_le (v n l : Nat) : speedAfter v n l ≤ 65535 := Nat.min_le_right _ _

theorem Ranged.endWindow {s : State} (h : Ranged s) : Ranged s.endWindow := by
  have ended : Ranged { s with
      tracker := { s.tracker with
        speed := speedAfter s.tracker.speed s.tracker.windowCount s.settings.pulseLength, windowCount := 0 }
      windowDue := false } :=
    ⟨{ h.1 with speed := speedAfter_le _ _ _, windowCount := by simp }, h.2⟩
  exact ended.ofWide ((motionTest_wide _).trans (advance_wide _))

/-- A fix that passes its checks meets a READY route, and a SOFT one a placed tracker (R9). -/
theorem fixCheck_none {s : State} {soft known : Bool} {chainage : Nat} {stamp : BitVec 32}
    (h : s.fixCheck soft known chainage stamp = none) :
    s.cues.routeState = .ready ∧ (soft = true → s.tracker.state = .placed) := by
  unfold State.fixCheck at h
  split at h
  · cases h
  · next hr =>
    split at h
    · cases h
    · split at h
      · cases h
      · next hs => exact ⟨not_not.1 hr, fun hsoft => by_contra fun hp => hs ⟨hsoft, hp⟩⟩

theorem Ranged.corrected {s : State} (h : Ranged s) (hp : s.tracker.state = .placed) {e : Int}
    (he : e.natAbs ≤ s.settings.slewLimit * 1000) : Ranged { s with tracker := { s.tracker with correction := e } } :=
  ⟨{ h.1 with
      correction := he
      unplaced := fun hu => by rw [show s.tracker.state = .unplaced from hu] at hp; cases hp
      inDetour := fun hu => by rw [show s.tracker.state = .detour from hu] at hp; cases hp }, h.2⟩

theorem Ranged.hardFix {s : State} (h : Ranged s) (hr : s.cues.routeState = .ready) {projected : Nat}
    (hp : projected ≤ 999999999) : Ranged (s.hardFix projected) := by
  have placed : Ranged { s with
      tracker := { s.tracker with state := .placed, chainage := projected, residue := 0, correction := 0 } } :=
    ⟨{ h.1 with
        chainage := hp, residue := by simp, correction := by simp, unplaced := by simp, inDetour := by simp
        route := fun hn => absurd hr hn }, h.2⟩
  unfold State.hardFix
  dsimp only
  split
  · exact placed.ofWide (jumpBackward_wide _ _)
  · exact placed.ofWide (jumpForward_wide _)

theorem Ranged.detourBegun {s : State} (h : Ranged s) (hp : s.tracker.state = .placed) :
    Ranged { s with tracker := { s.tracker with state := .detour, detour := 0, detourResidue := 0, correction := 0 } } :=
  ⟨{ h.1 with
      detour := by simp, detourResidue := by simp, correction := by simp, unplaced := by simp, inDetour := by simp
      route := fun hn => by rw [h.1.route hn] at hp; cases hp }, h.2⟩

theorem Ranged.detourEnded {s : State} (h : Ranged s) (hd : s.tracker.state = .detour) :
    Ranged { s with tracker := { s.tracker with state := .placed } } :=
  ⟨{ h.1 with
      unplaced := by simp, inDetour := by simp
      route := fun hn => by rw [h.1.route hn] at hd; cases hd }, h.2⟩

/-! ### Routes (R16, R22 to R27) -/

theorem Ranged.routeChange {s : State} (h : Ranged s) : Ranged s.routeChange := by
  have unplaced : Ranged { s with cues := s.cues.cleared, tracker := s.tracker.unplace } :=
    ⟨{ h.1 with
        chainage := by simp [Tracker.unplace], residue := by simp [Tracker.unplace], correction := by simp [Tracker.unplace]
        unplaced := fun _ => ⟨rfl, rfl, rfl⟩, inDetour := fun _ => rfl, route := fun _ => rfl
        load := fun hl => absurd rfl hl }, h.2⟩
  exact unplaced.ofWide (routeChange_wide s)

theorem Ranged.beginLoad {s : State} (h : Ranged s) (hn : s.cues.routeState ≠ .ready) (n : Nat) (extent : Extent) :
    Ranged (s.beginLoad n extent) :=
  ⟨{ h.1 with route := fun _ => h.1.route hn, load := fun _ => rfl }, h.2⟩

theorem Ranged.loadStep {s t : State} (h : Ranged s) (hs : LoadStep s t) : Ranged t := by
  have loading := h.1.load hs.loading
  have unplaced := h.1.route (by rw [loading]; decide)
  have step : Ranged (standIn s.tracker t.cues s.settings .run) :=
    ⟨{ h.1 with
        route := fun _ => unplaced
        load := fun hl => hs.load.elim (fun hn => absurd hn hl) fun hr => hr.trans loading }, h.2⟩
  rw [← hs.tracker, ← hs.settings] at step
  exact ⟨{ step.1 with }, step.2⟩

/-! ### Settings (R17, R179) -/

theorem Ranged.settingWritten {s : State} (h : Ranged s) {g : Settings} {id : Nat} {v : List Byte}
    (hw : s.settings.write id v = some g) : Ranged ({ s with settings := g }.settingWritten id) := by
  have hv := write_valid h.2 hw
  by_cases h3 : id = 3
  · subst h3
    have clamped := clampInt_le s.tracker.correction (g.slewLimit * 1000)
    refine ⟨{ h.1 with
      correction := clamped
      unplaced := fun hu => ?_
      inDetour := fun hd => ?_ }, hv⟩
    · obtain ⟨hc, hr, h0⟩ := h.1.unplaced hu
      refine ⟨hc, hr, ?_⟩
      show clampInt s.tracker.correction _ = 0
      rw [h0]; unfold clampInt; omega
    · show clampInt s.tracker.correction _ = 0
      rw [h.1.inDetour hd]; unfold clampInt; omega
  · have written : Ranged { s with settings := g } :=
      ⟨{ h.1 with correction := by rw [(write_others hw).1 h3]; exact h.1.correction }, hv⟩
    by_cases h5 : id = 5
    · subst h5; exact written.ofWide (advance_wide _)
    · by_cases h6 : id = 6
      · subst h6; exact written.ofWide ((motionTest_wide _).trans (advance_wide _))
      · exact written.reads (settingWritten_placeView h3 h5 h6)

/-! ### The commands -/

/-- The commands that move the place keep the ranges. -/
theorem Ranged.ofMoves {c : Instr} {s t : State} (hc : movesPlace c = true) (h : Ranged s) (he : exec c s = .next t) :
    Ranged t := by
  have hP := ranged_placeInv.closed
  cases c
  case odometerPulse micros => exact hP.event h (fun u hu => hu.pulse _) he
  case speedWindow =>
    simp only [exec, execSpeedWindow] at he
    refine hP.event h (fun u hu => ?_) he
    split
    · exact hu.endWindow
    · exact hu
  case fixSoft tag known chainage stamp =>
    refine hP.query (kind := 0x10) h (fun u hu => ?_) he
    split
    · exact hP.reply hu _ _ _ _
    · next hf =>
      dsimp only
      split
      · next hl =>
        refine hP.reply (hu.corrected ((fixCheck_none hf).2 rfl) ?_) _ _ _ _
        rw [Int.natAbs_mul]
        exact Nat.mul_le_mul_right _ hl
      · exact hP.reply hu _ _ _ _
  case fixHard tag chainage stamp =>
    refine hP.command (kind := 0x10) h (fun u hu => ?_) he
    split
    · exact hP.reply hu _ _ _ _
    · next hf => exact Ranged.hardFix (hP.reply hu _ _ _ _) (fixCheck_none hf).1 (Nat.min_le_right _ _)
  case detourBegin tag =>
    refine hP.query (kind := 0x11) h (fun u hu => ?_) he
    split
    · next hp => exact hP.reply (hu.detourBegun hp) _ _ _ _
    · exact hP.reply hu _ _ _ _
  case detourEnd tag =>
    refine hP.command (kind := 0x12) h (fun u hu => ?_) he
    split
    · next hd => exact Ranged.ofWide (hP.reply (hu.detourEnded hd) _ _ _ _) (advance_wide _)
    · exact hP.reply hu _ _ _ _
  case selectRoute tag route =>
    refine hP.command (kind := 0x14) h (fun u hu => ?_) he
    split
    · exact hP.reply hu _ _ _ _
    · split
      · exact Ranged.routeChange (hP.reply hu _ _ _ _)
      · split
        · exact hP.reply hu _ _ _ _
        · exact (Ranged.routeChange (hP.reply hu _ _ _ _)).beginLoad (by rw [routeChange_routeState]; decide) _ _
  case routePageArrival failed =>
    simp only [exec, execRoutePageArrival] at he
    refine hP.event h (fun u hu => ?_) he
    split
    · next page serial index _ =>
      have read : Ranged (u.readRoutePage page failed).2.portDone := hu.reads (readRoutePage_placeView _ _ _)
      rcases routePage_step (u.readRoutePage page failed).2.portDone serial index page (u.readRoutePage page failed).1
        with same | moved
      · exact same.symm ▸ read
      · exact read.loadStep moved
    · exact hu
  case forceCue | enterService | leaveService | directoryPageArrival => exact h.ofWide (exec_wide rfl he)
  case setSetting tag id value =>
    refine hP.command (kind := 0x05) h (fun u hu => ?_) he
    split
    · exact hP.reply hu _ _ _ _
    · split
      · exact hP.reply hu _ _ _ _
      · split
        · exact hP.reply hu _ _ _ _
        · next hw => exact hP.reply (hu.settingWritten hw) _ _ _ _
  all_goals cases hc

end Sys2Proof.Machine
end

section
namespace Sys2Proof.Machine

/-- Settles O19: the commands that leave the place alone by `PlaceInv.ofExec`, each of the others by its lemma above. -/
theorem trackerStaysInRange : Obligations.TrackerStaysInRange :=
  ranged_placeInv.kept fun _ _ _ hc h he => h.ofMoves hc he

end Sys2Proof.Machine
end

section
/-! SUPPORT. No ARMED cue is due: the invariant of the advance rule through the commands that move the place (R30). -/

namespace Sys2Proof.Machine

/-- The part of the cue invariant that no cue enters: loads and the tracker follow the route's state (R9, R16, R25, R27). -/
structure Routed (s : State) : Prop where
  load : s.cues.load ≠ none → s.cues.routeState = .loading
  route : s.cues.routeState ≠ .ready → s.tracker.state = .unplaced

theorem Routed.ofWide {s t : State} (h : Routed s) (hv : t.wide = s.wide) : Routed t := by
  have view : Routed (standIn s.wide.tracker s.wide.cues s.wide.settings .run) := { h with }
  rw [← hv] at view
  exact { view with }

theorem CueInv.routed {s : State} (h : CueInv s) : Routed s := { h with }

theorem CueInv.reads {s t : State} (h : CueInv s) (hv : t.placeView = s.placeView) : CueInv t := by
  have view : CueInv (standIn s.placeView.tracker s.placeView.cues s.placeView.settings s.placeView.mode) := { h with }
  rw [← hv] at view
  exact { view with }

theorem cueInv_placeInv : PlaceInv CueInv where
  reads h hv := h.reads hv
  fresh _ ht hc _ := by constructor <;> simp [ht, hc]

namespace Routed
variable {s : State} (h : Routed s)
include h

/-- With the tracker not PLACED or the mode not RUN no cue need be looked at. -/
theorem cueInv (hn : s.tracker.state ≠ .placed ∨ s.store.mode ≠ .run) : CueInv s :=
  { h with due := fun _ hp hm => hn.elim (absurd hp) (absurd hm) }

/-- The advance rule establishes the cue invariant (R30). -/
theorem advance : CueInv s.advance := by
  have acts := advance_acts (.refl s)
  have routed := h.ofWide acts.wide
  refine { routed with due := fun hr hp hm c hc ha => ?_ }
  rw [acts.routeState] at hr
  rw [acts.tracker] at hp
  rw [acts.store] at hm
  exact acts.not_due (advance_none_due hr hp hm hc ha)

theorem jumpForward (hr : s.cues.routeState = .ready) : CueInv s.jumpForward := by
  unfold State.jumpForward
  rw [if_pos hr]
  exact (h.ofWide (Acts.fold (fun t n => skipCue_acts (.refl t) n) _ (.refl s)).wide).advance

theorem jumpBackward (hr : s.cues.routeState = .ready) (distance : Nat) : CueInv (s.jumpBackward distance) := by
  unfold State.jumpBackward
  rw [if_pos hr]
  split
  · exact (h.ofWide (rearm_acts (.refl s)).wide).advance
  · exact h.advance

theorem enterRun : CueInv s.enterRun := by
  have run : Routed { s with store := { s.store with mode := .run, motionPending := false } } := { h with }
  exact run.advance

theorem leaveByMotion : CueInv s.leaveByMotion := h.enterRun.reads rfl

end Routed

namespace CueInv
variable {s t : State} (h : CueInv s)
include h

/-! ### Pulses and speed windows (R3, R5, R6, R125) -/

theorem pulse (arrival : BitVec 32) : CueInv (s.pulse arrival) := by
  obtain ⟨hstate, hspeed⟩ := pulse_state_speed s.tracker s.settings.pulseLength arrival
  have routed : Routed { s with tracker := s.tracker.pulse s.settings.pulseLength arrival } :=
    { h.routed with route := fun hn => hstate.trans (h.route hn) }
  unfold State.pulse
  dsimp only
  split
  · split
    · exact routed.advance
    · next hm =>
      have chainage := not_not.1 (of_decide_eq_false (Bool.eq_false_iff.2 hm))
      refine { routed with due := fun hr hp hrun c hc ha => ?_ }
      exact not_due_congr (s := s) chainage hspeed rfl rfl (h.due hr (hstate.symm.trans hp) hrun c hc ha)
  · exact { h with }

theorem motionTest : CueInv s.motionTest := by
  unfold State.motionTest
  split
  · split
    · exact h.routed.leaveByMotion
    · exact h.reads rfl
  · exact h

theorem endWindow : CueInv s.endWindow := by
  have renewed : Routed { s with
      tracker := { s.tracker with
        speed := speedAfter s.tracker.speed s.tracker.windowCount s.settings.pulseLength, windowCount := 0 }
      windowDue := false } := { h.routed with }
  exact renewed.advance.motionTest

/-! ### Fixes and detours (R9 to R15) -/

theorem hardFix (hr : s.cues.routeState = .ready) (projected : Nat) : CueInv (s.hardFix projected) := by
  have placed : Routed { s with
      tracker := { s.tracker with state := .placed, chainage := projected, residue := 0, correction := 0 } } :=
    { h.routed with route := fun hn => absurd hr hn }
  unfold State.hardFix
  dsimp only
  split
  · exact placed.jumpBackward hr _
  · exact placed.jumpForward hr

theorem detourBegun (hp : s.tracker.state = .placed) :
    CueInv { s with tracker := { s.tracker with state := .detour, detour := 0, detourResidue := 0, correction := 0 } } :=
  Routed.cueInv { h.routed with route := fun hn => by rw [h.route hn] at hp; cases hp } (.inl (by simp))

theorem detourEnded (hd : s.tracker.state = .detour) : Routed { s with tracker := { s.tracker with state := .placed } } :=
  { h.routed with route := fun hn => by rw [h.route hn] at hd; cases hd }

/-! ### Routes and cues (R16, R22 to R27, R34) -/

omit h in
theorem routeChange : CueInv s.routeChange :=
  Routed.cueInv { load := fun hl => absurd (routeChange_load s) hl, route := fun _ => by rw [routeChange_tracker]; rfl }
    (.inl (by rw [routeChange_tracker]; simp [Tracker.unplace]))

omit h in
theorem beginLoad (hu : s.tracker.state = .unplaced) (n : Nat) (extent : Extent) : CueInv (s.beginLoad n extent) := by
  have unplaced : (s.beginLoad n extent).tracker.state = .unplaced := hu
  exact Routed.cueInv { load := fun _ => rfl, route := fun _ => unplaced } (.inl (by rw [unplaced]; decide))

theorem loadStep (hs : LoadStep s t) : CueInv t := by
  have loading := h.load hs.loading
  have unplaced : t.tracker.state = .unplaced := by rw [hs.tracker]; exact h.route (by rw [loading]; decide)
  refine Routed.cueInv { load := fun hl => ?_, route := fun _ => unplaced } (.inl (by rw [unplaced]; decide))
  exact hs.load.elim (fun hn => absurd hn hl) fun hr => hr.trans loading

theorem fireCue (forced : Bool) (n : Nat) : CueInv (State.fireCue forced s n) := by
  have acts := fireCue_acts (.refl s) forced n
  have routed := h.routed.ofWide acts.wide
  refine { routed with due := fun hr hp hm c hc ha => ?_ }
  rw [acts.routeState] at hr
  rw [acts.tracker] at hp
  rw [acts.store] at hm
  refine acts.not_due (h.due hr hp hm c ?_ ha)
  rw [fireCue_cues] at hc
  split at hc
  · exact hc
  · rcases List.mem_or_eq_of_mem_set hc with old | new
    · exact old
    · subst new; cases ha

/-! ### Modes, reloads and settings (R17, R33, R76, R137) -/

theorem enterService : CueInv s.enterService := by
  have service : CueInv { s with store := { s.store with mode := .service } } :=
    Routed.cueInv { h.routed with } (.inr (by simp))
  exact service.reads (stopCommentary_placeView _)

theorem endReload (r : Reload) : CueInv (s.endReload r) := by
  have looked : ∀ (voices : List (Fin 16)) (u : State), u.placeView = s.placeView →
      CueInv (voices.foldl State.waitingLookup u) :=
    fun voices u hu => h.reads ((foldl_placeView waitingLookup_placeView voices u).trans hu)
  unfold State.endReload
  generalize List.finRange 16 = voices
  dsimp only
  split
  · refine Routed.leaveByMotion (CueInv.routed (looked _ _ ?_))
    rfl
  · exact looked _ _ rfl

theorem directoryPage (use : ReadUse) (d : Option (List Byte)) (erasing : Bool) : CueInv (s.directoryPage use d erasing) := by
  unfold State.directoryPage
  split
  · exact h
  · dsimp only
    split
    · exact h.endReload _
    · exact h.reads rfl

theorem settingWritten {g : Settings} {id : Nat} {v : List Byte} (hw : s.settings.write id v = some g) :
    CueInv ({ s with settings := g }.settingWritten id) := by
  have routed : Routed { s with settings := g } := { h.routed with }
  by_cases h5 : id = 5
  · subst h5; exact routed.advance
  · by_cases h6 : id = 6
    · subst h6; exact routed.advance.motionTest
    · have written : CueInv { s with settings := g } := { routed with
        due := fun hr hp hm c hc ha =>
          not_due_congr (s := s) rfl rfl ((write_others hw).2.1 h5) ((write_others hw).2.2 h6)
            (h.due hr hp hm c hc ha) }
      by_cases h3 : id = 3
      · subst h3; exact { written with }
      · exact written.reads (settingWritten_placeView h3 h5 h6)

/-! ### The commands -/

/-- The commands that move the place keep the cue invariant: each that can make a cue due runs the advance rule. -/
theorem ofMoves {c : Instr} (hc : movesPlace c = true) (he : exec c s = .next t) : CueInv t := by
  have hP := cueInv_placeInv.closed
  cases c
  case odometerPulse micros => exact hP.event h (fun u hu => hu.pulse _) he
  case speedWindow =>
    simp only [exec, execSpeedWindow] at he
    refine hP.event h (fun u hu => ?_) he
    split
    · exact hu.endWindow
    · exact hu
  case fixSoft tag known chainage stamp =>
    refine hP.query (kind := 0x10) h (fun u hu => ?_) he
    split
    · exact hP.reply hu _ _ _ _
    · dsimp only
      split
      · exact { hu with }
      · exact hP.reply hu _ _ _ _
  case fixHard tag chainage stamp =>
    refine hP.command (kind := 0x10) h (fun u hu => ?_) he
    split
    · exact hP.reply hu _ _ _ _
    · next hf => exact CueInv.hardFix (hP.reply hu _ _ _ _) (fixCheck_none hf).1 _
  case detourBegin tag =>
    refine hP.query (kind := 0x11) h (fun u hu => ?_) he
    split
    · next hp => exact hP.reply (hu.detourBegun hp) _ _ _ _
    · exact hP.reply hu _ _ _ _
  case detourEnd tag =>
    refine hP.command (kind := 0x12) h (fun u hu => ?_) he
    split
    · next hd => exact ((hu.detourEnded hd).ofWide (reply_wide _ _ _ _ _)).advance
    · exact hP.reply hu _ _ _ _
  case selectRoute tag route =>
    refine hP.command (kind := 0x14) h (fun u hu => ?_) he
    split
    · exact hP.reply hu _ _ _ _
    · split
      · exact CueInv.routeChange
      · split
        · exact hP.reply hu _ _ _ _
        · exact beginLoad (by rw [routeChange_tracker]; rfl) _ _
  case routePageArrival failed =>
    simp only [exec, execRoutePageArrival] at he
    refine hP.event h (fun u hu => ?_) he
    split
    · next page serial index _ =>
      have read : CueInv (u.readRoutePage page failed).2.portDone := hu.reads (readRoutePage_placeView _ _ _)
      rcases routePage_step (u.readRoutePage page failed).2.portDone serial index page (u.readRoutePage page failed).1
        with same | moved
      · exact same.symm ▸ read
      · exact read.loadStep moved
    · exact hu
  case forceCue tag n =>
    refine hP.command (kind := 0x16) h (fun u hu => ?_) he
    split
    · exact hP.reply hu _ _ _ _
    · split
      · exact hP.reply hu _ _ _ _
      · split
        · exact CueInv.fireCue (hP.reply hu _ _ _ _) _ _
        · exact hP.reply hu _ _ _ _
  case enterService tag =>
    refine hP.command (kind := 0x30) h (fun u hu => ?_) he
    split
    · exact hP.reply hu _ _ _ _
    · split
      · exact CueInv.enterService (hP.reply hu _ _ _ _)
      · exact hP.reply hu _ _ _ _
  case leaveService tag =>
    refine hP.command (kind := 0x31) h (fun u hu => ?_) he
    split
    · exact hP.reply hu _ _ _ _
    · split
      · exact hP.reply hu _ _ _ _
      · exact (CueInv.routed (hP.reply hu _ _ _ _)).enterRun
  case directoryPageArrival failed =>
    simp only [exec, execDirectoryPageArrival] at he
    refine hP.event h (fun u hu => ?_) he
    split
    · exact hu
    · next r _ =>
      split
      · have read : CueInv (u.readPage r.page failed).2.portDone := hu.reads (readPage_placeView _ _ _)
        exact read.directoryPage _ _ _
      · exact hu
  case setSetting tag id value =>
    refine hP.command (kind := 0x05) h (fun u hu => ?_) he
    split
    · exact hP.reply hu _ _ _ _
    · split
      · exact hP.reply hu _ _ _ _
      · split
        · exact hP.reply hu _ _ _ _
        · next hw => exact hP.reply (hu.settingWritten hw) _ _ _ _
  all_goals cases hc

end CueInv

/-- Settles O25: the commands that leave the place alone by `PlaceInv.ofExec`, those that move it by the advance rule, which
leaves no ARMED cue due. -/
theorem noDueCueWaits : Obligations.NoDueCueWaits :=
  cueInv_placeInv.kept fun _ _ _ hc h he => h.ofMoves hc he

end Sys2Proof.Machine
end

section
/-! SUPPORT. The step of an empty queue (logs 2 and 3): the events of one moment are arranged, none lost and none added, and a
millisecond moves the voices alone. -/

namespace Sys2Proof.Machine

theorem placeAt_perm (c : Instr) (n : Nat) (l : List Instr) : (placeAt c n l).Perm (c :: l) := by
  induction l generalizing n with
  | nil => cases n <;> exact .refl _
  | cons d rest ih =>
    cases n with
    | zero => exact .refl _
    | succ n => exact ((ih n).cons d).trans (.swap _ _ _)

/-- The order of one moment's events is free, the events are not (log 3). -/
theorem arrange_perm (serial : Nat) (l : List Instr) : (arrange serial l).Perm l := by
  induction l with
  | nil => exact .refl _
  | cons c rest ih =>
    unfold arrange
    split
    · next h => rw [h] at ih; exact ih.cons c
    · next h => rw [h] at ih; exact (placeAt_perm _ _ _).trans (ih.cons c)

theorem step_empty {s : State} (h : s.pending = []) : step s = .next s.idle := by
  unfold step; rw [h]

theorem idle_asleep {s : State} (h : s.running = false) : s.idle = s := by
  unfold State.idle; rw [if_neg (by simp [h])]

theorem idle_due {s : State} (hr : s.running = true) (hd : s.dueEvents ≠ []) :
    s.idle = { s with pending := arrange s.freeSerial s.dueEvents, freeSerial := s.freeSerial + 1 } := by
  unfold State.idle
  rw [if_pos hr]
  split
  · next h => exact absurd h hd
  · next h => rw [h]

theorem idle_tick {s : State} (hr : s.running = true) (hd : s.dueEvents = []) : s.idle = s.tick := by
  unfold State.idle; rw [if_pos hr, hd]

theorem tick_voice (s : State) (v : Fin 16) : s.tick.voice v = (s.voice v).tick := Table.get_map _ _ _

/-- A millisecond leaves a voice's state alone, and a fade goes one position further (R110, R111). -/
theorem voiceTick_state (v : Voice) :
    v.tick.state = v.state ∧ (v.state = .stopping → v.tick.fade = min (v.fade + 1) 20) := by
  unfold Voice.tick
  cases h : v.state <;> simp [h]

/-- Settles O2. -/
theorem emptyQueueStep : Obligations.EmptyQueueStep := by
  intro s hs
  rw [step_empty hs]
  refine ⟨fun hr => by rw [idle_asleep hr], fun hr hd => ?_, fun hr hd => ?_⟩
  · rw [idle_due hr hd]
    exact ⟨_, arrange_perm _ _, rfl⟩
  · rw [idle_tick hr hd]
    refine ⟨_, rfl, rfl, rfl, fun v => ?_⟩
    rw [tick_voice]
    exact voiceTick_state _

/-! ### Reset -/

/-- Settles O4: each clause is the value of the reset state's own field. -/
theorem resetValues : Obligations.ResetValues := by
  have table {α : Type} {n : Nat} (a : α) (i : Fin n) : (Table.fill n a).get i = a := Table.get_fill a i
  refine ⟨rfl, rfl, fun i => ?_, fun b => table _ b, rfl, rfl, rfl, rfl, fun v => ?_, rfl, rfl, rfl, rfl, rfl, rfl, rfl, rfl, rfl,
    rfl, rfl, rfl, rfl, fun c => table _ c, rfl, rfl, rfl, rfl, rfl, rfl, rfl, rfl, rfl⟩
  · have seat : State.reset.seats.seats.get i = { chosen := 0, volume := 8, served := some 0, effective := 8 } := table _ i
    rw [seat]
    exact ⟨rfl, rfl, rfl⟩
  · have voice : State.reset.voice v = {} := table _ v
    rw [voice]
    exact ⟨rfl, rfl⟩

end Sys2Proof.Machine
end

section
/-! SUPPORT. Pulses and speed windows (R1 to R6, R125): what the tracker's events do, and what they leave to the advance rule. -/

namespace Sys2Proof.Machine

theorem odometerPulse_next (micros : Nat) {s : State} (hr : s.running = true) :
    exec (.odometerPulse micros) s = .next (s.pulse (s.pulseTimer + BitVec.ofNat 32 micros)).endEvent :=
  event_next s (fun s => s.pulse (s.pulseTimer + BitVec.ofNat 32 micros)) hr

theorem odometerPulse_asleep (micros : Nat) {s : State} (hr : s.running = false) : exec (.odometerPulse micros) s = .next s :=
  event_asleep s (fun s => s.pulse (s.pulseTimer + BitVec.ofNat 32 micros)) hr

/-- When a pulse is accepted (R1). -/
theorem accepts_iff (tr : Tracker) (spacing : Nat) (arrival : BitVec 32) :
    tr.accepts spacing arrival = true ↔ ∀ p, tr.lastPulse = some p → spacing ≤ (arrival - p).toNat := by
  unfold Tracker.accepts
  cases tr.lastPulse <;> simp

/-- A pulse that follows too closely is noise (R1). -/
theorem pulse_rejected {s : State} {arrival : BitVec 32} (h : s.tracker.accepts s.settings.pulseSpacing arrival ≠ true) :
    s.pulse arrival = { s with tracker := { s.tracker with noise := min (s.tracker.noise + 1) 65535 } } := by
  unfold State.pulse; rw [if_neg h]; rfl

/-- An accepted pulse that leaves chainage where it was makes no ADVANCE update (R3). -/
theorem pulse_unmoved {s : State} {arrival : BitVec 32} (h : s.tracker.accepts s.settings.pulseSpacing arrival = true)
    (hx : (s.tracker.pulse s.settings.pulseLength arrival).chainage = s.tracker.chainage) :
    s.pulse arrival = { s with tracker := s.tracker.pulse s.settings.pulseLength arrival } := by
  unfold State.pulse; rw [if_pos h]; dsimp only; rw [if_neg (by simp [hx])]

/-- An accepted pulse that changes chainage makes one (R3). -/
theorem pulse_moved {s : State} {arrival : BitVec 32} (h : s.tracker.accepts s.settings.pulseSpacing arrival = true)
    (hx : (s.tracker.pulse s.settings.pulseLength arrival).chainage ≠ s.tracker.chainage) :
    s.pulse arrival = { s with tracker := s.tracker.pulse s.settings.pulseLength arrival }.advance := by
  unfold State.pulse; rw [if_pos h]; dsimp only; rw [if_pos (by simp [hx])]

theorem pulse_accepted_tracker {s : State} {arrival : BitVec 32}
    (h : s.tracker.accepts s.settings.pulseSpacing arrival = true) :
    (s.pulse arrival).tracker = s.tracker.pulse s.settings.pulseLength arrival := by
  by_cases hx : (s.tracker.pulse s.settings.pulseLength arrival).chainage = s.tracker.chainage
  · rw [pulse_unmoved h hx]
  · rw [pulse_moved h hx, (advance_acts (.refl _)).tracker]

/-- What an accepted pulse counts in every tracker state (R1, R2). -/
theorem trackerPulse_counts (tr : Tracker) (l : Nat) (arrival : BitVec 32) :
    (tr.pulse l arrival).lastPulse = some arrival ∧ (tr.pulse l arrival).stamp = tr.stamp + 1 ∧
      (tr.pulse l arrival).noise = tr.noise := by
  unfold Tracker.pulse
  split <;> exact ⟨rfl, rfl, rfl⟩

theorem trackerPulse_unplaced {tr : Tracker} (h : tr.state = .unplaced) (l : Nat) (arrival : BitVec 32) :
    tr.pulse l arrival = tr.countPulse l arrival := by unfold Tracker.pulse; rw [h]

theorem trackerPulse_detour {tr : Tracker} (h : tr.state = .detour) (l : Nat) (arrival : BitVec 32) :
    tr.pulse l arrival = (tr.countPulse l arrival).detourAdvance l := by unfold Tracker.pulse; rw [h]

theorem trackerPulse_placed {tr : Tracker} (h : tr.state = .placed) (l : Nat) (arrival : BitVec 32) :
    tr.pulse l arrival = (tr.countPulse l arrival).advance l := by unfold Tracker.pulse; rw [h]

/-- Settles O13. -/
theorem pulseAcceptance : Obligations.PulseAcceptance := by
  intro micros s _
  refine ⟨fun hr => odometerPulse_asleep micros hr, fun hr => ⟨_, odometerPulse_next micros hr, fun p hp hlt => ?_, fun hge => ?_⟩⟩
  · have rejected : s.tracker.accepts s.settings.pulseSpacing (s.pulseTimer + BitVec.ofNat 32 micros) ≠ true :=
      fun ha => absurd ((accepts_iff _ _ _).1 ha p hp) (Nat.not_le.2 hlt)
    have frame := endEvent_frame (s.pulse (s.pulseTimer + BitVec.ofNat 32 micros))
    rw [pulse_rejected rejected] at frame ⊢
    exact frame
  · rw [(endEvent_frame _).tracker, pulse_accepted_tracker ((accepts_iff _ _ _).2 hge)]
    exact trackerPulse_counts _ _ _

/-- Slew amounts work a correction off without running backward (R3). -/
theorem slew_bounds (residue l : Nat) (correction : Int) :
    ((((residue : Int) + l + clampInt correction (l / 4)).toNat : Nat) : Int) = residue + l + clampInt correction (l / 4) ∧
      (clampInt correction (l / 4)).natAbs ≤ correction.natAbs := by
  unfold clampInt; omega

/-- Settles O14: the three tracker states by the equations of the tracker's pulse. -/
theorem acceptedPulseWork : Obligations.AcceptedPulseWork := by
  intro micros s _ hr ha
  have frame := endEvent_frame (s.pulse (s.pulseTimer + BitVec.ofNat 32 micros))
  refine ⟨_, odometerPulse_next micros hr, fun hs => ?_, fun hs => ?_, fun hs => ?_⟩
  · have still := pulse_unmoved ha (by rw [trackerPulse_unplaced hs]; rfl)
    rw [trackerPulse_unplaced hs] at still
    rw [still] at frame ⊢
    exact frame
  · have still := pulse_unmoved ha (by rw [trackerPulse_detour hs]; rfl)
    rw [trackerPulse_detour hs] at still
    rw [still] at frame ⊢
    exact frame
  · have slew := slew_bounds s.tracker.residue s.settings.pulseLength s.tracker.correction
    refine ⟨?_, slew.1, slew.2, fun hx => ?_, fun hx => ?_⟩
    · rw [frame.tracker, pulse_accepted_tracker ha, trackerPulse_placed hs]; rfl
    · have still := pulse_unmoved ha (by rw [trackerPulse_placed hs]; exact hx)
      rw [trackerPulse_placed hs] at still
      rw [still] at frame ⊢
      exact frame
    · have moved := pulse_moved ha (by rw [trackerPulse_placed hs]; exact hx)
      rw [trackerPulse_placed hs] at moved
      rw [moved] at frame ⊢
      exact frame

end Sys2Proof.Machine
end

section
/-! SUPPORT. Speed windows, timed reports and the modes (R6, R19, R33, R58, R124, R125). -/

namespace Sys2Proof.Machine

/-! ### Acts and the link -/

theorem Acts.linkFrame {s t : State} (h : Acts s t) : LinkFrame s.link t.link := by
  obtain ⟨rs, hr⟩ := h.link
  obtain ⟨h1, h2, h3, -, -, -, -, h8⟩ := foldl_report_same rs s.link
  rw [hr]
  exact ⟨h1, h2, by rw [h3], h8⟩

/-- A reply that the link holds is held after acts. -/
theorem Acts.replies {s t : State} (h : Acts s t) {r : Reply} (hr : s.holdsReply r) : t.holdsReply r := by
  obtain ⟨rs, hl⟩ := h.link
  obtain ⟨-, -, -, -, h5, h6, -, -⟩ := foldl_report_same rs s.link
  unfold State.holdsReply at *
  rw [hl, h5, h6]
  exact hr

/-- The reply of a request whose owner answers and then acts. -/
theorem acts_answered {s x : State} {kind : Nat} {tag : Byte} {code : ResultCode} {data : ReplyData}
    (h : Acts ((s.taken kind tag).reply kind tag code data) x) : s.answered x.endEvent kind tag code data :=
  endEvent_answered (h.replies (reply_holds _ kind tag code data))

/-- Reports handed keep a waiting report that is not a POSITION. -/
theorem report_holds_other (s : State) (r q : Report) (hq : q.isPosition = false) (h : s.holdsReport q) :
    (s.report r).holdsReport q := by
  refine h.imp (report_keeps _ _ _ hq) fun hs => ?_
  rw [report_link, report_sending]
  exact hs

/-- A report with room in the queue is held. -/
theorem report_holds (s : State) (r : Report) (h : s.link.reports.length < 16) : (s.report r).holdsReport r := by
  refine .inl ?_
  rw [report_link, report_room _ _ h]
  exact List.mem_append_right _ (List.mem_singleton_self r)

/-- The end of an event that has handed one report: the frame against the state before the report. -/
theorem report_frame_end (u : State) (r : Report) : EventFrame u (u.report r).endEvent :=
  (endEvent_frame (u.report r)).relink rfl (report_frame _ _) (fun _ h => h.imp (by simp) (by simp))
    fun q hq h => report_holds_other u r q hq h

/-! ### Modes (R124, R125) -/

/-- The motion test can change the mode and motion pending, and run the advance rule (R33, R125). -/
theorem motionTest_acts (s : State) :
    ∃ mode pending, Acts { s with store := { s.store with mode := mode, motionPending := pending } } s.motionTest := by
  unfold State.motionTest
  split
  · split
    · exact ⟨_, _, (advance_acts (.refl _)).engines (report_engines (.refl _) _)⟩
    · exact ⟨_, _, .refl _⟩
  · exact ⟨_, _, .refl s⟩

/-- In RUN, and while the bus stands, the motion test does nothing (R125). -/
theorem motionTest_still {s : State} (h : s.store.mode = .run ∨ s.stationary = true) : s.motionTest = s := by
  unfold State.motionTest
  rw [if_neg (by rcases h with h | h <;> simp [h])]

theorem motionTest_leaves {s : State} (hm : s.store.mode = .service) (hs : s.stationary = false) (hr : s.store.reload = none) :
    s.motionTest = s.leaveByMotion := by
  unfold State.motionTest
  rw [if_pos ⟨hm, hs⟩, hr]

theorem motionTest_pends {s : State} (hm : s.store.mode = .service) (hs : s.stationary = false) (hr : s.store.reload ≠ none) :
    s.motionTest = { s with store := { s.store with motionPending := true } } := by
  unfold State.motionTest
  rw [if_pos ⟨hm, hs⟩]
  cases h : s.store.reload with
  | none => exact absurd h hr
  | some r => rfl

theorem leaveByMotion_store (s : State) :
    s.leaveByMotion.store = { s.store with mode := .run, motionPending := false } :=
  (advance_acts (.refl _)).store

/-- The advance rule does nothing outside RUN (R30, R33). -/
theorem advance_in_service {s : State} (h : s.store.mode = .service) : s.advance = s := by
  unfold State.advance
  rw [if_neg (by simp [h])]

theorem EventFrame.motionPending {s t : State} (h : EventFrame s t) : t.store.motionPending = s.store.motionPending := by
  have hs := congrArg Store.motionPending h.store
  exact hs

theorem EventFrame.cells {s t : State} (h : EventFrame s t) : t.store.cells = s.store.cells := by
  have hs := congrArg Store.cells h.store
  exact hs

/-! ### Speed windows (R6) -/

/-- The tracker after a speed window. -/
def Tracker.windowed (tr : Tracker) (l : Nat) : Tracker :=
  { tr with speed := speedAfter tr.speed tr.windowCount l, windowCount := 0 }

/-- The state with the speed renewed, before anyone is told of it. -/
def State.windowed (s : State) : State :=
  { s with tracker := s.tracker.windowed s.settings.pulseLength, windowDue := false }

theorem speedWindow_next {s : State} (hr : s.running = true) :
    exec .speedWindow s = .next (if s.windowDue then s.endWindow else s).endEvent :=
  event_next s (fun s => if s.windowDue then s.endWindow else s) hr

theorem endWindow_eq (s : State) : s.endWindow = s.windowed.advance.motionTest := rfl

/-- In RUN the advance rule runs at the new speed, and the motion test does nothing (R5, R125). -/
theorem endWindow_in_run {s : State} (h : s.store.mode = .run) : s.endWindow = s.windowed.advance := by
  have advanced := congrArg Store.mode (advance_acts (.refl s.windowed)).store
  rw [endWindow_eq, motionTest_still (.inl (advanced.trans h))]

/-- In SERVICE the motion test alone runs (R125). -/
theorem endWindow_in_service {s : State} (h : s.store.mode = .service) : s.endWindow = s.windowed.motionTest := by
  rw [endWindow_eq, advance_in_service (s := s.windowed) h]

/-- What the end of a speed window does whatever the mode. -/
theorem endWindow_frame (s : State) :
    s.endWindow.tracker = s.tracker.windowed s.settings.pulseLength ∧ s.endWindow.windowDue = false ∧
      s.endWindow.clock = s.clock ∧ s.endWindow.settings = s.settings ∧ s.endWindow.power = s.power ∧
      s.endWindow.store.cells = s.store.cells := by
  have a := advance_acts (.refl s.windowed)
  obtain ⟨mode, pending, b⟩ :=
    motionTest_acts s.windowed.advance
  have advanced := congrArg Store.cells a.store
  have tested := congrArg Store.cells b.store
  rw [endWindow_eq]
  exact ⟨b.tracker.trans a.tracker, b.windowDue.trans a.windowDue, b.clock.trans a.clock, b.settings.trans a.settings,
    b.power.trans a.power, tested.trans advanced⟩

/-- Settles O15: the renewed speed in every mode, and the motion test by mode. -/
theorem speedWindowEnds : Obligations.SpeedWindowEnds := by
  intro s hr
  constructor
  · intro hd
    refine ⟨_, speedWindow_next hr, ?_⟩
    rw [hd]
    exact endEvent_frame s
  · intro hd
    have frame := endEvent_frame s.endWindow
    obtain ⟨tracker, windowDue, clock, settings, power, cells⟩ := endWindow_frame s
    have next : exec .speedWindow s = .next s.endWindow.endEvent := by rw [speedWindow_next hr, if_pos hd]
    refine ⟨_, next, frame.tracker.trans tracker, frame.windowDue.trans windowDue, frame.clock.trans clock,
      frame.settings.trans settings, frame.power.trans power, frame.cells.trans cells, fun hm => ?_, fun hm hs => ?_,
      fun hm hs => ⟨fun hl => ?_, fun hl => ?_⟩⟩
    · rw [endWindow_in_run hm] at frame ⊢
      exact frame
    · rw [endWindow_in_service hm, motionTest_still (.inr (decide_eq_true hs))] at frame ⊢
      exact frame
    · rw [frame.mode, frame.motionPending, endWindow_in_service hm,
        motionTest_leaves (s := s.windowed) hm (decide_eq_false (Nat.not_lt.2 hs)) hl, leaveByMotion_store]
      exact ⟨rfl, rfl⟩
    · rw [frame.mode, frame.motionPending, endWindow_in_service hm,
        motionTest_pends (s := s.windowed) hm (decide_eq_false (Nat.not_lt.2 hs)) hl]
      exact ⟨hm, rfl⟩

/-! ### Timed reports (R19, R58) -/

/-- The state with a POSITION report handed and its timer set one period later (R19). -/
def State.reportPosition (s : State) : State :=
  ({ s with
    tracker := { s.tracker with reportTimer := s.tracker.reportTimer.map fun t => after t s.settings.positionPeriod } }).report
    (.position s.positionView)

theorem positionReport_next {s : State} (hr : s.running = true) :
    exec .positionReport s = .next (if s.reportDue then s.reportPosition else s).endEvent := by
  have next : execPositionReport s = .next (if s.reportDue then s.reportPosition else s).endEvent := by
    unfold execPositionReport
    rw [event_next _ _ hr]
    rfl
  exact next

theorem listenersHoldEnd_next {s : State} (hr : s.running = true) :
    exec .listenersHoldEnd s = .next (if s.listenersDue then s.endListenersHold else s).endEvent :=
  event_next s (fun s => if s.listenersDue then s.endListenersHold else s) hr

/-- With no voice request waiting, the end of an event keeps every report, POSITION among them (R116, R175). -/
theorem endEvent_holds_ungranted {s : State} {r : Report} (hq : s.voices.requests = []) (h : s.holdsReport r) :
    s.endEvent.holdsReport r := by
  have published : s.arbitrate.publish.settlePort.link = s.link := by
    rw [arbitrate_none (.inl hq)]
    obtain ⟨seats, hp, -⟩ := publish_eq s
    obtain ⟨p, w, hw, -⟩ := settlePort_eq s.publish
    rw [hw, hp]
  refine kick_holdsReport ?_
  unfold State.holdsReport
  rw [published]
  exact h

/-- The hold of LISTENERS ended with the counts as last reported (R58). -/
theorem endListenersHold_same {s : State} (h : s.seats.counts = s.seats.reported) :
    s.endListenersHold = { s with seats := { s.seats with reportPending := false } } := by
  unfold State.endListenersHold; dsimp only; rw [if_pos h]

/-- The hold of LISTENERS ended with other counts: they are reported (R58). -/
theorem endListenersHold_changed {s : State} (h : s.seats.counts ≠ s.seats.reported) :
    s.endListenersHold =
      { s with
        seats := { s.seats with reportPending := false, reported := s.seats.counts, lastReport := some s.clock } }.report
        (.listeners s.seats.counts s.clock) := by
  unfold State.endListenersHold; dsimp only; rw [if_neg h]; rfl

/-- Settles O16: the two timed reports, due and not due. -/
theorem timedReports : Obligations.TimedReports := by
  constructor
  · intro s hr
    constructor
    · intro d hd hdue
      have due : s.reportDue = true := by unfold State.reportDue; rw [hd]; exact hdue
      refine ⟨_, positionReport_next hr, ?_⟩
      rw [if_pos due]
      unfold State.reportPosition
      rw [hd]
      refine ⟨report_frame_end _ _, fun hroom hq => endEvent_holds_ungranted hq (report_holds _ _ hroom)⟩
    · intro hn
      have early : ¬ s.reportDue = true := by
        unfold State.reportDue
        cases hd : s.tracker.reportTimer with
        | none => simp
        | some d => simp [hn d hd]
      refine ⟨_, positionReport_next hr, ?_⟩
      rw [if_neg early]
      exact endEvent_frame s
  · intro s hr
    constructor
    · intro d hp hd hdue
      have due : s.listenersDue = true := by
        unfold State.listenersDue
        rw [hp, hd]
        exact hdue
      refine ⟨_, listenersHoldEnd_next hr, fun hc => ?_, fun hc => ⟨?_, fun hroom => ?_⟩⟩
      · rw [if_pos due, endListenersHold_same hc]
        exact endEvent_frame _
      · rw [if_pos due, endListenersHold_changed hc]
        exact report_frame_end _ _
      · rw [if_pos due, endListenersHold_changed hc]
        exact (endEvent_frame _).reports _ rfl (report_holds _ _ hroom)
    · intro hp
      have early : ¬ s.listenersDue = true := by
        unfold State.listenersDue
        rw [hp]
        simp
      refine ⟨_, listenersHoldEnd_next hr, ?_⟩
      rw [if_neg early]
      exact endEvent_frame s

/-! ### ENTER_SERVICE and LEAVE_SERVICE (R124) -/

end Sys2Proof.Machine
end

section
/-! SUPPORT. Modes, fixes and detours (R7, R9 to R15, R33, R124). -/

namespace Sys2Proof.Machine

/-! ### What the cue table depends on -/

/-- Two states that the cue engine's rules cannot tell apart: cues, tracker, settings and mode are the same (R29 to R33). -/
structure CueAlike (s t : State) : Prop where
  cues : t.cues = s.cues
  tracker : t.tracker = s.tracker
  settings : t.settings = s.settings
  mode : t.store.mode = s.store.mode

namespace CueAlike
variable {s t u v : State}

/-- Acts on both sides that leave the same cue engine. -/
theorem acts (h : CueAlike s t) (hs : Acts s u) (ht : Acts t v) (hc : v.cues = u.cues) : CueAlike u v :=
  ⟨hc, by rw [ht.tracker, hs.tracker, h.tracker], by rw [ht.settings, hs.settings, h.settings],
    by rw [ht.store, hs.store, h.mode]⟩

theorem fireCue (h : CueAlike s t) (forced : Bool) (n : Nat) :
    CueAlike (State.fireCue forced s n) (State.fireCue forced t n) :=
  h.acts (fireCue_acts (.refl s) forced n) (fireCue_acts (.refl t) forced n) (by rw [fireCue_cues, fireCue_cues, h.cues])

theorem skipCue (h : CueAlike s t) (n : Nat) : CueAlike (s.skipCue n) (t.skipCue n) :=
  h.acts (skipCue_acts (.refl s) n) (skipCue_acts (.refl t) n) (by rw [skipCue_cues, skipCue_cues, h.cues, h.tracker])

theorem fold {f : State → Nat → State} (hf : ∀ {s t : State} n, CueAlike s t → CueAlike (f s n) (f t n)) (l : List Nat)
    (h : CueAlike s t) : CueAlike (l.foldl f s) (l.foldl f t) := by
  induction l generalizing s t with
  | nil => exact h
  | cons n l ih => exact ih (hf n h)

theorem trigger (h : CueAlike s t) (c : Cue) : t.trigger c = s.trigger c :=
  trigger_congr (by rw [h.tracker]) (by rw [h.settings]) (by rw [h.settings]) c

theorem dueCues (h : CueAlike s t) : t.dueCues = s.dueCues := by
  have due : t.cueDue = s.cueDue := by
    funext n
    unfold State.cueDue
    rw [h.cues, h.tracker]
    split
    · rfl
    · rw [h.trigger]
  have anchor : t.anchorOf = s.anchorOf := by
    funext n
    unfold State.anchorOf
    rw [h.cues]
  have insert : t.insertByAnchor = s.insertByAnchor := by
    funext n l
    induction l with
    | nil => rfl
    | cons m rest ih => unfold State.insertByAnchor; rw [anchor, ih]
  unfold State.dueCues
  rw [due, insert, h.cues]

theorem advance (h : CueAlike s t) : CueAlike s.advance t.advance := by
  unfold State.advance
  rw [h.cues, h.tracker, h.mode, h.dueCues]
  split
  · exact h.fold (fun n hn => hn.fireCue false n) _
  · exact h

theorem jumpForward (h : CueAlike s t) : CueAlike s.jumpForward t.jumpForward := by
  unfold State.jumpForward
  rw [h.cues]
  split
  · exact (h.fold (fun n hn => hn.skipCue n) _).advance
  · exact h

theorem rearm (h : CueAlike s t) : CueAlike s.rearm t.rearm := by
  have rearms : t.rearms = s.rearms := by
    funext c
    unfold State.rearms
    rw [h.tracker]
  refine h.acts (rearm_acts (.refl s)) (rearm_acts (.refl t)) ?_
  unfold State.rearm
  rw [rearms, h.cues]
  dsimp only
  split
  · exact h.cues
  · unfold State.cueReport
    rw [report_cues, report_cues, setCues_cues, setCues_cues, h.cues]

theorem jumpBackward (h : CueAlike s t) (distance : Nat) : CueAlike (s.jumpBackward distance) (t.jumpBackward distance) := by
  unfold State.jumpBackward
  rw [h.cues, h.settings]
  split
  · split
    · exact h.rearm.advance
    · exact h.advance
  · exact h

end CueAlike

/-! ### ENTER_SERVICE and LEAVE_SERVICE (R124) -/

theorem stationary_iff {s : State} : s.stationary = true ↔ s.tracker.speed < s.settings.crawlSpeed := decide_eq_true_iff

theorem enterService_next {s : State} {tag : Byte} (h : s.takes 0x30 tag) :
    exec (.enterService tag) s = .next
      (if s.store.mode = .service then (s.taken 0x30 tag).reply 0x30 tag .ok
       else if s.stationary then ((s.taken 0x30 tag).reply 0x30 tag .ok).enterService
       else (s.taken 0x30 tag).reply 0x30 tag .notStationary).endEvent := by
  have next : execEnterService tag s = .next _ := command_next h _
  exact next

theorem leaveService_next {s : State} {tag : Byte} (h : s.takes 0x31 tag) :
    exec (.leaveService tag) s = .next
      (if s.store.mode = .run then (s.taken 0x31 tag).reply 0x31 tag .ok
       else if s.store.reload.isSome then (s.taken 0x31 tag).reply 0x31 tag .busy
       else ((s.taken 0x31 tag).reply 0x31 tag .ok).enterRun).endEvent := by
  have next : execLeaveService tag s = .next _ := command_next h _
  exact next

theorem enterService_engines (s : State) : Engines { s with store := { s.store with mode := .service } } s.enterService :=
  stopCommentary_engines (.refl _)

theorem enterRun_acts (s : State) :
    Acts { s with store := { s.store with mode := .run, motionPending := false } } s.enterRun := advance_acts (.refl _)

/-- Settles O44. -/
theorem serviceEnteredAndLeft : Obligations.ServiceEnteredAndLeft := by
  constructor
  · intro tag s h
    refine ⟨_, enterService_next h, ?_⟩
    by_cases hm : s.store.mode = .service
    · have ended := command_answered (s := s) (u := s) (code := .ok) (data := .none) (kind := 0x30) (tag := tag) rfl rfl
      rw [if_pos hm]
      exact ⟨ended.1.tracker, ended.1.cues, ended.1.settings, ended.1.power, ended.1.cells, fun _ => ended,
        fun hr => absurd (hm.symm.trans hr) (by decide), fun hr => absurd (hm.symm.trans hr) (by decide)⟩
    · rw [if_neg hm]
      by_cases hs : s.tracker.speed < s.settings.crawlSpeed
      · rw [if_pos (stationary_iff.2 hs)]
        have frame := endEvent_frame ((s.taken 0x30 tag).reply 0x30 tag .ok).enterService
        have stopped := enterService_engines ((s.taken 0x30 tag).reply 0x30 tag .ok)
        have acts := Acts.ofEngines stopped
        have cells := congrArg Store.cells acts.store
        have mode := congrArg Store.mode acts.store
        exact ⟨frame.tracker.trans acts.tracker, frame.cues.trans stopped.cues, frame.settings.trans acts.settings,
          frame.power.trans acts.power, frame.cells.trans cells, fun hr => absurd hr hm,
          fun _ _ => ⟨frame.mode.trans mode, endEvent_answered (acts.replies (reply_holds (s.taken 0x30 tag) _ _ _ _))⟩,
          fun _ hc => absurd hs (Nat.not_lt.2 hc)⟩
      · rw [if_neg fun hn => hs (stationary_iff.1 hn)]
        have ended := command_answered (s := s) (u := s) (code := .notStationary) (data := .none) (kind := 0x30) (tag := tag)
          rfl rfl
        exact ⟨ended.1.tracker, ended.1.cues, ended.1.settings, ended.1.power, ended.1.cells, fun hr => absurd hr hm,
          fun _ hc => absurd hc hs, fun _ _ => ended⟩
  · intro tag s h
    refine ⟨_, leaveService_next h, ?_⟩
    by_cases hm : s.store.mode = .run
    · have ended := command_answered (s := s) (u := s) (code := .ok) (data := .none) (kind := 0x31) (tag := tag) rfl rfl
      rw [if_pos hm]
      exact ⟨ended.1.tracker, ended.1.settings, ended.1.power, ended.1.cells, fun _ => ended,
        fun hr => absurd (hm.symm.trans hr) (by decide), fun hr => absurd (hm.symm.trans hr) (by decide)⟩
    · rw [if_neg hm]
      by_cases hl : s.store.reload = none
      · rw [if_neg (by simp [hl])]
        have frame := endEvent_frame ((s.taken 0x31 tag).reply 0x31 tag .ok).enterRun
        have acts := enterRun_acts ((s.taken 0x31 tag).reply 0x31 tag .ok)
        have cells := congrArg Store.cells acts.store
        have mode := congrArg Store.mode acts.store
        have pending := congrArg Store.motionPending acts.store
        have alike : CueAlike { s with store := { s.store with mode := .run, motionPending := false } }
            { ((s.taken 0x31 tag).reply 0x31 tag .ok) with store := { s.store with mode := .run, motionPending := false } } :=
          ⟨rfl, rfl, rfl, rfl⟩
        exact ⟨frame.tracker.trans acts.tracker, frame.settings.trans acts.settings,
          frame.power.trans acts.power, frame.cells.trans cells, fun hr => absurd hr hm, fun _ hr => absurd hl hr,
          fun _ _ => ⟨frame.mode.trans mode, frame.motionPending.trans pending,
            endEvent_answered (acts.replies (reply_holds (s.taken 0x31 tag) _ _ _ _)),
            frame.cues.trans alike.advance.cues⟩⟩
      · rw [if_pos (Option.isSome_iff_ne_none.2 hl)]
        have ended := command_answered (s := s) (u := s) (code := .busy) (data := .none) (kind := 0x31) (tag := tag) rfl rfl
        exact ⟨ended.1.tracker, ended.1.settings, ended.1.power, ended.1.cells, fun hr => absurd hr hm, fun _ _ => ended,
          fun _ hr => absurd hr hl⟩

/-! ### Fixes (R9 to R13) -/

section
variable {s : State} {soft known : Bool} {chainage : Nat} {stamp : BitVec 32}

/-- The checks of R9 in their order: the route. -/
theorem fixCheck_unready (hr : s.cues.routeState ≠ .ready) : s.fixCheck soft known chainage stamp = some .wrongState := by
  unfold State.fixCheck; rw [if_pos hr]

/-- The chainage and the mode. -/
theorem fixCheck_range (hr : s.cues.routeState = .ready) (hc : 999999999 < chainage ∨ known = false) :
    s.fixCheck soft known chainage stamp = some .range := by
  unfold State.fixCheck maxChainage; rw [if_neg (not_not.2 hr), if_pos hc]

/-- The tracker's state, of a SOFT fix. -/
theorem fixCheck_unplaced (hr : s.cues.routeState = .ready) (hc : chainage ≤ 999999999) (hk : known = true)
    (hp : s.tracker.state ≠ .placed) : s.fixCheck true known chainage stamp = some .wrongState := by
  unfold State.fixCheck maxChainage
  rw [if_neg (not_not.2 hr), if_neg (by simp [hk, Nat.not_lt.2 hc]), if_pos ⟨rfl, hp⟩]

/-- The age of the fix. -/
theorem fixCheck_stale (hr : s.cues.routeState = .ready) (hc : chainage ≤ 999999999) (hk : known = true)
    (hp : soft = true → s.tracker.state = .placed) (ha : 65535 < (s.tracker.stamp - stamp).toNat) :
    s.fixCheck soft known chainage stamp = some .stale := by
  unfold State.fixCheck maxChainage State.pulsesSince
  rw [if_neg (not_not.2 hr), if_neg (by simp [hk, Nat.not_lt.2 hc]), if_neg fun h => h.2 (hp h.1), if_pos ha]

theorem fixCheck_passes (hr : s.cues.routeState = .ready) (hc : chainage ≤ 999999999) (hk : known = true)
    (hp : soft = true → s.tracker.state = .placed) (ha : (s.tracker.stamp - stamp).toNat ≤ 65535) :
    s.fixCheck soft known chainage stamp = none := by
  unfold State.fixCheck maxChainage State.pulsesSince
  rw [if_neg (not_not.2 hr), if_neg (by simp [hk, Nat.not_lt.2 hc]), if_neg fun h => h.2 (hp h.1),
    if_neg (Nat.not_lt.2 ha)]

end

section
variable {s : State} {tag : Byte} {known : Bool} {chainage : Nat} {stamp : BitVec 32}

/-- What a SOFT fix does by the outcome of its checks and by its error (R9, R11). -/
theorem fixSoft_spec (h : s.takes 0x10 tag) :
    ∃ t, exec (.fixSoft tag known chainage stamp) s = .next t ∧
      (∀ code, s.fixCheck true known chainage stamp = some code → s.onlyReplies t ∧ s.answered t 0x10 tag code) ∧
      (s.fixCheck true known chainage stamp = none →
        ((s.fixError chainage stamp).natAbs ≤ s.settings.slewLimit →
          s.onlyRepliesBut { s with tracker := { s.tracker with correction := s.fixError chainage stamp * 1000 } } t ∧
          s.answered t 0x10 tag .ok (.fix (s.projected chainage stamp) (s.fixError chainage stamp))) ∧
        (s.settings.slewLimit < (s.fixError chainage stamp).natAbs →
          s.onlyReplies t ∧ s.answered t 0x10 tag .outOfWindow)) := by
  refine ⟨_, query_next (kind := 0x10) h _, fun code hc => ?_, fun hc => ⟨fun he => ?_, fun he => ?_⟩⟩
  · rw [show (s.taken 0x10 tag).fixCheck true known chainage stamp = some code from hc]
    exact query_answered (u := s) rfl
  · rw [show (s.taken 0x10 tag).fixCheck true known chainage stamp = none from hc]
    dsimp only
    rw [if_pos (show ((s.taken 0x10 tag).fixError chainage stamp).natAbs ≤ (s.taken 0x10 tag).settings.slewLimit from he)]
    exact query_answered rfl
  · rw [show (s.taken 0x10 tag).fixCheck true known chainage stamp = none from hc]
    dsimp only
    rw [if_neg (show ¬ ((s.taken 0x10 tag).fixError chainage stamp).natAbs ≤ (s.taken 0x10 tag).settings.slewLimit from
      Nat.not_le.2 he)]
    exact query_answered (u := s) rfl

/-- What a HARD fix does by the outcome of its checks (R9, R12). -/
theorem fixHard_spec (h : s.takes 0x10 tag) :
    ∃ t, exec (.fixHard tag chainage stamp) s = .next t ∧
      (∀ code, s.fixCheck false true chainage stamp = some code → EventFrame s t ∧ s.answered t 0x10 tag code) ∧
      (s.fixCheck false true chainage stamp = none →
        t = (State.hardFix
          ((s.taken 0x10 tag).reply 0x10 tag .ok (.fix (s.projected chainage stamp) (s.fixError chainage stamp)))
          (s.projected chainage stamp)).endEvent) := by
  refine ⟨_, command_next (kind := 0x10) h _, fun code hc => ?_, fun hc => ?_⟩
  · rw [show (s.taken 0x10 tag).fixCheck false true chainage stamp = some code from hc]
    exact command_answered (u := s) rfl rfl
  · rw [show (s.taken 0x10 tag).fixCheck false true chainage stamp = none from hc]
    rfl

end

/-- The tracker that a HARD fix places (R12). -/
def Tracker.placedAt (tr : Tracker) (projected : Nat) : Tracker :=
  { tr with state := .placed, chainage := projected, residue := 0, correction := 0 }

theorem hardFix_acts (s : State) (projected : Nat) :
    Acts { s with tracker := s.tracker.placedAt projected } (s.hardFix projected) := by
  unfold State.hardFix
  dsimp only
  split
  · exact jumpBackward_acts (.refl _) _
  · exact jumpForward_acts (.refl _)

/-- From UNPLACED, or to the same chainage or above, a HARD fix runs the jump rule (R13). -/
theorem hardFix_forward {s : State} {projected : Nat} (h : s.tracker.state = .unplaced ∨ s.tracker.chainage ≤ projected) :
    s.hardFix projected = { s with tracker := s.tracker.placedAt projected }.jumpForward := by
  unfold State.hardFix
  dsimp only
  rw [if_neg fun hb => h.elim hb.1 (Nat.not_le.2 hb.2)]
  rfl

/-- Otherwise it runs the backward jump rule over the distance (R13). -/
theorem hardFix_backward {s : State} {projected : Nat} (h : s.tracker.state ≠ .unplaced)
    (hc : projected < s.tracker.chainage) :
    s.hardFix projected =
      { s with tracker := s.tracker.placedAt projected }.jumpBackward (s.tracker.chainage - projected) := by
  unfold State.hardFix
  dsimp only
  rw [if_pos ⟨h, hc⟩]
  rfl

/-- What a HARD fix does to the cues, of a state that the rules cannot tell from `s` (R13). -/
theorem hardFix_cues {s u : State} (h : CueAlike s u) (projected : Nat) :
    (s.tracker.state = .unplaced ∨ s.tracker.chainage ≤ projected →
      (u.hardFix projected).cues = ({ s with tracker := s.tracker.placedAt projected }.jumpForward).cues) ∧
    (s.tracker.state ≠ .unplaced → projected < s.tracker.chainage →
      (u.hardFix projected).cues =
        ({ s with tracker := s.tracker.placedAt projected }.jumpBackward (s.tracker.chainage - projected)).cues) := by
  have placed : CueAlike { s with tracker := s.tracker.placedAt projected }
      { u with tracker := u.tracker.placedAt projected } := ⟨h.cues, by rw [h.tracker], h.settings, h.mode⟩
  constructor
  · intro hf
    rw [← h.tracker] at hf
    rw [hardFix_forward hf]
    exact placed.jumpForward.cues
  · intro hu hb
    have distance : u.tracker.chainage - projected = s.tracker.chainage - projected := by rw [h.tracker]
    rw [← h.tracker] at hu hb
    rw [hardFix_backward hu hb, distance]
    exact (placed.jumpBackward _).cues

/-- Settles O17. -/
theorem fixTaken : Obligations.FixTaken := by
  constructor
  · intro tag chainage stamp s h hr hc hp ha
    obtain ⟨t, he, -, taken⟩ := fixSoft_spec (known := true) (chainage := chainage) (stamp := stamp) h
    exact ⟨t, he, taken (fixCheck_passes hr hc rfl (fun _ => hp) ha)⟩
  · intro tag chainage stamp s h hr hc ha
    obtain ⟨t, he, -, taken⟩ := fixHard_spec (chainage := chainage) (stamp := stamp) h
    have ht := taken (fixCheck_passes hr hc rfl (fun hs => by cases hs) ha)
    have acts := hardFix_acts
      ((s.taken 0x10 tag).reply 0x10 tag .ok (.fix (s.projected chainage stamp) (s.fixError chainage stamp)))
      (s.projected chainage stamp)
    have cells := congrArg Store.cells acts.store
    have alike : CueAlike s
        ((s.taken 0x10 tag).reply 0x10 tag .ok (.fix (s.projected chainage stamp) (s.fixError chainage stamp))) :=
      ⟨rfl, rfl, rfl, rfl⟩
    obtain ⟨forward, backward⟩ := hardFix_cues alike (s.projected chainage stamp)
    have frame := endEvent_frame (State.hardFix
      ((s.taken 0x10 tag).reply 0x10 tag .ok (.fix (s.projected chainage stamp) (s.fixError chainage stamp)))
      (s.projected chainage stamp))
    rw [← ht] at frame
    refine ⟨t, he, frame.tracker.trans acts.tracker, ?_, fun hf => frame.cues.trans (forward hf),
      fun hu hb => frame.cues.trans (backward hu hb), frame.cells.trans cells,
      frame.settings.trans acts.settings, frame.power.trans acts.power, frame.clock.trans acts.clock⟩
    rw [ht]
    exact endEvent_answered (acts.replies (reply_holds (s.taken 0x10 tag) _ _ _ _))

/-! ### Detours (R14, R15) -/

theorem detourBegin_spec {s : State} {tag : Byte} (h : s.takes 0x11 tag) :
    ∃ t, exec (.detourBegin tag) s = .next t ∧
      (s.tracker.state = .placed →
        s.onlyRepliesBut
          { s with tracker := { s.tracker with state := .detour, detour := 0, detourResidue := 0, correction := 0 } } t ∧
        s.answered t 0x11 tag .ok) ∧
      (s.tracker.state ≠ .placed → s.onlyReplies t ∧ s.answered t 0x11 tag .wrongState) := by
  refine ⟨_, query_next (kind := 0x11) h _, fun hp => ?_, fun hp => ?_⟩
  · rw [if_pos (show (s.taken 0x11 tag).tracker.state = .placed from hp)]
    exact query_answered rfl
  · rw [if_neg (show ¬ (s.taken 0x11 tag).tracker.state = .placed from hp)]
    exact query_answered (u := s) rfl

theorem detourEnd_spec {s : State} {tag : Byte} (h : s.takes 0x12 tag) :
    ∃ t, exec (.detourEnd tag) s = .next t ∧
      (s.tracker.state = .detour →
        t = (({ s.taken 0x12 tag with tracker := { s.tracker with state := .placed } }).reply 0x12 tag .ok
          (.detour s.tracker.detour)).advance.endEvent) ∧
      (s.tracker.state ≠ .detour → EventFrame s t ∧ s.answered t 0x12 tag .wrongState) := by
  refine ⟨_, command_next (kind := 0x12) h _, fun hd => ?_, fun hd => ?_⟩
  · rw [if_pos (show (s.taken 0x12 tag).tracker.state = .detour from hd)]
    rfl
  · rw [if_neg (show ¬ (s.taken 0x12 tag).tracker.state = .detour from hd)]
    exact command_answered (u := s) rfl rfl

/-- Settles O18: the refusals by the checks in their order, the detours by their two specifications. -/
theorem fixRefusalsAndDetours : Obligations.FixRefusalsAndDetours := by
  refine ⟨fun tag known chainage stamp s h => ⟨?_, ?_⟩, fun tag s h => detourBegin_spec h, fun tag s h => ?_⟩
  · obtain ⟨t, he, refused, -⟩ := fixSoft_spec (known := known) (chainage := chainage) (stamp := stamp) h
    exact ⟨t, he, fun hr => refused _ (fixCheck_unready hr), fun hr hc => refused _ (fixCheck_range hr hc),
      fun hr hc hk hp => refused _ (fixCheck_unplaced hr hc hk hp),
      fun hr hc hk hp ha => refused _ (fixCheck_stale hr hc hk (fun _ => hp) ha)⟩
  · obtain ⟨t, he, refused, -⟩ := fixHard_spec (chainage := chainage) (stamp := stamp) h
    exact ⟨t, he, fun hr => refused _ (fixCheck_unready hr), fun hr hc => refused _ (fixCheck_range hr (.inl hc)),
      fun hr hc ha => refused _ (fixCheck_stale hr hc rfl (fun hs => by cases hs) ha)⟩
  · obtain ⟨t, he, ended, refused⟩ := detourEnd_spec h
    refine ⟨t, he, fun hd => ?_, refused⟩
    have acts := advance_acts (.refl (({ s.taken 0x12 tag with tracker := { s.tracker with state := .placed } }).reply 0x12 tag
      .ok (.detour s.tracker.detour)))
    have cells := congrArg Store.cells acts.store
    have alike : CueAlike { s with tracker := { s.tracker with state := .placed } }
        (({ s.taken 0x12 tag with tracker := { s.tracker with state := .placed } }).reply 0x12 tag .ok
          (.detour s.tracker.detour)) := ⟨rfl, rfl, rfl, rfl⟩
    have frame := endEvent_frame (({ s.taken 0x12 tag with tracker := { s.tracker with state := .placed } }).reply 0x12 tag .ok
      (.detour s.tracker.detour)).advance
    rw [← ended hd] at frame
    refine ⟨frame.tracker.trans acts.tracker, frame.cues.trans alike.advance.cues, ?_, frame.cells.trans cells,
      frame.settings.trans acts.settings, frame.power.trans acts.power, frame.clock.trans acts.clock⟩
    rw [ended hd]
    exact endEvent_answered (acts.replies (reply_holds { s.taken 0x12 tag with tracker := { s.tracker with state := .placed } }
      _ _ _ _))

end Sys2Proof.Machine
end

section
/-! SUPPORT. The reading requests (R18, R38, R55, R77, R102, R114, R139, R165, R176, R179). -/

namespace Sys2Proof.Machine

/-- A reading request: it changes nothing but the link, and its reply is `code` with `data`. -/
def State.reads (s : State) (c : Instr) (kind : Nat) (tag : Byte) (code : ResultCode) (data : ReplyData := .none) : Prop :=
  ∃ t, exec c s = .next t ∧ s.onlyReplies t ∧ s.answered t kind tag code data

/-- A request answered by its owner with nothing but a reply reads. -/
theorem reads_of_query {s : State} {c : Instr} {kind : Nat} {tag : Byte} {code : ResultCode} {data : ReplyData}
    {act : State → State} (h : s.takes kind tag) (hc : exec c s = s.query kind tag act)
    (ha : act (s.taken kind tag) = (s.taken kind tag).reply kind tag code data) : s.reads c kind tag code data :=
  ⟨_, hc.trans (query_next h act), query_answered (u := s) (by rw [ha]; rfl)⟩

section
variable {s : State} {tag : Byte}

theorem getPosition_reads (h : s.takes 0x13 tag) : s.reads (.getPosition tag) 0x13 tag .ok (.position s.positionView) :=
  reads_of_query h rfl rfl

/-! ### GET_CUES (R38) -/

theorem getCues_refused_unready (h : s.takes 0x15 tag) (first last : Nat) (hr : s.cues.routeState ≠ .ready) :
    s.reads (.getCues tag first last) 0x15 tag .wrongState :=
  reads_of_query h rfl (if_pos hr)

theorem getCues_refused_range (h : s.takes 0x15 tag) {first last : Nat} (hr : s.cues.routeState = .ready)
    (hl : last < first ∨ s.cues.cues.length ≤ last ∨ first + 32 ≤ last) :
    s.reads (.getCues tag first last) 0x15 tag .range := by
  have range : last < first ∨ s.cues.cues.length ≤ last ∨ 32 < last + 1 - first := by omega
  exact reads_of_query h rfl ((if_neg (not_not.2 hr)).trans (if_pos range))

theorem getCues_reads (h : s.takes 0x15 tag) {first last : Nat} (hr : s.cues.routeState = .ready) (h1 : first ≤ last)
    (h2 : last < s.cues.cues.length) (h3 : last - first < 32) :
    s.reads (.getCues tag first last) 0x15 tag .ok
      (.cues s.cues.routeNumber s.cues.mask s.cues.cues.length s.cues.clipSets.length s.cues.scenes.length
        (s.cueViews first last)) := by
  have range : ¬ (last < first ∨ s.cues.cues.length ≤ last ∨ 32 < last + 1 - first) := by omega
  exact reads_of_query h rfl ((if_neg (not_not.2 hr)).trans (if_neg range))

/-! ### The views of a block -/

theorem getStreams_reads (h : s.takes 0x1B tag) : s.reads (.getStreams tag) 0x1B tag .ok s.streamsView :=
  reads_of_query h rfl rfl

theorem getAnnouncements_reads (h : s.takes 0x22 tag) : s.reads (.getAnnouncements tag) 0x22 tag .ok s.ann.view :=
  reads_of_query h rfl rfl

theorem getLights_reads (h : s.takes 0x2C tag) : s.reads (.getLights tag) 0x2C tag .ok s.lightsView :=
  reads_of_query h rfl rfl

theorem getSeats_refused (h : s.takes 0x1A tag) {first last : Nat} (hl : last < first ∨ 63 < last) :
    s.reads (.getSeats tag first last) 0x1A tag .range :=
  reads_of_query h rfl (if_pos hl)

theorem getSeats_reads (h : s.takes 0x1A tag) {first last : Nat} (hl : ¬ (last < first ∨ 63 < last)) :
    s.reads (.getSeats tag first last) 0x1A tag .ok
      (.seats (((List.finRange 64).filter fun i => decide (first ≤ i.val ∧ i.val ≤ last)).map s.seats.view)
        s.seats.enabled s.seats.counts) :=
  reads_of_query h rfl (if_neg hl)

theorem getStoreState_reads (h : s.takes 0x39 tag) {first last : Nat} (h1 : first ≤ last) (h2 : last ≤ 2047)
    (h3 : last - first < 256) :
    s.reads (.getStoreState tag first last) 0x39 tag .ok (.storeState (s.storeView first last)) := by
  have range : ¬ (last < first ∨ lastSector < last ∨ 256 < last + 1 - first) := by unfold lastSector; omega
  exact reads_of_query h rfl (if_neg range)

theorem getStoreState_refused (h : s.takes 0x39 tag) {first last : Nat} (hl : last < first ∨ 2047 < last ∨ first + 256 ≤ last) :
    s.reads (.getStoreState tag first last) 0x39 tag .range := by
  have range : last < first ∨ lastSector < last ∨ 256 < last + 1 - first := by unfold lastSector; omega
  exact reads_of_query h rfl (if_pos range)

/-! ### GET_SETTING (R179) -/

/-- The known identifiers are 1 to 29 (Table 12-9). -/
theorem settingWidth_isNone (id : Nat) : (settingWidth id).isNone = true ↔ id = 0 ∨ 29 < id := by
  by_cases h : id < 30
  · interval_cases id <;> simp [settingWidth]
  · have unknown : settingWidth id = none := by
      unfold settingWidth
      simp only [List.mem_cons, List.not_mem_nil, or_false]
      repeat' rw [if_neg (by omega)]
    simp only [unknown, Option.isNone_none, true_iff]
    omega

theorem getSetting_reads (h : s.takes 0x04 tag) {id : Nat} (h1 : 1 ≤ id) (h2 : id ≤ 29) :
    s.reads (.getSetting tag id) 0x04 tag .ok
      (.setting (BitVec.ofNat 8 id) (s.settings.read id) (if 25 ≤ id then some (s.inForce.asSettings.read id) else none)) := by
  have known : ¬ (settingWidth id).isNone = true := fun hn => by have := (settingWidth_isNone id).1 hn; omega
  have startUp : startUpOnly id = decide (25 ≤ id) := by unfold startUpOnly; simp [h2]
  refine reads_of_query h rfl ((if_neg known).trans ?_)
  rw [startUp]
  simp only [decide_eq_true_eq]
  rfl

theorem getSetting_refused (h : s.takes 0x04 tag) {id : Nat} (hid : id = 0 ∨ 29 < id) :
    s.reads (.getSetting tag id) 0x04 tag .notFound :=
  reads_of_query h rfl (if_pos ((settingWidth_isNone id).2 hid))

/-! ### GET_STATUS and the clearing requests (R114, R176, R177) -/

/-- Taking a request does not show in GET_STATUS (R176). -/
theorem taken_statusView (s : State) (kind : Nat) (tag : Byte) : (s.taken kind tag).statusView = s.statusView := by
  unfold State.statusView State.taken
  dsimp only
  rw [takeFirst_length]

theorem getStatus_reads (h : s.takes 0x01 tag) : s.reads (.getStatus tag false) 0x01 tag .ok (.status s.statusView) :=
  reads_of_query h rfl (by rw [← taken_statusView s 0x01 tag]; rfl)

theorem getStatus_clears (h : s.takes 0x01 tag) :
    ∃ t, exec (.getStatus tag true) s = .next t ∧ t = { s with link := t.link } ∧ t.link.counters = {} ∧
      s.answered t 0x01 tag .ok (.status s.statusView) := by
  refine ⟨_, query_next (kind := 0x01) h _, rfl, kick_counters _, kick_holdsReply (.inl ?_)⟩
  rw [← taken_statusView s 0x01 tag]
  exact List.mem_append_right _ (List.mem_singleton_self _)

theorem clearStoreFaults_clears (h : s.takes 0x3A tag) :
    ∃ t, exec (.clearStoreFaults tag) s = .next t ∧ s.answered t 0x3A tag .ok ∧
      s.onlyRepliesBut { s with voices := { s.voices with integrity := 0, firstFault := none } } t :=
  ⟨_, query_next (kind := 0x3A) h _, (query_answered rfl).symm⟩

end

/-- Settles O20: request by request. -/
theorem readingRequests : Obligations.ReadingRequests := by
  refine ⟨⟨⟨fun tag s h => getPosition_reads h, fun tag first last s h hr h1 h2 h3 => getCues_reads h hr h1 h2 h3,
    fun tag first last s h => ?_, fun tag s h => getStreams_reads h, fun tag s h => getAnnouncements_reads h,
    fun tag first last s h h1 h2 h3 => getStoreState_reads h h1 h2 h3, fun tag first last s h hl => getStoreState_refused h hl,
    fun tag s h => getLights_reads h, fun tag id s h h1 h2 => getSetting_reads h h1 h2,
    fun tag id s h hid => getSetting_refused h hid, fun tag s h => getStatus_reads h⟩, fun tag s h => getStatus_clears h⟩,
    fun tag first last s h => ?_, fun tag s h => clearStoreFaults_clears h⟩
  · by_cases hr : s.cues.routeState = .ready
    · by_cases hl : last < first ∨ s.cues.cues.length ≤ last ∨ first + 32 ≤ last
      · obtain ⟨t, he, ho, ha⟩ := getCues_refused_range h hr hl
        exact ⟨t, he, ho, fun hn => absurd hr hn, fun _ _ => ha⟩
      · obtain ⟨t, he, ho, -⟩ := getCues_reads h (first := first) (last := last) hr (by omega) (by omega) (by omega)
        exact ⟨t, he, ho, fun hn => absurd hr hn, fun _ hn => absurd hn hl⟩
    · obtain ⟨t, he, ho, ha⟩ := getCues_refused_unready h first last hr
      exact ⟨t, he, ho, fun _ => ha, fun hn => absurd hn hr⟩
  · by_cases hl : last < first ∨ 63 < last
    · obtain ⟨t, he, ho, ha⟩ := getSeats_refused h hl
      exact ⟨t, he, ho, fun _ => ha, fun h1 h2 => by omega⟩
    · obtain ⟨t, he, ho, ha⟩ := getSeats_reads h hl
      exact ⟨t, he, ho, fun hr => absurd hr hl, fun _ _ => ha⟩

end Sys2Proof.Machine
end

section
/-! SUPPORT. Commentary does not touch the announcement engine, and what the end of an event can do to waiting entries and to
commentary that is silent. -/

namespace Sys2Proof.Machine

section
variable (s : State)

/-! ### What commentary leaves of the announcement engine -/

@[simp] theorem settleEngine_ann : s.settleEngine.ann = s.ann := by
  unfold State.settleEngine
  split <;> rfl

@[simp] theorem askVoice_ann (r : Requester) : (s.askVoice r).ann = s.ann := by
  unfold State.askVoice
  split <;> rfl

@[simp] theorem askVoice_comm (r : Requester) : (s.askVoice r).comm = s.comm := by
  unfold State.askVoice
  split <;> rfl

@[simp] theorem commReport_ann (e : CommentaryEvent) (cue : Nat) : (s.commReport e cue).ann = s.ann := rfl

@[simp] theorem beginFiring_ann (firing : Nat) : (s.beginFiring firing).ann = s.ann := by
  unfold State.beginFiring
  split
  · rfl
  · split <;> rfl

@[simp] theorem loseSegment_ann (firing : Nat) : (s.loseSegment firing).ann = s.ann := by
  unfold State.loseSegment
  split
  · rfl
  · split
    · dsimp only
      split <;> rfl
    · rfl

@[simp] theorem dropSegment_ann (told : List Nat) (cause : DropCause) (g : Segment) :
    (s.dropSegment told cause g).1.ann = s.ann := by
  unfold State.dropSegment
  split <;> simp

/-- A fold of steps that leave the announcement engine leaves it. -/
theorem foldl_ann {α : Type} {f : State → α → State} (hf : ∀ t a, (f t a).ann = t.ann) (l : List α) :
    (l.foldl f s).ann = s.ann := by
  induction l generalizing s with
  | nil => rfl
  | cons a l ih => exact (ih _).trans (hf s a)

theorem foldl_pair_ann {α β : Type} {f : State × β → α → State × β} (hf : ∀ p a, (f p a).1.ann = p.1.ann) (l : List α)
    (p : State × β) : (l.foldl f p).1.ann = p.1.ann := by
  induction l generalizing p with
  | nil => rfl
  | cons a l ih => exact (ih _).trans (hf p a)

@[simp] theorem dropSegments_ann (cause : DropCause) (segments : List Segment) :
    (s.dropSegments cause segments).ann = s.ann :=
  (foldl_ann _ (fun t _ => loseSegment_ann t _) _).trans (foldl_ann _ (fun t _ => commReport_ann t _ _) _)

@[simp] theorem endDelay_ann (i : Fin 12) : (s.endDelay i).ann = s.ann := by
  unfold State.endDelay
  split
  · rfl
  · dsimp only
    split <;> simp

@[simp] theorem makeCurrent_ann (i : Fin 12) (g : Segment) : (s.makeCurrent i g).ann = s.ann := by
  unfold State.makeCurrent
  dsimp only
  split <;> simp

@[simp] theorem finishSegment_ann (i : Fin 12) : (s.finishSegment i).ann = s.ann := by
  unfold State.finishSegment
  split
  · rfl
  · dsimp only
    split <;> simp

@[simp] theorem gainDemand_ann (i : Fin 12) : (s.gainDemand i).ann = s.ann := by
  unfold State.gainDemand
  split
  · split <;> simp
  · rfl

@[simp] theorem letGo_ann (i : Fin 12) : (s.letGo i).ann = s.ann := by
  unfold State.letGo
  dsimp only
  split <;> rfl

@[simp] theorem loseDemand_ann (i : Fin 12) : (s.loseDemand i).ann = s.ann := by
  unfold State.loseDemand
  split <;> simp

@[simp] theorem deriveDemandOf_ann (i : Fin 12) : (s.deriveDemandOf i).ann = s.ann := by
  unfold State.deriveDemandOf
  dsimp only
  split
  · rfl
  · split <;> simp

@[simp] theorem deriveDemand_ann : s.deriveDemand.ann = s.ann := foldl_ann s deriveDemandOf_ann _

@[simp] theorem clearStream_ann (i : Fin 12) (state : StreamState) : (s.clearStream i state).ann = s.ann := by
  simp [State.clearStream]

@[simp] theorem enableStream_ann (i : Fin 12) : (s.enableStream i).ann = s.ann := by
  unfold State.enableStream
  split
  · split <;> rfl
  · simp

@[simp] theorem applyEnabled_ann : s.applyEnabled.ann = s.ann := by
  unfold State.applyEnabled
  rw [settleEngine_ann, dropSegments_ann]
  exact foldl_ann s enableStream_ann _

/-- A start of a voice touches neither the announcement engine nor commentary. -/
theorem startVoice_blocks (v : Fin 16) (o : Owner) (cls : AnnClass) (clip page : Nat) :
    (s.startVoice v o cls clip page).1.ann = s.ann ∧ (s.startVoice v o cls clip page).1.comm = s.comm := by
  obtain ⟨m, hm⟩ := startVoice_beside s v o cls clip page s.ann s.comm s.lights s.link s.mixer s.cues
  rw [show s.beside s.ann s.comm s.lights s.link s.mixer s.cues = s from rfl] at hm
  rw [hm]
  exact ⟨rfl, rfl⟩

/-- Nor does the forming of a fan-out. -/
theorem fanOut_blocks (e : Entry) : (s.fanOut e).1.ann = s.ann ∧ (s.fanOut e).1.comm = s.comm := by
  obtain ⟨m, hm⟩ := fanOut_beside s e e rfl s.ann s.comm s.lights s.link s.mixer s.cues
  rw [show s.beside s.ann s.comm s.lights s.link s.mixer s.cues = s from rfl] at hm
  rw [hm]
  exact ⟨rfl, rfl⟩

@[simp] theorem grantStream_ann (i : Fin 12) (v : Fin 16) : (s.grantStream i v).ann = s.ann := by
  unfold State.grantStream
  split
  · rfl
  · next g _ =>
    split
    · have hs := (startVoice_blocks s v (.stream i) .notice g.clip (g.pageAt s.clock)).1
      revert hs
      generalize s.startVoice v (.stream i) .notice g.clip (g.pageAt s.clock) = p
      intro hs
      obtain ⟨a, o⟩ := p
      cases o <;> simpa using hs
    · simp

theorem placeSegment_ann (p : State × List Nat) (q : Fin 12 × Segment) : (State.placeSegment p q).1.ann = p.1.ann := by
  unfold State.placeSegment
  dsimp only
  split
  · simp
  · split <;> simp

@[simp] theorem place_ann (cue mark : Nat) (fit : Option Nat) (set : ClipSet) : (s.place cue mark fit set).ann = s.ann := by
  unfold State.place
  dsimp only
  split
  · rfl
  · rw [settleEngine_ann, foldl_pair_ann placeSegment_ann]

theorem suspendStream_ann (p : State × List SuspendEntry) (i : Fin 12) : (State.suspendStream p i).1.ann = p.1.ann := by
  obtain ⟨t, entries⟩ := p
  unfold State.suspendStream
  dsimp only
  split
  · rfl
  · have h := letGo_ann t i
    split <;> split
    all_goals first | exact h | exact (loseSegment_ann _ _).trans h

@[simp] theorem suspend_ann : s.suspend.ann = s.ann := by
  unfold State.suspend
  split
  · rfl
  · have hp := foldl_pair_ann suspendStream_ann allSlots (s, [])
    revert hp
    generalize allSlots.foldl State.suspendStream (s, []) = p
    exact id

theorem restartEntry_ann (p : State × List Nat) (e : SuspendEntry) : (State.restartEntry p e).1.ann = p.1.ann := by
  unfold State.restartEntry
  dsimp only
  split
  · split <;> simp
  · exact foldl_pair_ann (fun q g => dropSegment_ann q.1 _ _ _) _ _

@[simp] theorem placePending_ann : s.placePending.ann = s.ann := by
  unfold State.placePending
  split <;> simp

@[simp] theorem resume_ann : s.resume.ann = s.ann := by
  unfold State.resume
  split
  · rfl
  · dsimp only
    split
    · simp
    · split
      · simp
      · rw [settleEngine_ann, foldl_pair_ann restartEntry_ann]

@[simp] theorem deriveNeed_ann : s.deriveNeed.ann = s.ann := by
  unfold State.deriveNeed
  split <;> simp

@[simp] theorem setQuiet_ann (quiet : Bool) : (s.setQuiet quiet).ann = s.ann := deriveNeed_ann _

@[simp] theorem tellListeners_ann : s.tellListeners.ann = s.ann := by
  obtain ⟨_, _, _, _, h⟩ := tellListeners_eq s
  rw [h]

@[simp] theorem refreshEnabled_ann : s.refreshEnabled.ann = s.ann := by
  unfold State.refreshEnabled
  dsimp only
  split
  · rfl
  · split <;> simp

end

end Sys2Proof.Machine
end

section
/-! SUPPORT. The end of an event: what every grant keeps. Two uses follow: no new entry waits, and commentary that is silent
stays silent. -/

namespace Sys2Proof.Machine

/-- The entries that wait: the queue and the resume stack. -/
def State.waiting (s : State) : List Entry := s.ann.queue ++ s.ann.stack

/-- A property of commentary and of the waiting entries that the grants of an event keep: it survives when fewer entries wait,
and what commentary does at a grant. -/
structure Granting (P : State → Prop) : Prop where
  leaf : ∀ {s t : State}, P s → t.comm = s.comm → (∀ e ∈ t.waiting, e ∈ s.waiting) → P t
  suspend : ∀ {s : State}, P s → P s.suspend
  resume : ∀ {s : State}, P s → P s.resume
  grant : ∀ {s : State}, P s → ∀ i v, P (s.grantStream i v)

namespace Granting
variable {P : State → Prop} {s t : State}

theorem same (hP : Granting P) (h : P s) (hc : t.comm = s.comm) (ha : t.ann = s.ann) : P t :=
  hP.leaf h hc fun e he => by rwa [State.waiting, ha] at he

theorem startVoice (hP : Granting P) (h : P s) (v : Fin 16) (o : Owner) (cls : AnnClass) (clip page : Nat) :
    P (s.startVoice v o cls clip page).1 :=
  hP.same h (startVoice_blocks s v o cls clip page).2 (startVoice_blocks s v o cls clip page).1

theorem setActive (hP : Granting P) (h : P s) (f : Entry → Entry) : P (s.setActive f) := hP.leaf h rfl fun _ he => he

theorem handMap (hP : Granting P) (h : P s) : P s.handMap := by
  unfold State.handMap
  split
  · exact h
  · split
    · exact h
    · exact hP.same h rfl rfl

theorem releaseActive (hP : Granting P) (h : P s) : P s.releaseActive := by
  unfold State.releaseActive
  split
  · exact h
  · next e _ =>
    generalize e.voices ++ e.chimeVoice.toList = voices
    have hw : P (s.withdraw .announcement) := hP.same h rfl rfl
    revert hw
    generalize s.withdraw .announcement = u
    intro hw
    induction voices generalizing u with
    | nil => exact hw
    | cons v voices ih => exact ih (u.release v) (hP.same hw rfl rfl)

theorem leaveActive (hP : Granting P) (h : P s) : P s.leaveActive := by
  unfold State.leaveActive
  dsimp only
  split <;> exact hP.leaf h rfl fun _ he => he

theorem endActive (hP : Granting P) (h : P s) (o : AnnOutcome) : P (s.endActive o) := by
  unfold State.endActive
  split
  · exact h
  · exact hP.same (hP.leaveActive (hP.releaseActive h)) rfl rfl

theorem playActive (hP : Granting P) (h : P s) : P s.playActive := by
  unfold State.playActive
  split
  · exact h
  · next e _ =>
    have hs : P (s.fanOut e).1 := hP.same h (fanOut_blocks s e).2 (fanOut_blocks s e).1
    revert hs
    generalize s.fanOut e = p
    intro hs
    obtain ⟨a, f⟩ := p
    dsimp only
    have h2 : ∀ g : Entry → Entry, P (a.setActive g).handMap := fun g => hP.handMap (hP.setActive hs g)
    have h3 : ∀ (g : Entry → Entry) (event : AnnEvent), P ((a.setActive g).handMap.annReport event e) :=
      fun g event => hP.same (h2 g) rfl rfl
    split <;> split
    · exact hP.endActive (h2 _) _
    · exact hP.endActive (h3 _ _) _
    · exact h2 _
    · exact h3 _ _

theorem soundNotice (hP : Granting P) (h : P s) (e : Entry) : P (s.soundNotice e) := by
  unfold State.soundNotice
  split
  · exact hP.same h rfl rfl
  · exact h

theorem annReport (hP : Granting P) (h : P s) (event : AnnEvent) (e : Entry) : P (s.annReport event e) := hP.same h rfl rfl

theorem startActive (hP : Granting P) (h : P s) : P s.startActive := by
  unfold State.startActive
  split
  · exact h
  · next e _ =>
    have hn := hP.soundNotice h e
    dsimp only
    split
    · exact hP.annReport (hP.setActive hn _) _ _
    · split
      · next v _ =>
        have hs := hP.startVoice hn v (.chime e.ticket) e.cls ((s.soundNotice e).settings.chime e.cls) 0
        revert hs
        generalize (s.soundNotice e).startVoice v (.chime e.ticket) e.cls ((s.soundNotice e).settings.chime e.cls) 0 = p
        intro hs
        obtain ⟨a, o⟩ := p
        cases o
        · exact hP.annReport (hP.setActive hs _) _ _
        · exact hP.playActive (hP.annReport hs _ _)
        · exact hP.playActive (hP.annReport hs _ _)
      · exact hP.playActive (hP.annReport hn _ _)

theorem handClass (hP : Granting P) (h : P s) : P s.handClass := hP.same h rfl rfl

theorem activate (hP : Granting P) (h : P s) (e : Entry) : P (s.activate e) := by
  unfold State.activate
  have h1 : P (s.setAnn fun a => { a with active := some { e with phase := .queued } }).handClass :=
    hP.handClass (hP.leaf h rfl fun _ he => he)
  dsimp only
  split
  · split
    · exact hP.startActive (hP.resume h1)
    · exact hP.same (hP.resume h1) (askVoice_comm _ _) (askVoice_ann _ _)
  · split
    · exact hP.startActive (hP.suspend h1)
    · exact hP.suspend h1

/-- Taking the candidate takes it from its place and puts nothing there. -/
theorem takeCandidate_waiting {a b : Announcements} {e : Entry} (h : a.takeCandidate = some (e, b)) :
    ∀ x ∈ b.queue ++ b.stack, x ∈ a.queue ++ a.stack := by
  unfold Announcements.takeCandidate at h
  intro x hx
  split at h
  · cases h
  · next hs hq => cases h; simp_all
  · next hs hq => cases h; simp_all
  · next hs hq =>
    split at h <;> cases h
    · simp only [hs, hq, List.mem_append, List.mem_cons] at hx ⊢; tauto
    · simp only [hs, hq, List.mem_append, List.mem_cons] at hx ⊢; tauto

theorem selectRounds (hP : Granting P) (n : Nat) (h : P s) : P (State.selectRounds n s) := by
  induction n generalizing s with
  | zero => exact h
  | succ n ih =>
    unfold State.selectRounds
    split
    · exact h
    · split
      · exact hP.resume (hP.handClass h)
      · next e a hc =>
        have h1 : P (s.setAnn fun _ => a) := hP.leaf h rfl (takeCandidate_waiting hc)
        dsimp only
        split
        · exact ih (hP.annReport h1 _ _)
        · exact ih (hP.activate h1 _)

theorem startSelect (hP : Granting P) (h : P s) : P s.startActive.select := hP.selectRounds _ (hP.startActive h)

theorem tellFree (hP : Granting P) (h : P s) : P s.tellFree := by
  unfold State.tellFree
  split
  · exact h
  · split
    · exact hP.startSelect h
    · exact h

theorem grantNotice (hP : Granting P) (h : P s) : P s.grantNotice := by
  unfold State.grantNotice
  split
  · exact h
  · split
    · exact hP.startSelect h
    · exact h

theorem grants (hP : Granting P) (n : Nat) (h : P s) : P (State.grants n s) := by
  induction n generalizing s with
  | zero => exact h
  | succ n ih =>
    have hw : ∀ r, P (s.withdraw r) := fun r => hP.same h rfl rfl
    unfold State.grants
    split
    · exact ih (hP.grantNotice (hw _))
    · exact ih (hP.tellFree (hP.grant (hw _) _ _))
    · exact h

/-- Whatever the grants keep, the end of an event keeps. -/
theorem endEvent (hP : Granting P) (h : P s) : P s.endEvent := by
  have ha : P s.arbitrate := by
    unfold State.arbitrate
    exact hP.grants _ h
  unfold State.endEvent
  revert ha
  generalize s.arbitrate = a
  intro ha
  obtain ⟨seats, hp, -⟩ := publish_eq a
  have hb : P a.publish := hP.same ha (by rw [hp]) (by rw [hp])
  revert hb
  generalize a.publish = b
  intro hb
  obtain ⟨p, w, hw, -⟩ := settlePort_eq b
  exact hP.same (t := b.settlePort.kick) hb (by rw [kick_comm, hw]) (by rw [kick_ann, hw])

end Granting

/-- No cue entry waits. -/
def State.noCueWaits (s : State) : Prop := ∀ e ∈ s.waiting, e.source ≠ .cue

theorem noCueWaits_granting : Granting State.noCueWaits where
  leaf h _ hw e he := h e (hw e he)
  suspend {s} h := by rwa [State.noCueWaits, State.waiting, suspend_ann]
  resume {s} h := by rwa [State.noCueWaits, State.waiting, resume_ann]
  grant {s} h i v := by rwa [State.noCueWaits, State.waiting, grantStream_ann]

end Sys2Proof.Machine
end

section
/-! SUPPORT. Commentary that is silent stays silent through the grants of an event. -/

namespace Sys2Proof.Machine

/-- A stream that holds no segment and waits for none. -/
def Stream.hushed (r : Stream) : Prop := r.current = none ∧ r.next = none ∧ (r.state = .off ∨ r.state = .quiet)

/-- Commentary without a segment: in no stream, in no pending firing and in no suspend record. -/
structure State.silent (s : State) : Prop where
  streams : ∀ i, (s.stream i).hushed
  pending : s.comm.pendingFiring = none
  record : ∀ r, s.comm.suspend = some r → r.entries = []

theorem settleEngine_comm (s : State) :
    ∃ state, s.settleEngine = { s with comm := { s.comm with state := state } } ∧
      (state = .suspended ↔ s.comm.state = .suspended) := by
  unfold State.settleEngine
  split
  · next h => exact ⟨s.comm.state, rfl, Iff.rfl⟩
  · next h =>
    refine ⟨_, rfl, ?_⟩
    split <;> simp [h]

theorem settleEngine_silent {s : State} (h : s.silent) : s.settleEngine.silent := by
  obtain ⟨state, hs, -⟩ := settleEngine_comm s
  rw [hs]
  exact ⟨h.streams, h.pending, h.record⟩

theorem suspend_silent {s : State} (h : s.silent) : s.suspend.silent := by
  have idle : ∀ l : List (Fin 12), l.foldl State.suspendStream (s, []) = (s, []) := by
    intro l
    induction l with
    | nil => rfl
    | cons i l ih =>
      have hi : State.suspendStream (s, []) i = (s, []) := by
        unfold State.suspendStream
        simp only [(h.streams i).1]
      rw [List.foldl_cons, hi, ih]
  unfold State.suspend
  split
  · exact h
  · rw [idle]
    refine ⟨h.streams, h.pending, fun r hr => ?_⟩
    cases hr
    rfl

theorem placePending_silent {s : State} (h : s.silent) : s.placePending.silent := by
  unfold State.placePending
  rw [h.pending]
  exact settleEngine_silent h

theorem resume_silent {s : State} (h : s.silent) : s.resume.silent := by
  unfold State.resume
  split
  · exact h
  · have out : ({ s with comm := { s.comm with state := .idle, suspend := none } } : State).silent :=
      ⟨h.streams, h.pending, fun r hr => by cases hr⟩
    have entries : (s.comm.suspend.getD { travel := s.tracker.travel, entries := [] }).entries = [] := by
      cases hr : s.comm.suspend with
      | none => rfl
      | some r => exact h.record r hr
    dsimp only
    rw [entries]
    split
    · exact placePending_silent out
    · split
      · next hp =>
        rw [h.pending] at hp
        cases hp
      · exact settleEngine_silent out

theorem silent_granting : Granting State.silent where
  leaf {s t} h hc _ := by
    have hs : ∀ i, t.stream i = s.stream i := fun i => by rw [State.stream, hc]; rfl
    exact ⟨fun i => by rw [hs]; exact h.streams i, by rw [hc]; exact h.pending, by rw [hc]; exact h.record⟩
  suspend h := suspend_silent h
  resume h := resume_silent h
  grant {s} h i v := by
    unfold State.grantStream
    rw [(h.streams i).1]
    exact h

end Sys2Proof.Machine
end

section
/-! SUPPORT. Commentary without a segment: what the rest of a route change can do to it and to the voices. -/

namespace Sys2Proof.Machine

theorem stream_setStream (s : State) (i j : Fin 12) (f : Stream → Stream) :
    (s.setStream i f).stream j = if i = j then f (s.stream j) else s.stream j := Table.get_modify _ _ _ _

theorem voice_release (s : State) (v w : Fin 16) :
    (s.release v).voice w = if v = w then (s.voice w).released else s.voice w := Table.get_modify _ _ _ _

theorem Voice.released_released (v : Voice) : v.released.released = v.released := by
  unfold Voice.released
  cases h : v.state <;> simp [h]

theorem loseSegment_comm (s : State) (firing : Nat) : ∃ list, (s.loseSegment firing).comm = { s.comm with cueList := list } := by
  unfold State.loseSegment
  split
  · exact ⟨s.comm.cueList, rfl⟩
  · split
    · dsimp only
      split <;> exact ⟨_, rfl⟩
    · exact ⟨_, rfl⟩

theorem loseSegment_voices (s : State) (firing : Nat) : (s.loseSegment firing).voices = s.voices := by
  unfold State.loseSegment
  split
  · rfl
  · split
    · dsimp only
      split <;> rfl
    · rfl

/-- From `s`, commentary that holds no segment has come to `t`: it still holds none, its record and its pending firing are as
they were, voices have at most been released, and nobody has asked for one. -/
structure Quieted (s t : State) : Prop where
  streams : ∀ i, (t.stream i).hushed
  pending : t.comm.pendingFiring = s.comm.pendingFiring
  suspend : t.comm.suspend = s.comm.suspend
  state : t.comm.state = .suspended ↔ s.comm.state = .suspended
  voice : ∀ v, t.voice v = s.voice v ∨ t.voice v = (s.voice v).released
  requests : s.voices.requests = [] → t.voices.requests = []

namespace Quieted
variable {s t u : State}

theorem refl (h : ∀ i, (s.stream i).hushed) : Quieted s s := ⟨h, rfl, rfl, Iff.rfl, fun _ => .inl rfl, id⟩

/-- A change of commentary beside its streams, its record and its pending firing, with the voices as they were. -/
theorem leaf (h : Quieted s t) (hs : u.comm.streams = t.comm.streams) (hp : u.comm.pendingFiring = t.comm.pendingFiring)
    (hr : u.comm.suspend = t.comm.suspend) (he : u.comm.state = .suspended ↔ t.comm.state = .suspended)
    (hv : u.voices = t.voices) : Quieted s u where
  streams i := by rw [State.stream, hs]; exact h.streams i
  pending := hp.trans h.pending
  suspend := hr.trans h.suspend
  state := he.trans h.state
  voice v := by rw [State.voice, hv]; exact h.voice v
  requests hq := by rw [hv]; exact h.requests hq

theorem same (h : Quieted s t) (hc : u.comm = t.comm) (hv : u.voices = t.voices) : Quieted s u :=
  h.leaf (by rw [hc]) (by rw [hc]) (by rw [hc]) (by rw [hc]) hv

theorem fold {α : Type} {f : State → α → State} (hf : ∀ {t : State}, Quieted s t → ∀ a, Quieted s (f t a)) (l : List α)
    (h : Quieted s t) : Quieted s (l.foldl f t) := by
  induction l generalizing t with
  | nil => exact h
  | cons a l ih => exact ih (hf h a)

theorem settleEngine (h : Quieted s t) : Quieted s t.settleEngine := by
  obtain ⟨state, hs, hi⟩ := settleEngine_comm t
  rw [hs]
  exact h.leaf rfl rfl rfl hi rfl

theorem loseSegment (h : Quieted s t) (firing : Nat) : Quieted s (t.loseSegment firing) := by
  obtain ⟨list, hc⟩ := loseSegment_comm t firing
  exact h.leaf (by rw [hc]) (by rw [hc]) (by rw [hc]) (by rw [hc]) (loseSegment_voices t firing)

theorem reports (h : Quieted s t) (cause : DropCause) (l : List Segment) :
    Quieted s (l.foldl (fun s g => s.commReport (.dropped cause) g.cue) t) :=
  fold (f := fun s g => s.commReport (.dropped cause) g.cue) (fun hu _ => hu.same rfl rfl) l h

theorem dropSegments (h : Quieted s t) (cause : DropCause) (segments : List Segment) :
    Quieted s (t.dropSegments cause segments) := fold (fun hu g => hu.loseSegment g.firing) _ (h.reports cause _)

theorem setStream (h : Quieted s t) (i : Fin 12) {f : Stream → Stream} (hf : (f (t.stream i)).hushed) :
    Quieted s (t.setStream i f) where
  streams j := by
    rw [stream_setStream]
    split
    · next hij => subst hij; exact hf
    · exact h.streams j
  pending := h.pending
  suspend := h.suspend
  state := h.state
  voice := h.voice
  requests := h.requests

theorem release (h : Quieted s t) (v : Fin 16) : Quieted s (t.release v) where
  streams := h.streams
  pending := h.pending
  suspend := h.suspend
  state := h.state
  voice w := by
    rw [voice_release]
    split
    · right
      rcases h.voice w with hw | hw
      · rw [hw]
      · rw [hw, Voice.released_released]
    · exact h.voice w
  requests := h.requests

theorem withdraw (h : Quieted s t) (r : Requester) : Quieted s (t.withdraw r) where
  streams := h.streams
  pending := h.pending
  suspend := h.suspend
  state := h.state
  voice := h.voice
  requests hq := by
    show t.voices.requests.filter _ = []
    rw [h.requests hq, List.filter_nil]

theorem letGo (h : Quieted s t) (i : Fin 12) : Quieted s (t.letGo i) := by
  have hw : Quieted s ((t.withdraw (.stream i)).setStream i fun r => { r with voice := none }) :=
    (h.withdraw _).setStream i (h.streams i)
  unfold State.letGo
  dsimp only
  split
  · exact hw.release _
  · exact hw

theorem clearStream (h : Quieted s t) (i : Fin 12) {state : StreamState} (hs : state = .off ∨ state = .quiet) :
    Quieted s (t.clearStream i state) := (h.letGo i).setStream i ⟨rfl, rfl, hs⟩

theorem enableStream (h : Quieted s t) (i : Fin 12) : Quieted s (t.enableStream i) := by
  unfold State.enableStream
  split
  · split
    · exact h.setStream i ⟨(h.streams i).1, (h.streams i).2.1, .inr rfl⟩
    · exact h
  · exact h.clearStream i (.inl rfl)

theorem applyEnabled (h : Quieted s t) : Quieted s t.applyEnabled :=
  ((fold (fun hu i => hu.enableStream i) allSlots h).dropSegments _ _).settleEngine

/-- A stream without a segment changes its demand alone. -/
theorem deriveDemandOf (h : Quieted s t) (i : Fin 12) : Quieted s (t.deriveDemandOf i) := by
  unfold State.deriveDemandOf
  dsimp only
  split
  · exact h
  · have hd : Quieted s (t.setStream i fun r => { r with demand := t.demandNow i }) := h.setStream i (h.streams i)
    obtain ⟨hc, -, hq⟩ := hd.streams i
    revert hd hc hq
    generalize (t.setStream i fun r => { r with demand := t.demandNow i }) = u
    intro hd hc hq
    split
    · have hg : u.gainDemand i = u := by
        unfold State.gainDemand
        rw [hc]
        split
        · next h => cases h
        · rfl
      rwa [hg]
    · have hl : u.loseDemand i = u := by
        unfold State.loseDemand
        rcases hq with hq | hq <;> rw [hq]
      rwa [hl]

theorem deriveDemand (h : Quieted s t) : Quieted s t.deriveDemand := fold (fun hu i => hu.deriveDemandOf i) allSlots h

theorem setQuiet (h : Quieted s t) (quiet : Bool) : Quieted s (t.setQuiet quiet) := by
  unfold State.setQuiet State.deriveNeed
  split
  · exact h.same rfl rfl
  · exact deriveDemand (h.same rfl rfl)

theorem tellListeners (h : Quieted s t) : Quieted s t.tellListeners := by
  obtain ⟨_, _, _, _, ht⟩ := tellListeners_eq t
  rw [ht]
  exact h.same rfl rfl

theorem refreshEnabled (h : Quieted s t) : Quieted s t.refreshEnabled := by
  unfold State.refreshEnabled
  dsimp only
  split
  · exact h
  · have hu : ∀ seats : SeatTable, Quieted s (({ t with seats := seats } : State).applyEnabled).deriveDemand := fun seats =>
      deriveDemand (applyEnabled (h.same rfl rfl))
    split
    · exact (hu _).tellListeners
    · exact hu _

theorem dropCueEntries (h : Quieted s t) : Quieted s t.dropCueEntries :=
  fold (f := fun s e => s.annEnded e .cancelled) (fun hu _ => hu.same rfl rfl) _ (h.same rfl rfl)

end Quieted

end Sys2Proof.Machine
end

section
/-! SUPPORT. All commentary stops (R76). -/

namespace Sys2Proof.Machine

/-- A stream that has given up its segments and its voice; one that is OFF has none. -/
def Stream.stopped (r : Stream) : Stream :=
  if r.state = .off then r else { r with state := .quiet, current := none, next := none, voice := none }

theorem Stream.stopped_stopped (r : Stream) : r.stopped.stopped = r.stopped := by
  unfold Stream.stopped
  split <;> rfl

theorem Stream.stopped_hushed {r : Stream} (h : r.state = .off → r.current = none ∧ r.next = none) : r.stopped.hushed := by
  unfold Stream.stopped
  split
  · next ho => exact ⟨(h ho).1, (h ho).2, .inl ho⟩
  · exact ⟨rfl, rfl, .inr rfl⟩

/-- What a stop does to one stream. -/
def State.stopStream (s : State) (i : Fin 12) : State := if (s.stream i).state = .off then s else s.clearStream i .quiet

section
variable (s : State)

theorem letGo_comm (i : Fin 12) : (s.letGo i).comm = (s.setStream i fun r => { r with voice := none }).comm := by
  unfold State.letGo
  dsimp only
  split <;> rfl

theorem letGo_requests (i : Fin 12) : (s.letGo i).voices.requests = s.voices.requests.filter (· ≠ .stream i) := by
  unfold State.letGo
  dsimp only
  split <;> rfl

theorem letGo_voice (i : Fin 12) (w : Fin 16) :
    (s.letGo i).voice w = if (s.stream i).voice = some w then (s.voice w).released else s.voice w := by
  unfold State.letGo
  dsimp only
  cases h : (s.stream i).voice with
  | none => simp; rfl
  | some v =>
    dsimp only
    rw [voice_release]
    by_cases hv : v = w
    · rw [if_pos hv, if_pos (by rw [hv])]; rfl
    · rw [if_neg hv, if_neg (by simpa using hv)]; rfl

theorem stopStream_comm (i : Fin 12) :
    (s.stopStream i).comm = { s.comm with streams := s.comm.streams.modify i Stream.stopped } := by
  unfold State.stopStream
  split
  · next h =>
    have : s.comm.streams.modify i Stream.stopped = s.comm.streams := by
      refine Table.ext_get fun j => ?_
      rw [Table.get_modify]
      split
      · next hij => subst hij; exact if_pos h
      · rfl
    rw [this]
  · next h =>
    have : (s.comm.streams.modify i fun r => { r with voice := none }).modify i
        (fun r => { r with state := .quiet, current := none, next := none }) = s.comm.streams.modify i Stream.stopped := by
      refine Table.ext_get fun j => ?_
      rw [Table.get_modify, Table.get_modify, Table.get_modify]
      split
      · next hij => subst hij; exact (if_neg h).symm
      · rfl
    rw [← this]
    unfold State.clearStream
    show ({ (s.letGo i).comm with
      streams := (s.letGo i).comm.streams.modify i fun r => { r with state := .quiet, current := none, next := none } } :
        Commentary) = _
    rw [letGo_comm]
    rfl

theorem stopStream_stream (i j : Fin 12) :
    (s.stopStream i).stream j = if i = j then (s.stream j).stopped else s.stream j := by
  unfold State.stream
  rw [stopStream_comm]
  exact Table.get_modify _ _ _ _

theorem stopStream_requests (i : Fin 12) (h : s.voices.requests = []) : (s.stopStream i).voices.requests = [] := by
  unfold State.stopStream
  split
  · exact h
  · show (s.letGo i).voices.requests = []
    rw [letGo_requests, h, List.filter_nil]

theorem stopStream_voice (i : Fin 12) (w : Fin 16) :
    (s.stopStream i).voice w =
      if (s.stream i).state ≠ .off ∧ (s.stream i).voice = some w then (s.voice w).released else s.voice w := by
  unfold State.stopStream
  by_cases h : (s.stream i).state = .off
  · rw [if_pos h, if_neg fun hn => hn.1 h]
  · rw [if_neg h]
    show (s.letGo i).voice w = _
    rw [letGo_voice]
    simp [h]

end

/-! ### Every stream stopped -/

theorem stopStreams_comm (l : List (Fin 12)) (s : State) :
    (l.foldl State.stopStream s).comm = { s.comm with streams := (l.foldl State.stopStream s).comm.streams } := by
  induction l generalizing s with
  | nil => rfl
  | cons i l ih =>
    rw [List.foldl_cons, ih, stopStream_comm]

theorem stopStreams_stream (l : List (Fin 12)) (s : State) (j : Fin 12) :
    (l.foldl State.stopStream s).stream j = if j ∈ l then (s.stream j).stopped else s.stream j := by
  induction l generalizing s with
  | nil => rfl
  | cons i l ih =>
    rw [List.foldl_cons, ih, stopStream_stream]
    by_cases hij : i = j
    · subst hij
      simp [Stream.stopped_stopped]
    · simp [hij, Ne.symm hij]

theorem stopStreams_requests (l : List (Fin 12)) (s : State) (h : s.voices.requests = []) :
    (l.foldl State.stopStream s).voices.requests = [] := by
  induction l generalizing s with
  | nil => exact h
  | cons i l ih => exact ih _ (stopStream_requests s i h)

theorem stopStreams_voice (l : List (Fin 12)) (s : State) (w : Fin 16) :
    (l.foldl State.stopStream s).voice w = s.voice w ∨ (l.foldl State.stopStream s).voice w = (s.voice w).released := by
  induction l generalizing s with
  | nil => exact .inl rfl
  | cons i l ih =>
    rw [List.foldl_cons]
    have hi := ih (s.stopStream i)
    rw [stopStream_voice] at hi
    split at hi
    · rw [Voice.released_released] at hi
      exact .inr (hi.elim id id)
    · exact hi

/-- A voice that a stream holds is released. -/
theorem stopStreams_releases {l : List (Fin 12)} {s : State} {i : Fin 12} {w : Fin 16} (hi : i ∈ l)
    (ho : (s.stream i).state ≠ .off) (hv : (s.stream i).voice = some w) :
    (l.foldl State.stopStream s).voice w = (s.voice w).released := by
  induction l generalizing s with
  | nil => cases hi
  | cons j l ih =>
    rw [List.foldl_cons]
    by_cases hij : j = i
    · have hr : (s.stopStream j).voice w = (s.voice w).released := by
        rw [stopStream_voice, hij, if_pos ⟨ho, hv⟩]
      have hf := stopStreams_voice l (s.stopStream j) w
      rw [hr, Voice.released_released] at hf
      exact hf.elim id id
    · have hl : i ∈ l := (List.mem_cons.1 hi).resolve_left (Ne.symm hij)
      have hs : (s.stopStream j).stream i = s.stream i := by rw [stopStream_stream, if_neg hij]
      rw [ih hl (by rwa [hs]) (by rwa [hs]), stopStream_voice]
      split
      · exact Voice.released_released _
      · rfl

/-- Commentary with every stream stopped, before the reports of what it has lost. -/
def State.stoppedStreams (s : State) : State :=
  let u := allSlots.foldl State.stopStream s
  { u with
    comm := { u.comm with
      pendingFiring := none
      suspend := if u.comm.state = EngineState.suspended then some { travel := u.tracker.travel, entries := [] } else none } }

/-- The reports of what commentary loses when it stops. -/
def State.tellStopped (s : State) (lost : List Segment) (pending : Option PendingFiring) : State :=
  let u := (firstOfEach lost).foldl (fun s g => s.commReport (.dropped .stopped) g.cue) s
  let u :=
    match pending with
    | some p => u.commReport (.dropped .stopped) p.cue
    | none => u
  (lost.foldl (fun (s : State) g => s.loseSegment g.firing) u).settleEngine

theorem stopCommentary_eq (s : State) : ∃ lost, s.stopCommentary = s.stoppedStreams.tellStopped lost s.comm.pendingFiring := by
  unfold State.stopCommentary State.stoppedStreams State.tellStopped State.stopStream
  exact ⟨_, rfl⟩

theorem Quieted.tellStopped {s t : State} (h : Quieted s t) (lost : List Segment) (pending : Option PendingFiring) :
    Quieted s (t.tellStopped lost pending) := by
  unfold State.tellStopped
  have hr := h.reports .stopped (firstOfEach lost)
  apply Quieted.settleEngine
  apply Quieted.fold fun hu g => hu.loseSegment g.firing
  cases pending with
  | none => exact hr
  | some p => exact hr.same rfl rfl

theorem stoppedStreams_stream (s : State) (i : Fin 12) : s.stoppedStreams.stream i = (s.stream i).stopped := by
  have hi := stopStreams_stream allSlots s i
  rw [if_pos (show i ∈ allSlots from List.mem_finRange i)] at hi
  rw [← hi]
  unfold State.stoppedStreams
  generalize allSlots.foldl State.stopStream s = u
  rfl

theorem stopCommentary_quieted {s : State}
    (h : ∀ i, (s.stream i).state = .off → (s.stream i).current = none ∧ (s.stream i).next = none) :
    Quieted s.stoppedStreams s.stopCommentary := by
  obtain ⟨lost, hs⟩ := stopCommentary_eq s
  rw [hs]
  refine (Quieted.refl fun i => ?_).tellStopped _ _
  rw [stoppedStreams_stream]
  exact Stream.stopped_hushed (h i)

end Sys2Proof.Machine
end

section
/-! SUPPORT. What a taken selection of a route leaves and what it ends (R16, R23, R76, R99, R161). -/

namespace Sys2Proof.Machine

/-! ### Commentary stopped -/

theorem stopStreams_tracker (l : List (Fin 12)) (s : State) : (l.foldl State.stopStream s).tracker = s.tracker := by
  have hi : ∀ (t : State) (i : Fin 12), Engines t (t.stopStream i) := by
    intro t i
    unfold State.stopStream
    split
    · exact .refl t
    · exact clearStream_engines (.refl t) _ _
  exact congrArg Fixed.tracker (Engines.fold hi l (.refl s)).fixed

theorem stopStreams_ann (l : List (Fin 12)) (s : State) : (l.foldl State.stopStream s).ann = s.ann := by
  refine foldl_ann s (fun t i => ?_) l
  unfold State.stopStream
  split
  · rfl
  · exact clearStream_ann t i _

/-- What the stop of the streams itself has changed. -/
theorem stoppedStreams_spec (s : State) :
    s.stoppedStreams.comm.state = s.comm.state ∧ s.stoppedStreams.comm.pendingFiring = none ∧
      s.stoppedStreams.comm.suspend =
        (if s.comm.state = .suspended then some { travel := s.tracker.travel, entries := [] } else none) ∧
      (s.voices.requests = [] → s.stoppedStreams.voices.requests = []) ∧
      ∀ i v, (s.stream i).state ≠ .off → (s.stream i).voice = some v → s.stoppedStreams.voice v = (s.voice v).released := by
  have hc : (allSlots.foldl State.stopStream s).comm.state = s.comm.state := by rw [stopStreams_comm]
  have ht := stopStreams_tracker allSlots s
  have hr := stopStreams_requests allSlots s
  have hv : ∀ i v, (s.stream i).state ≠ .off → (s.stream i).voice = some v →
      (allSlots.foldl State.stopStream s).voice v = (s.voice v).released :=
    fun i v => stopStreams_releases (List.mem_finRange i)
  unfold State.stoppedStreams
  revert hc ht hr hv
  generalize allSlots.foldl State.stopStream s = u
  intro hc ht hr hv
  refine ⟨hc, rfl, ?_, hr, hv⟩
  show (if u.comm.state = .suspended then some ({ travel := u.tracker.travel, entries := [] } : SuspendRecord) else none) = _
  rw [hc, ht]

@[simp] theorem stopCommentary_ann (s : State) : s.stopCommentary.ann = s.ann := by
  obtain ⟨lost, hs⟩ := stopCommentary_eq s
  have h1 : s.stoppedStreams.ann = s.ann := by
    have hf := stopStreams_ann allSlots s
    rw [← hf]
    unfold State.stoppedStreams
    generalize allSlots.foldl State.stopStream s = u
    rfl
  rw [hs, ← h1]
  unfold State.tellStopped
  generalize s.stoppedStreams = u
  dsimp only
  rw [settleEngine_ann, foldl_ann _ fun t _ => loseSegment_ann t _]
  split
  · rw [commReport_ann, foldl_ann _ fun t _ => commReport_ann t _ _]
  · rw [foldl_ann _ fun t _ => commReport_ann t _ _]

/-! ### The waiting entries of a route -/

/-- The announcement engine without the waiting entries of cues. -/
def Announcements.withoutCues (a : Announcements) : Announcements :=
  { a with
    queue := a.queue.filter fun e => decide (e.source ≠ .cue)
    stack := a.stack.filter fun e => decide (e.source ≠ .cue) }

theorem withoutCues_none (a : Announcements) : ∀ e ∈ a.withoutCues.queue ++ a.withoutCues.stack, e.source ≠ .cue := by
  intro e he
  simp only [Announcements.withoutCues, List.mem_append, List.mem_filter, decide_eq_true_eq] at he
  exact he.elim And.right And.right

theorem dropCueEntries_ann (s : State) : s.dropCueEntries.ann = s.ann.withoutCues := by
  unfold State.dropCueEntries
  exact foldl_ann _ (f := fun s e => s.annEnded e .cancelled) (fun _ _ => rfl) _

/-! ### What the engines leave -/

/-- From `s` to `t` nothing has changed of what a selection of a route settles itself. -/
structure Settled (s t : State) : Prop where
  cues : t.cues = s.cues
  tracker : t.tracker = s.tracker
  settings : t.settings = s.settings
  clock : t.clock = s.clock
  power : t.power = s.power
  store : t.store = s.store
  quiet : t.mixer.quiet = s.mixer.quiet
  layers : t.lights.channels.map Channel.layers = s.lights.channels.map Channel.layers
  link : ∃ rs : List Report, t.link = rs.foldl Link.report s.link

theorem Settled.trans {s t u : State} (h : Settled s t) (g : Settled t u) : Settled s u where
  cues := g.cues.trans h.cues
  tracker := g.tracker.trans h.tracker
  settings := g.settings.trans h.settings
  clock := g.clock.trans h.clock
  power := g.power.trans h.power
  store := g.store.trans h.store
  quiet := g.quiet.trans h.quiet
  layers := g.layers.trans h.layers
  link := by
    obtain ⟨rs, hr⟩ := h.link
    obtain ⟨qs, hq⟩ := g.link
    exact ⟨rs ++ qs, by rw [hq, hr, List.foldl_append]⟩

theorem Settled.seats (s : State) (seats : SeatTable) : Settled s { s with seats := seats } :=
  ⟨rfl, rfl, rfl, rfl, rfl, rfl, rfl, rfl, [], rfl⟩

theorem Engines.settled {s t : State} (h : Engines s t) : Settled s t where
  cues := congrArg Fixed.cues h.fixed
  tracker := congrArg Fixed.tracker h.fixed
  settings := congrArg Fixed.settings h.fixed
  clock := congrArg Fixed.clock h.fixed
  power := congrArg Fixed.power h.fixed
  store := congrArg Fixed.store h.fixed
  quiet := congrArg (fun f : Fixed => f.zones.2.2.1) h.fixed
  layers := congrArg Fixed.layers h.fixed
  link := h.link

theorem setQuiet_engines (s : State) (quiet : Bool) :
    ∃ need, Engines { s with mixer := { s.mixer with quiet := quiet, need := need } } (s.setQuiet quiet) := by
  unfold State.setQuiet State.deriveNeed
  split
  · exact ⟨_, .refl _⟩
  · exact ⟨_, deriveDemand_engines (.refl _)⟩

theorem refreshEnabled_settled (s : State) : Settled s s.refreshEnabled := by
  rcases refreshEnabled_spec s with ⟨-, h⟩ | ⟨u, hu, h⟩
  · rw [h]
    exact (Engines.refl s).settled
  · have hs : Settled s u := (Settled.seats s _).trans hu.settled
    rcases h with h | h
    · rwa [h]
    · rw [h]
      obtain ⟨_, _, _, rs, ht⟩ := tellListeners_eq u
      rw [ht]
      exact hs.trans ⟨rfl, rfl, rfl, rfl, rfl, rfl, rfl, rfl, rs, rfl⟩

/-! ### The route change -/

/-- The state of a route change before its neighbours are handed it: a load in progress is reported superseded. -/
def State.leaveRoute (s : State) : State :=
  let u := if s.cues.routeState = .loading then s.routeFailed .superseded else s
  { u with cues := s.cues.cleared, tracker := s.tracker.unplace }

/-- The route change once commentary has stopped and the waiting entries of cues have gone. -/
def State.darken (s : State) : State :=
  (({ s with lights := s.lights.clearScene s.clock } : State).setQuiet false).refreshEnabled

theorem routeChange_eq (s : State) : s.routeChange = s.leaveRoute.stopCommentary.dropCueEntries.darken := by
  unfold State.routeChange State.leaveRoute State.darken
  split <;> rfl

theorem leaveRoute_link (s : State) : ∃ rs : List Report, s.leaveRoute.link = rs.foldl Link.report s.link := by
  unfold State.leaveRoute
  split
  · exact ⟨[_], rfl⟩
  · exact ⟨[], rfl⟩

/-- What the route change leaves of the blocks beside it. -/
theorem leaveRoute_blocks (s : State) :
    s.leaveRoute.comm = s.comm ∧ s.leaveRoute.ann = s.ann ∧ s.leaveRoute.voices = s.voices ∧
      s.leaveRoute.lights = s.lights ∧ s.leaveRoute.settings = s.settings ∧ s.leaveRoute.power = s.power ∧
      s.leaveRoute.clock = s.clock ∧ s.leaveRoute.store = s.store := by
  unfold State.leaveRoute
  split <;> exact ⟨rfl, rfl, rfl, rfl, rfl, rfl, rfl, rfl⟩

theorem darken_settled (s : State) :
    Settled { s with lights := s.lights.clearScene s.clock, mixer := { s.mixer with quiet := false } } s.darken := by
  obtain ⟨need, hq⟩ := setQuiet_engines { s with lights := s.lights.clearScene s.clock } false
  have h1 : Settled { s with lights := s.lights.clearScene s.clock, mixer := { s.mixer with quiet := false } }
      { s with lights := s.lights.clearScene s.clock, mixer := { s.mixer with quiet := false, need := need } } :=
    ⟨rfl, rfl, rfl, rfl, rfl, rfl, rfl, rfl, [], rfl⟩
  exact (h1.trans hq.settled).trans (refreshEnabled_settled _)

theorem darken_ann (s : State) : s.darken.ann = s.ann := by
  simp [State.darken]

theorem Quieted.darken {s t : State} (h : Quieted s t) : Quieted s t.darken := by
  have hl : Quieted s { t with lights := t.lights.clearScene t.clock } := h.same rfl rfl
  exact (hl.setQuiet false).refreshEnabled

theorem routeChange_ann (s : State) : s.routeChange.ann = s.ann.withoutCues := by
  rw [routeChange_eq, darken_ann, dropCueEntries_ann, stopCommentary_ann, (leaveRoute_blocks s).2.1]

/-- The blocks of the part that a route change settles. -/
structure RouteLeft (s t : State) : Prop where
  cues : t.cues = s.cues.cleared
  tracker : t.tracker = s.tracker.unplace
  settings : t.settings = s.settings
  clock : t.clock = s.clock
  power : t.power = s.power
  store : t.store = s.store
  quiet : t.mixer.quiet = false
  layers : ∀ i, (t.lights.channels.get i).layers = ((s.lights.channels.get i).base, none)
  link : ∃ rs : List Report, t.link = rs.foldl Link.report s.link

theorem routeChange_left (s : State) : RouteLeft s s.routeChange := by
  have h1 : Settled s.leaveRoute s.leaveRoute.stopCommentary.dropCueEntries :=
    (dropCueEntries_engines (stopCommentary_engines (.refl _))).settled
  rw [routeChange_eq]
  revert h1
  generalize s.leaveRoute.stopCommentary.dropCueEntries = u
  intro h1
  have h2 := darken_settled u
  obtain ⟨-, -, -, hlights, hsettings, hpower, hclock, hstore⟩ := leaveRoute_blocks s
  obtain ⟨rs, hrs⟩ := leaveRoute_link s
  obtain ⟨qs, hqs⟩ := h1.link
  obtain ⟨ps, hps⟩ := h2.link
  refine ⟨h2.cues.trans h1.cues, h2.tracker.trans h1.tracker, h2.settings.trans (h1.settings.trans hsettings),
    h2.clock.trans (h1.clock.trans hclock), h2.power.trans (h1.power.trans hpower), h2.store.trans (h1.store.trans hstore),
    h2.quiet, fun i => ?_, rs ++ qs ++ ps, ?_⟩
  · have hd := congrArg (fun t : Table (Nat × Option Nat) 16 => t.get i) h2.layers
    have hb := congrArg (fun t : Table (Nat × Option Nat) 16 => (t.get i).1) h1.layers
    simp only [Table.get_map] at hd hb
    obtain ⟨-, -, -, hc⟩ := applyScene_fixed u.lights [] u.clock
    obtain ⟨hbase, hscene, -⟩ := hc i
    rw [hd, ← hlights]
    exact Prod.ext (hbase.trans hb) hscene
  · rw [List.foldl_append, List.foldl_append, ← hrs, ← hqs, hps]

/-- With commentary's invariant a route change leaves commentary silent, and the rest as R76 says. -/
theorem routeChange_silences {s : State}
    (h : ∀ i, (s.stream i).state = .off → (s.stream i).current = none ∧ (s.stream i).next = none) :
    s.routeChange.silent ∧
      (s.comm.state = .suspended → s.routeChange.comm.state = .suspended ∧
        s.routeChange.comm.suspend = some { travel := s.tracker.travel, entries := [] }) ∧
      (s.voices.requests = [] → s.routeChange.voices.requests = []) ∧
      ∀ i v, (s.stream i).state ≠ .off → (s.stream i).voice = some v → s.routeChange.voice v = (s.voice v).released := by
  obtain ⟨hcomm, -, hvoices, -⟩ := leaveRoute_blocks s
  have hstream : ∀ i, s.leaveRoute.stream i = s.stream i := fun i => by rw [State.stream, hcomm]; rfl
  have hvoice : ∀ v, s.leaveRoute.voice v = s.voice v := fun v => by rw [State.voice, hvoices]; rfl
  have htravel : s.leaveRoute.tracker.travel = s.tracker.travel := rfl
  have hq : Quieted s.leaveRoute.stoppedStreams s.routeChange := by
    rw [routeChange_eq]
    exact (stopCommentary_quieted fun i => by rw [hstream]; exact h i).dropCueEntries.darken
  obtain ⟨hstate, hpending, hrecord, hrequests, hreleased⟩ := stoppedStreams_spec s.leaveRoute
  rw [hcomm, htravel] at hrecord
  refine ⟨⟨hq.streams, hq.pending.trans hpending, fun r hr => ?_⟩, fun hs => ⟨?_, ?_⟩, fun hr => ?_, fun i v ho hv => ?_⟩
  · rw [hq.suspend, hrecord] at hr
    split at hr <;> cases hr
    rfl
  · rw [hq.state, hstate, hcomm, hs]
  · rw [hq.suspend, hrecord, if_pos hs]
  · exact hq.requests (hrequests (by rw [hvoices, hr]))
  · have hrel := hreleased i v (by rwa [hstream]) (by rwa [hstream])
    rw [hvoice] at hrel
    have hf := hq.voice v
    rw [hrel, Voice.released_released] at hf
    exact hf.elim id id

end Sys2Proof.Machine
end

section
/-! OBLIGATION. The selection of a route (R16, R22, R23, R161, R76, R99). -/

namespace Sys2Proof.Machine

/-- A reply held before the route change is held after it. -/
theorem RouteLeft.replies {s t : State} (h : RouteLeft s t) {r : Reply} (hr : s.holdsReply r) : t.holdsReply r := by
  obtain ⟨rs, hl⟩ := h.link
  obtain ⟨-, -, -, -, h5, h6, -, -⟩ := foldl_report_same rs s.link
  unfold State.holdsReply at *
  rw [hl, h5, h6]
  exact hr

/-- What a taken selection comes to at the end of its event, whichever route it selects. -/
structure Selected (s t : State) : Prop where
  tracker : t.tracker = s.tracker.unplace
  cues : t.cues.cues = []
  clipSets : t.cues.clipSets = []
  scenes : t.cues.scenes = []
  quiet : t.mixer.quiet = false
  lights : ∀ i, (t.lights.channels.get i).scene = none ∧ (t.lights.channels.get i).base = (s.lights.channels.get i).base
  settings : t.settings = s.settings
  power : t.power = s.power
  clock : t.clock = s.clock
  cells : t.store.cells = s.store.cells
  mode : t.store.mode = s.store.mode
  directory : t.cues.directory = s.cues.directory
  silent : AnnInv s → t.silent
  ungranted : AnnInv s → s.voices.requests = [] →
    t.ann = s.ann.withoutCues ∧
    (s.comm.state = .suspended → t.comm.state = .suspended ∧
      t.comm.suspend = some { travel := s.tracker.travel, entries := [] }) ∧
    ∀ i v, (s.stream i).state ≠ .off → (s.stream i).voice = some v → t.voice v = (s.voice v).released
  waiting : t.noCueWaits

/-- The states differ in the cue engine and the port alone. -/
def State.besideCues (s t : State) : Prop := ∃ c p, t = { s with cues := c, port := p }

theorem besideCues_refl (s : State) : s.besideCues s := ⟨s.cues, s.port, rfl⟩

/-- The beginning of a load changes the cue engine and the port. -/
theorem beginLoad_besideCues (s : State) (n : Nat) (extent : Extent) : s.besideCues (s.beginLoad n extent) := ⟨_, _, rfl⟩

/-- An event that changes the route, whatever it then does to the cue engine and the port, ends so. -/
theorem routeChange_selected {s r x : State} {link : Link} (hr : r = { s with link := link })
    (hx : r.routeChange.besideCues x)
    (hc : x.cues.cues = [] ∧ x.cues.clipSets = [] ∧ x.cues.scenes = [] ∧ x.cues.directory = s.cues.directory) :
    Selected s x.endEvent := by
  obtain ⟨c, p, hx⟩ := hx
  subst hx hr
  have left := routeChange_left { s with link := link }
  have hann : ({ s with link := link } : State).routeChange.ann = s.ann.withoutCues := routeChange_ann _
  have quiets : AnnInv s → _ := fun inv => routeChange_silences (s := { s with link := link })
    fun i (ho : (s.stream i).state = .off) => ⟨inv.off i ho, inv.behind i (inv.off i ho)⟩
  revert left hann quiets
  generalize ({ s with link := link } : State).routeChange = y
  intro left hann quiets
  have frame := endEvent_frame { y with cues := c, port := p }
  obtain ⟨hcues, hsets, hscenes, hdirectory⟩ := hc
  have hstore := frame.store
  have hquiet := frame.zones
  simp only [Prod.mk.injEq] at hquiet
  refine {
    tracker := frame.tracker.trans left.tracker
    cues := by rw [frame.cues]; exact hcues
    clipSets := by rw [frame.cues]; exact hsets
    scenes := by rw [frame.cues]; exact hscenes
    quiet := hquiet.2.2.1.trans left.quiet
    lights := fun i => ?lights
    settings := frame.settings.trans left.settings
    power := frame.power.trans left.power
    clock := frame.clock.trans left.clock
    cells := (congrArg Store.cells hstore).trans (congrArg Store.cells left.store)
    mode := (congrArg Store.mode hstore).trans (congrArg Store.mode left.store)
    directory := by rw [frame.cues]; exact hdirectory
    silent := fun inv => ?silent
    ungranted := fun inv hrequests => ?ungranted
    waiting := noCueWaits_granting.endEvent ?waiting }
  case lights =>
    have hl := congrArg (fun t : Table (Nat × Option Nat) 16 => t.get i) frame.layers
    simp only [Table.get_map] at hl
    have hi := hl.trans (left.layers i)
    exact ⟨congrArg Prod.snd hi, congrArg Prod.fst hi⟩
  case silent =>
    obtain ⟨hs, -⟩ := quiets inv
    exact silent_granting.endEvent (silent_granting.same hs rfl rfl)
  case ungranted =>
    obtain ⟨-, hsuspended, hnone, hreleased⟩ := quiets inv
    obtain ⟨hcomm, ha, hvoices, -⟩ := frame.ungranted (.inl (hnone hrequests))
    refine ⟨ha.trans hann, fun hs => ?_, fun i v ho hv => ?_⟩
    · rw [hcomm]
      exact hsuspended hs
    · rw [State.voice, hvoices]
      exact hreleased i v ho hv
  case waiting =>
    show ∀ e ∈ y.ann.queue ++ y.ann.stack, e.source ≠ .cue
    rw [hann]
    exact withoutCues_none s.ann

theorem beginLoad_cues (s : State) (n : Nat) (extent : Extent) :
    (s.beginLoad n extent).cues = { s.cues with
      routeState := .loading, routeNumber := n, extent := some extent, loadSerial := s.cues.loadSerial + 1
      load := some { serial := s.cues.loadSerial + 1, next := 0, stream := [] } } := rfl

theorem beginLoad_reads (s : State) (n : Nat) (extent : Extent) :
    { page := extent.first, use := .route (s.cues.loadSerial + 1) 0 } ∈ (s.beginLoad n extent).port.reads :=
  List.mem_append_right _ (List.mem_append_right _ (List.mem_singleton.2 rfl))

theorem beginLoad_replies {s : State} {q : Reply} (h : s.holdsReply q) (n : Nat) (extent : Extent) :
    (s.beginLoad n extent).holdsReply q := h

/-! ### The kinds of selection -/

section
variable {s r : State} {link : Link} {q : Reply}

/-- The end of a selection of route 0, answered by `q`. -/
theorem routeChange_ends (hr : r = { s with link := link }) (hq : r.holdsReply q) :
    Selected s r.routeChange.endEvent ∧ r.routeChange.endEvent.cues = s.cues.cleared ∧
      r.routeChange.endEvent.holdsReply q := by
  have left := routeChange_left r
  have hc : r.cues = s.cues := by rw [hr]
  refine ⟨routeChange_selected hr (besideCues_refl _) ?_, ?_, endEvent_answered (left.replies hq)⟩
  · rw [left.cues, hc]
    exact ⟨rfl, rfl, rfl, rfl⟩
  · rw [(endEvent_frame _).cues, left.cues, hc]

/-- The end of a selection that begins a load, answered by `q`. -/
theorem beginLoad_ends (hr : r = { s with link := link }) (hq : r.holdsReply q) (route : Nat) (extent : Extent) :
    Selected s (r.routeChange.beginLoad route extent).endEvent ∧
      (r.routeChange.beginLoad route extent).endEvent.cues = { s.cues.cleared with
        routeState := .loading, routeNumber := route, extent := some extent, loadSerial := s.cues.loadSerial + 1
        load := some { serial := s.cues.loadSerial + 1, next := 0, stream := [] } } ∧
      { page := extent.first, use := .route (s.cues.loadSerial + 1) 0 } ∈
        (r.routeChange.beginLoad route extent).endEvent.port.reads ∧
      (r.routeChange.beginLoad route extent).endEvent.holdsReply q := by
  have left := routeChange_left r
  have hc : r.cues = s.cues := by rw [hr]
  have hcues := left.cues
  rw [hc] at hcues
  have cues := beginLoad_cues r.routeChange route extent
  have reads := beginLoad_reads r.routeChange route extent
  have held : (r.routeChange.beginLoad route extent).holdsReply q :=
    beginLoad_replies (left.replies hq) route extent
  rw [hcues] at cues reads
  have selected := routeChange_selected hr (beginLoad_besideCues _ _ _) (by rw [cues]; exact ⟨rfl, rfl, rfl, rfl⟩)
  revert cues reads held selected
  generalize r.routeChange.beginLoad route extent = x
  intro cues reads held selected
  exact ⟨selected, (endEvent_frame x).cues.trans cues, (endEvent_frame x).reads _ reads, endEvent_answered held⟩

end

section
variable {s : State} {tag : Byte}

/-- With no directory reload in progress no selection is refused as busy. -/
theorem reload_idle {route : Nat} (hr : s.store.reload = none) :
    ¬((s.taken 0x14 tag).store.reload.isSome ∧ route ≠ 0) := by
  rw [show (s.taken 0x14 tag).store.reload = none from hr]
  simp

/-- Route 0 is selected (R22). -/
theorem selectNone_taken (h : s.takes 0x14 tag) :
    ∃ t, exec (.selectRoute tag 0) s = .next t ∧ Selected s t ∧ t.cues = s.cues.cleared ∧ s.answered t 0x14 tag .ok := by
  have next : execSelectRoute tag 0 s = .next _ := command_next h _
  rw [if_neg (fun hn => hn.2 rfl), if_pos rfl] at next
  exact ⟨_, next, routeChange_ends (s := s) (link := ((s.taken 0x14 tag).reply 0x14 tag .ok).link) rfl
    (reply_holds _ 0x14 tag .ok .none)⟩

/-- A PRESENT route is selected with no directory reload in progress (R22). -/
theorem selectRoute_taken (h : s.takes 0x14 tag) {route : Nat} {e : RouteEntry} (h0 : route ≠ 0) (hr : s.store.reload = none)
    (he : s.routeEntry route = some e) :
    ∃ t, exec (.selectRoute tag route) s = .next t ∧ Selected s t ∧
      t.cues = { s.cues.cleared with
        routeState := .loading, routeNumber := route, extent := some e.extent, loadSerial := s.cues.loadSerial + 1
        load := some { serial := s.cues.loadSerial + 1, next := 0, stream := [] } } ∧
      { page := e.extent.first, use := .route (s.cues.loadSerial + 1) 0 } ∈ t.port.reads ∧
      s.answered t 0x14 tag .accepted := by
  have next : execSelectRoute tag route s = .next _ := command_next h _
  rw [if_neg (reload_idle hr), if_neg h0, show (s.taken 0x14 tag).routeEntry route = some e from he] at next
  dsimp only at next
  exact ⟨_, next, beginLoad_ends (s := s) (link := ((s.taken 0x14 tag).reply 0x14 tag .accepted).link) rfl
    (reply_holds _ 0x14 tag .accepted .none) route e.extent⟩

/-- A selection of a route while a directory reload is in progress is refused (R22). -/
theorem selectRoute_busy (h : s.takes 0x14 tag) {route : Nat} (h0 : route ≠ 0) (hr : s.store.reload ≠ none) :
    ∃ t, exec (.selectRoute tag route) s = .next t ∧ EventFrame s t ∧ s.answered t 0x14 tag .busy := by
  have answered := command_answered (s := s) (u := s) (kind := 0x14) (tag := tag) (code := .busy) (data := .none) rfl rfl
  refine ⟨((s.taken 0x14 tag).reply 0x14 tag .busy).endEvent, ?_, answered⟩
  have next : execSelectRoute tag route s = .next _ := command_next h _
  refine next.trans ?_
  rw [if_pos ⟨Option.isSome_iff_ne_none.2 hr, h0⟩]

/-- A selection of an ABSENT route is refused (R22). -/
theorem selectRoute_absent (h : s.takes 0x14 tag) {route : Nat} (h0 : route ≠ 0) (hr : s.store.reload = none)
    (he : s.routeEntry route = none) :
    ∃ t, exec (.selectRoute tag route) s = .next t ∧ EventFrame s t ∧ s.answered t 0x14 tag .notFound := by
  have answered := command_answered (s := s) (u := s) (kind := 0x14) (tag := tag) (code := .notFound) (data := .none) rfl rfl
  refine ⟨((s.taken 0x14 tag).reply 0x14 tag .notFound).endEvent, ?_, answered⟩
  have next : execSelectRoute tag route s = .next _ := command_next h _
  refine next.trans ?_
  rw [if_neg (reload_idle hr), if_neg h0, show (s.taken 0x14 tag).routeEntry route = none from he]

end

/-- Settles O21: a taken selection ends as `Selected` says, whichever route it names; the others are refused. -/
theorem routeSelected : Obligations.RouteSelected := by
  refine ⟨fun tag s h => ?taken, fun tag route s h h0 => ?refused⟩
  case taken =>
    intro tracker rest
    have ends : ∀ t, Selected s t → rest t := fun t sel =>
      ⟨sel.tracker, sel.cues, sel.clipSets, sel.scenes, sel.quiet, sel.lights, sel.settings, sel.power, sel.clock, sel.cells,
        sel.mode, sel.directory,
        fun inv => ⟨(sel.silent inv).streams, (sel.silent inv).pending, (sel.silent inv).record, sel.ungranted inv⟩,
        sel.waiting⟩
    refine ⟨?_, fun route e h0 hr he => ?_⟩
    · obtain ⟨t, hn, sel, hc, ha⟩ := selectNone_taken h
      exact ⟨t, hn, ends t sel, by rw [hc]; rfl, by rw [hc]; rfl, by rw [hc]; rfl, by rw [hc]; rfl, ha⟩
    · obtain ⟨t, hn, sel, hc, hp, ha⟩ := selectRoute_taken h h0 hr he
      exact ⟨t, hn, ends t sel, by rw [hc], by rw [hc], by rw [hc], by rw [hc]; exact hp, by rw [hc], ha⟩
  case refused =>
    by_cases hr : s.store.reload = none
    · cases he : s.routeEntry route with
      | none =>
        obtain ⟨t, hn, hf, ha⟩ := selectRoute_absent h h0 hr he
        exact ⟨t, hn, fun hb => absurd hr hb, fun _ _ => ⟨hf, ha⟩⟩
      | some e =>
        obtain ⟨t, hn, -⟩ := selectRoute_taken h h0 hr he
        refine ⟨t, hn, fun hb => absurd hr hb, fun _ hd => absurd ?_ (hd e (List.mem_of_find?_eq_some he))⟩
        simpa using List.find?_some he
    · obtain ⟨t, hn, hb⟩ := selectRoute_busy h h0 hr
      exact ⟨t, hn, fun _ => hb, fun hi => absurd hi hr⟩

end Sys2Proof.Machine
end

section
/-! SUPPORT. The reset state against the invariants that the step lemmas keep (R20, R40, R60, R80, R104, R121, R140, R151,
R166, R178, log 1). -/

namespace Sys2Proof.Machine

/-- Reset holds every seat at R60's values. -/
theorem reset_seat (i : Fin 64) :
    State.reset.seats.seats.get i = { chosen := 0, volume := 8, served := some 0, effective := 8 } := Table.get_fill _ i

/-- Reset holds every light channel dark (R166). -/
theorem reset_channel (i : Fin 16) : State.reset.lights.channels.get i = {} := Table.get_fill _ i

theorem reset_trackerInv : TrackerInv State.reset where
  chainage := by decide
  residue := by decide
  travelResidue := by decide
  windowCount := by decide
  speed := by decide
  detour := by decide
  detourResidue := by decide
  noise := by decide
  correction := by decide
  unplaced _ := ⟨rfl, rfl, rfl⟩
  inDetour _ := rfl
  route _ := rfl
  load h := absurd rfl h

theorem reset_cueInv : CueInv State.reset where
  load h := absurd rfl h
  route _ := rfl
  due h := nomatch h

theorem reset_seatInv : SeatInv State.reset where
  settings := defaults_valid
  volume i := by rw [reset_seat]; decide
  cap i := by rw [reset_seat]
  link i l h := by rw [reset_seat] at h; cases h
  missed b := by
    have box : State.reset.seats.boxes.get b = {} := Table.get_fill _ b
    rw [box]
    decide

theorem reset_derivedInv : DerivedInv State.reset where
  load h := absurd rfl h
  enabled := by decide
  derived := by decide +kernel
  counts := by decide +kernel
  need := by decide
  demand := by decide
  warning := rfl
  microphone := rfl
  cls := rfl

theorem reset_annInv : AnnInv State.reset where
  queue := Nat.zero_le _
  stack := Nat.zero_le _
  empty _ := ⟨rfl, rfl⟩
  suspended := ⟨fun h => (nomatch h), fun ⟨_, h, _⟩ => nomatch h⟩
  silent h := nomatch h
  off := by decide
  behind := by decide

theorem reset_storeInv : StoreInv State.reset where
  cells := reset_cells_wf
  asleep _ := rfl
  write _ h := nomatch h
  checks _ h := nomatch h

theorem reset_faultInv : FaultInv State.reset where
  integrity := Nat.zero_le _
  firstFault := by decide

theorem reset_linkInv : LinkInv State.reset where
  input := Nat.zero_le _
  busy := Nat.zero_le _
  reports := Nat.zero_le _

theorem reset_lightInv : LightInv State.reset where
  settings := defaults_valid
  master := by decide
  scenes _ h := nomatch h
  base i := by rw [reset_channel]; decide
  scene i n h := by rw [reset_channel] at h; cases h
  output i := by rw [reset_channel]; decide
  ramp i r h := by rw [reset_channel] at h; cases h
  duty i := by rw [reset_channel]; decide

/-- Settles O5: one lemma per invariant, each field by field on the reset values. -/
theorem resetMeetsInvariants : Obligations.ResetMeetsInvariants :=
  ⟨defaults_valid, reset_trackerInv, reset_cueInv, reset_seatInv, reset_derivedInv, reset_annInv, reset_storeInv, reset_faultInv,
    reset_linkInv, reset_lightInv⟩

end Sys2Proof.Machine
end

section
/-! SUPPORT. A page of a route load: what its arrival can come to (R25 to R27, R131, R189). -/

namespace Sys2Proof.Machine

section
variable {s : State}

/-! ### The page as read (R25, R131) -/

/-- Reading a page for a load counts a free value and does nothing else. -/
theorem readRoutePage_state (s : State) (page : Nat) (failed : Bool) :
    ∃ n, (s.readRoutePage page failed).2 = { s with freeSerial := n } := by
  unfold State.readRoutePage
  split
  · exact ⟨s.freeSerial, rfl⟩
  · exact readPage_state s page failed

/-- A page that the store reports unreadable, or whose sector is under erase, gives no bytes. -/
theorem readRoutePage_none {page : Nat} {failed : Bool} (h : failed = true ∨ s.store.erasing (page / 512) = true) :
    (s.readRoutePage page failed).1 = none := by
  unfold State.readRoutePage
  split
  · rfl
  · next sound =>
    have unread : failed = true := h.resolve_right sound
    unfold State.readPage
    rw [if_pos (by rw [unread, Bool.true_or])]

/-! ### The ends of a load (R26, R27) -/

theorem failLoad_holds (h : s.link.reports.length < 16) (reason : RouteFailure) :
    (s.failLoad reason).holdsReport (.routeFailed s.cues.routeNumber reason) :=
  report_holds s (.routeFailed s.cues.routeNumber reason) h

/-- The state in which a route that is READY tells its neighbours. -/
def State.routeRead (s : State) (p : RouteProgram) : State :=
  { s with
    cues := { s.cues with
      routeState := .ready, mask := p.mask, cues := p.cues, clipSets := p.clipSets, scenes := p.scenes, load := none } }.report
    (.routeReady s.cues.routeNumber p.cues.length p.clipSets.length p.scenes.length p.mask)

theorem routeReady_settled (s : State) (p : RouteProgram) : Settled (s.routeRead p) (s.routeReady p) :=
  refreshEnabled_settled (s.routeRead p)

theorem routeReady_holds (h : s.link.reports.length < 16) (p : RouteProgram) :
    (s.routeReady p).holdsReport
      (.routeReady s.cues.routeNumber p.cues.length p.clipSets.length p.scenes.length p.mask) := by
  obtain ⟨rs, hl⟩ := (routeReady_settled s p).link
  refine .inl ?_
  rw [hl]
  refine foldl_report_keeps rs _ _ rfl ?_
  show _ ∈ (s.link.report _).reports
  rw [report_room _ _ h]
  exact List.mem_append_right _ (List.mem_singleton_self _)

/-! ### The records read so far (R26, R189) -/

section
variable {extent : Extent} {load : Load} {page : List Byte}

theorem loadPage_done {p : RouteProgram} {rest : List Byte}
    (h : scanRoute s.cues.routeNumber extent.count (load.stream ++ page.take 506) = .done p rest) :
    s.loadPage extent load page = s.routeReady p := by
  unfold State.loadPage
  simp only [h]

/-- Records that break a rule, or run past the last page. -/
theorem loadPage_faulty {r : RecordKind} {i : Nat}
    (h : scanRoute s.cues.routeNumber extent.count (load.stream ++ page.take 506) = .bad r i ∨
      (scanRoute s.cues.routeNumber extent.count (load.stream ++ page.take 506) = .short r i ∧ extent.count ≤ load.next + 1)) :
    s.loadPage extent load page = s.failLoad (.format r i) := by
  unfold State.loadPage
  rcases h with h | ⟨h, last⟩
  · simp only [h]
  · simp only [h, if_pos last]

theorem loadPage_short {r : RecordKind} {i : Nat}
    (h : scanRoute s.cues.routeNumber extent.count (load.stream ++ page.take 506) = .short r i)
    (more : load.next + 1 < extent.count) :
    s.loadPage extent load page =
      { s with
        cues := { s.cues with
          load := some { load with next := load.next + 1, stream := load.stream ++ page.take 506 } } }.postRead
        { page := extent.first + load.next + 1, use := .route load.serial (load.next + 1) } := by
  unfold State.loadPage
  simp only [h, if_neg (Nat.not_le.2 more)]

/-- What a page of a load leaves alone, whatever it comes to. -/
theorem loadPage_leaves (s : State) (extent : Extent) (load : Load) (page : List Byte) :
    (s.loadPage extent load page).tracker = s.tracker ∧ (s.loadPage extent load page).settings = s.settings ∧
      (s.loadPage extent load page).power = s.power ∧ (s.loadPage extent load page).store = s.store := by
  cases h : scanRoute s.cues.routeNumber extent.count (load.stream ++ page.take 506) with
  | done p rest =>
    rw [loadPage_done h]
    have read := routeReady_settled s p
    exact ⟨read.tracker, read.settings, read.power, read.store⟩
  | bad r i =>
    rw [loadPage_faulty (.inl h)]
    exact ⟨rfl, rfl, rfl, rfl⟩
  | short r i =>
    by_cases last : extent.count ≤ load.next + 1
    · rw [loadPage_faulty (.inr ⟨h, last⟩)]
      exact ⟨rfl, rfl, rfl, rfl⟩
    · rw [loadPage_short h (Nat.lt_of_not_le last)]
      exact ⟨rfl, rfl, rfl, rfl⟩

/-! ### The page that a load waits for (R25) -/

variable {number : Nat} {data : Option (List Byte)}

/-- The page a load waits for fails its check. -/
theorem routePage_fault (hl : s.cues.load = some load) (he : s.cues.extent = some extent)
    (h : readFault data s.cues.routeNumber load.next ≠ none) :
    s.routePage load.serial load.next number data = s.failLoad (.check number) := by
  obtain ⟨f, hf⟩ := Option.ne_none_iff_exists'.1 h
  unfold State.routePage
  simp only [hl, he, hf, and_self, if_true]

/-- The page a load waits for passes its check. -/
theorem routePage_good (hl : s.cues.load = some load) (he : s.cues.extent = some extent)
    (h : readFault data s.cues.routeNumber load.next = none) :
    s.routePage load.serial load.next number data = s.loadPage extent load (data.getD []) := by
  unfold State.routePage
  simp only [hl, he, h, and_self, if_true]

end

/-- The state in which an arrived page of a route load is taken. -/
theorem routePageArrival_next (failed : Bool) {page serial index : Nat} (hr : s.running = true)
    (hs : s.port.serving = some { page := page, use := .route serial index }) :
    ∃ n, exec (.routePageArrival failed) s =
      .next (({ s with freeSerial := n } : State).portDone.routePage serial index page (s.readRoutePage page failed).1).endEvent := by
  obtain ⟨n, hn⟩ := readRoutePage_state s page failed
  have next : execRoutePageArrival failed s = .next _ := event_next s _ hr
  simp only [hs, hn] at next
  exact ⟨n, next⟩

end

/-- Settles O22: the check decides first, then what the scan of the records read so far says. -/
theorem routePageTaken : Obligations.RoutePageTaken := by
  intro failed s page serial index load extent hr hs hl hserial hnext he data stream ended
  subst hserial hnext
  obtain ⟨n, next⟩ := routePageArrival_next failed hr hs
  have unread : failed = true ∨ s.store.erasing (page / 512) = true → data = none := readRoutePage_none
  let w : State := ({ s with freeSerial := n } : State).portDone
  have fails : ∀ reason t, EventFrame (w.failLoad reason) t →
      ended t ∧ (s.link.reports.length < 16 → t.holdsReport (.routeFailed s.cues.routeNumber reason)) := fun reason t f =>
    ⟨by simp only [ended, f.cues]; exact ⟨rfl, rfl, rfl, rfl, rfl, rfl⟩,
      fun room => f.reports _ rfl (failLoad_holds (s := w) room reason)⟩
  have frame := endEvent_frame (w.routePage load.serial load.next page data)
  refine ⟨_, next, ?_⟩
  cases fault : readFault data s.cues.routeNumber load.next with
  | some f =>
    have taken : w.routePage load.serial load.next page data = w.failLoad (.check page) :=
      routePage_fault (s := w) hl he (fault ▸ nofun)
    rw [taken] at frame ⊢
    exact ⟨frame.tracker, frame.settings, frame.power, frame.cells, unread, fun _ => fails _ _ frame, nofun⟩
  | none =>
    have taken : w.routePage load.serial load.next page data = w.loadPage extent load (data.getD []) :=
      routePage_good (s := w) hl he fault
    obtain ⟨tracker, settings, power, store⟩ := loadPage_leaves w extent load (data.getD [])
    rw [taken] at frame ⊢
    refine ⟨frame.tracker.trans tracker, frame.settings.trans settings, frame.power.trans power,
      frame.cells.trans (congrArg Store.cells store), unread, fun h => absurd rfl h, fun _ => ⟨fun r i h => ?_, fun p rest h => ?_,
      fun r i h more => ?_⟩⟩
    · rw [loadPage_faulty (s := w) h] at frame ⊢
      exact fails _ _ frame
    · rw [loadPage_done (s := w) h] at frame ⊢
      exact ⟨frame.cues.trans (routeReady_settled w p).cues, fun room => frame.reports _ rfl (routeReady_holds (s := w) room p)⟩
    · rw [loadPage_short (s := w) h more] at frame ⊢
      refine ⟨frame.cues, frame.reads _ ?_⟩
      simp [Port.reads]

end Sys2Proof.Machine
end

section
/-! SUPPORT. The cue table after FORCE_CUE, the advance rule and the jump rules (R30 to R35). -/

namespace Sys2Proof.Machine

/-! ### The advance rule (R30) -/

/-- What the advance rule makes of a cue of a READY route. -/
def State.advanced (s : State) (c : Cue) : Cue :=
  if s.tracker.state = .placed ∧ s.store.mode = .run ∧ c.state = .armed ∧ s.trigger c ≤ s.tracker.chainage then
    { c with state := .fired }
  else c

theorem cueDue_iff {s : State} {n : Nat} :
    s.cueDue n = true ↔ ∃ c, s.cues.cues[n]? = some c ∧ c.state = .armed ∧ s.trigger c ≤ s.tracker.chainage := by
  unfold State.cueDue
  cases s.cues.cues[n]? <;> simp

theorem mem_dueCues_iff {s : State} {n : Nat} :
    n ∈ s.dueCues ↔ ∃ c, s.cues.cues[n]? = some c ∧ c.state = .armed ∧ s.trigger c ≤ s.tracker.chainage := by
  rw [mem_dueCues, cueDue_iff]
  refine and_iff_right_of_imp fun ⟨c, hc, _⟩ => ?_
  exact (List.getElem?_eq_some_iff.1 hc).1

/-- The order in which due cues fire: ascending anchors, and among equal anchors ascending numbers. -/
def State.firesBefore (s : State) (m n : Nat) : Prop :=
  s.anchorOf m < s.anchorOf n ∨ (s.anchorOf m = s.anchorOf n ∧ m < n)

/-- A number below all of an ordered list keeps the order where it is put. -/
theorem insertByAnchor_ordered {s : State} {n : Nat} {l : List Nat} (hn : ∀ m ∈ l, n < m) (hl : l.Pairwise s.firesBefore) :
    (s.insertByAnchor n l).Pairwise s.firesBefore := by
  induction l with
  | nil => exact List.pairwise_singleton _ _
  | cons m rest ih =>
    obtain ⟨first, ordered⟩ := List.pairwise_cons.1 hl
    unfold State.insertByAnchor
    split
    · next le =>
      refine List.pairwise_cons.2 ⟨fun k hk => ?_, hl⟩
      have after : s.anchorOf m ≤ s.anchorOf k := by
        rcases List.mem_cons.1 hk with rfl | hk
        · exact le_rfl
        · exact (first k hk).elim le_of_lt fun h => h.1.le
      rcases (le.trans after).lt_or_eq with lt | eq
      · exact .inl lt
      · exact .inr ⟨eq, hn k hk⟩
    · next lt =>
      refine List.pairwise_cons.2 ⟨fun k hk => ?_, ih (fun k hk => hn k (List.mem_cons_of_mem _ hk)) ordered⟩
      rcases List.mem_cons.1 ((insertByAnchor_perm s n rest).mem_iff.1 hk) with rfl | hk
      · exact .inl (Nat.lt_of_not_le lt)
      · exact first k hk

theorem dueCues_ordered (s : State) : s.dueCues.Pairwise s.firesBefore := by
  unfold State.dueCues
  have numbers : ((List.range s.cues.cues.length).filter s.cueDue).Pairwise (· < ·) := List.pairwise_lt_range.filter _
  revert numbers
  generalize (List.range s.cues.cues.length).filter s.cueDue = l
  intro numbers
  suffices h : (l.foldr s.insertByAnchor []).Pairwise s.firesBefore ∧ (l.foldr s.insertByAnchor []).Perm l from h.1
  induction l with
  | nil => exact ⟨.nil, .refl _⟩
  | cons n l ih =>
    obtain ⟨below, numbers⟩ := List.pairwise_cons.1 numbers
    obtain ⟨ordered, perm⟩ := ih numbers
    exact ⟨insertByAnchor_ordered (fun m hm => below m (perm.mem_iff.1 hm)) ordered,
      (insertByAnchor_perm s n _).trans (perm.cons n)⟩

/-- Acts whose cue table is known cue by cue have changed that table alone of the cue engine. -/
theorem Acts.cues_eq_map {s t : State} (h : Acts s t) {f : Cue → Cue}
    (hf : ∀ i : Nat, t.cues.cues[i]? = (s.cues.cues[i]?).map f) : t.cues = { s.cues with cues := s.cues.cues.map f } := by
  have table : t.cues.cues = s.cues.cues.map f := List.ext_getElem? fun i => by rw [hf, List.getElem?_map]
  have rest := h.cueTable
  calc t.cues = { ({ t.cues with cues := [] } : CueEngine) with cues := t.cues.cues } := rfl
    _ = { s.cues with cues := s.cues.cues.map f } := by rw [rest, table]

/-- The advance rule does nothing on a route that is not READY, for a tracker that is not PLACED, and outside RUN. -/
theorem advance_idle {s : State} (h : s.cues.routeState ≠ .ready ∨ s.tracker.state ≠ .placed ∨ s.store.mode ≠ .run) :
    s.advance = s := by
  unfold State.advance
  rw [if_neg (by tauto)]

theorem advance_fires {s : State} (hr : s.cues.routeState = .ready) (hp : s.tracker.state = .placed)
    (hm : s.store.mode = .run) : s.advance = s.dueCues.foldl (State.fireCue false) s := by
  unfold State.advance
  rw [if_pos ⟨hr, hp, hm⟩]

/-- The cues of a READY route after the advance rule. -/
theorem advance_cues {s : State} (hr : s.cues.routeState = .ready) :
    s.advance.cues = { s.cues with cues := s.cues.cues.map s.advanced } := by
  refine (advance_acts (.refl s)).cues_eq_map fun i => ?_
  by_cases active : s.tracker.state = .placed ∧ s.store.mode = .run
  · rw [advance_fires hr active.1 active.2, foldl_fireCue_get]
    refine Option.map_congr fun c hc => ?_
    have due : i ∈ s.dueCues ↔ c.state = .armed ∧ s.trigger c ≤ s.tracker.chainage := by simp [mem_dueCues_iff, hc]
    simp only [due, State.advanced, active, true_and]
  · have still : s.advanced = id := funext fun c => if_neg fun h => active ⟨h.1, h.2.1⟩
    rw [advance_idle (by tauto), still, Option.map_id, id]

/-- The advance rule after acts that have changed the cue table alone. -/
theorem Acts.advance_cues {s t : State} (h : Acts s t) (hr : s.cues.routeState = .ready) {f : Cue → Cue}
    (hc : t.cues = { s.cues with cues := s.cues.cues.map f }) :
    t.advance.cues = { s.cues with cues := s.cues.cues.map fun c => s.advanced (f c) } := by
  have same : t.advanced = s.advanced := by
    funext c
    unfold State.advanced
    rw [h.tracker, h.store, trigger_congr (t := t) (s := s) (by rw [h.tracker]) (by rw [h.settings]) (by rw [h.settings])]
  rw [Machine.advance_cues (h.routeState.trans hr), same, hc, List.map_map]
  rfl

/-! ### Jumps (R31, R32) -/

/-- What a forward jump makes of a cue before the advance rule. -/
def State.skipped (s : State) (c : Cue) : Cue :=
  if c.state = .armed ∧ c.lateEnd < s.tracker.chainage then { c with state := .skipped } else c

/-- What a backward jump of at least the re-arm distance makes of a cue before the advance rule. -/
def State.rearmed (s : State) (c : Cue) : Cue := if s.rearms c then { c with state := .armed } else c

theorem skipped_skipped (s : State) (c : Cue) : s.skipped (s.skipped c) = s.skipped c := by
  unfold State.skipped
  by_cases h : c.state = .armed ∧ c.lateEnd < s.tracker.chainage <;> simp [h]

theorem skipCue_get (s : State) (n i : Nat) :
    (s.skipCue n).cues.cues[i]? = (s.cues.cues[i]?).map fun c => if i = n then s.skipped c else c := by
  rw [skipCue_cues]
  cases hn : s.cues.cues[n]? with
  | none =>
    by_cases hi : i = n
    · subst hi; simp [hn]
    · simp [hi]
  | some c =>
    have inside : n < s.cues.cues.length := (List.getElem?_eq_some_iff.1 hn).1
    by_cases hi : i = n
    · subst hi
      simp only [State.skipped, hn, Option.map_some, if_true]
      split
      · rw [List.getElem?_set_self inside]
      · exact hn
    · simp only [if_neg hi, Option.map_id']
      split
      · exact List.getElem?_set_ne (Ne.symm hi)
      · rfl

/-- The cues named have been tried by the jump rule, the others are as they were. -/
theorem foldl_skipCue_get (l : List Nat) (s : State) (i : Nat) :
    (l.foldl State.skipCue s).cues.cues[i]? = (s.cues.cues[i]?).map fun c => if i ∈ l then s.skipped c else c := by
  induction l generalizing s with
  | nil => simp
  | cons n l ih =>
    have same : (s.skipCue n).skipped = s.skipped := by
      funext c
      unfold State.skipped
      rw [skipCue_tracker]
    rw [List.foldl_cons, ih, same, skipCue_get, Option.map_map]
    refine Option.map_congr fun c _ => ?_
    by_cases hi : i = n <;> by_cases hl : i ∈ l <;> simp [hi, hl, skipped_skipped]

theorem jumpForward_cues {s : State} (hr : s.cues.routeState = .ready) :
    s.jumpForward.cues = { s.cues with cues := s.cues.cues.map fun c => s.advanced (s.skipped c) } := by
  have acts : Acts s ((List.range s.cues.cues.length).foldl State.skipCue s) :=
    .fold (fun t n => skipCue_acts (.refl t) n) _ (.refl s)
  unfold State.jumpForward
  rw [if_pos hr]
  refine acts.advance_cues hr (acts.cues_eq_map fun i => ?_)
  rw [foldl_skipCue_get]
  refine Option.map_congr fun c hc => if_pos (List.mem_range.2 (List.getElem?_eq_some_iff.1 hc).1)

theorem rearm_cues (s : State) : s.rearm.cues = { s.cues with cues := s.cues.cues.map s.rearmed } := by
  unfold State.rearm
  dsimp only
  split
  · next unmoved =>
    have still : s.cues.cues.map s.rearmed = s.cues.cues := by
      refine (List.map_congr_left fun c hc => if_neg fun back => ?_).trans (List.map_id _)
      obtain ⟨n, hn⟩ := List.mem_iff_getElem?.1 hc
      have numbered := List.filter_eq_nil_iff.1 unmoved n (List.mem_range.2 (List.getElem?_eq_some_iff.1 hn).1)
      exact numbered (by rw [hn]; exact back)
    rw [still]
  · rfl

theorem jumpBackward_far {s : State} (hr : s.cues.routeState = .ready) {distance : Nat}
    (hd : s.settings.rearmDistance ≤ distance) :
    (s.jumpBackward distance).cues = { s.cues with cues := s.cues.cues.map fun c => s.advanced (s.rearmed c) } := by
  unfold State.jumpBackward
  rw [if_pos hr, if_pos hd]
  exact (rearm_acts (.refl s)).advance_cues hr (rearm_cues s)

theorem jumpBackward_near {s : State} (hr : s.cues.routeState = .ready) {distance : Nat}
    (hd : distance < s.settings.rearmDistance) :
    (s.jumpBackward distance).cues = { s.cues with cues := s.cues.cues.map s.advanced } := by
  unfold State.jumpBackward
  rw [if_pos hr, if_neg (by omega), advance_cues hr]

/-! ### FORCE_CUE (R34) -/

section
variable {s : State} {tag : Byte} {n : Nat}

/-- With the route READY and the mode RUN the first test of FORCE_CUE refuses nothing. -/
theorem forceCue_allowed (hr : s.cues.routeState = .ready) (hm : s.store.mode = .run) :
    ¬((s.taken 0x16 tag).cues.routeState ≠ .ready ∨ (s.taken 0x16 tag).store.mode = .service) := by
  simp [State.taken, hr, hm]

/-- A forced cue of a route that is not READY, or in SERVICE, is refused. -/
theorem forceCue_refused (h : s.takes 0x16 tag) (hr : s.cues.routeState ≠ .ready ∨ s.store.mode = .service) :
    ∃ t, exec (.forceCue tag n) s = .next t ∧ EventFrame s t ∧ s.answered t 0x16 tag .wrongState := by
  have next : execForceCue tag n s = .next _ := command_next h _
  rw [if_pos (show (s.taken 0x16 tag).cues.routeState ≠ .ready ∨ (s.taken 0x16 tag).store.mode = .service from hr)] at next
  exact ⟨_, next, command_answered (u := s) rfl rfl⟩

/-- A number that no cue has is refused. -/
theorem forceCue_missing (h : s.takes 0x16 tag) (hr : s.cues.routeState = .ready) (hm : s.store.mode = .run)
    (hn : s.cues.cues.length ≤ n) :
    ∃ t, exec (.forceCue tag n) s = .next t ∧ EventFrame s t ∧ s.answered t 0x16 tag .notFound := by
  have next : execForceCue tag n s = .next _ := command_next h _
  rw [if_neg (forceCue_allowed hr hm), show (s.taken 0x16 tag).cues.cues[n]? = none from List.getElem?_eq_none hn] at next
  exact ⟨_, next, command_answered (u := s) rfl rfl⟩

/-- A cue that is not ARMED is refused. -/
theorem forceCue_spent (h : s.takes 0x16 tag) (hr : s.cues.routeState = .ready) (hm : s.store.mode = .run) {c : Cue}
    (hc : s.cues.cues[n]? = some c) (ha : c.state ≠ .armed) :
    ∃ t, exec (.forceCue tag n) s = .next t ∧ EventFrame s t ∧ s.answered t 0x16 tag .wrongState := by
  have next : execForceCue tag n s = .next _ := command_next h _
  rw [if_neg (forceCue_allowed hr hm), show (s.taken 0x16 tag).cues.cues[n]? = some c from hc] at next
  dsimp only at next
  rw [if_neg ha] at next
  exact ⟨_, next, command_answered (u := s) rfl rfl⟩

/-- An ARMED cue is answered OK and fires, with only the link changed before it does. -/
theorem forceCue_fires (h : s.takes 0x16 tag) (hr : s.cues.routeState = .ready) (hm : s.store.mode = .run) {c : Cue}
    (hc : s.cues.cues[n]? = some c) (ha : c.state = .armed) :
    ∃ t l, exec (.forceCue tag n) s = .next t ∧ s.answered t 0x16 tag .ok ∧ LinkFrame s.link l ∧
      l.reports = s.link.reports ∧ EventFrame (State.fireCue true { s with link := l } n) t := by
  have next : execForceCue tag n s = .next _ := command_next h _
  rw [if_neg (forceCue_allowed hr hm), show (s.taken 0x16 tag).cues.cues[n]? = some c from hc] at next
  dsimp only at next
  rw [if_pos ha] at next
  exact ⟨_, ((s.taken 0x16 tag).reply 0x16 tag .ok).link, next, acts_answered (fireCue_acts (.refl _) true n),
    (taken_frame s _ _).trans (reply_frame _ _ _ _ _), rfl, endEvent_frame _⟩

end

/-- Settles O23: the advance rule fires `dueCues` and nothing else, and the jump rules are a map over the cues before it. -/
theorem cueRules : Obligations.CueRules := by
  refine ⟨fun tag n s h => ?forced, ⟨fun s => ⟨fun hr hp hm => ?fires, fun h => ?idle⟩, fun s distance hr => ?jumps⟩⟩
  case forced =>
    by_cases hs : s.cues.routeState ≠ .ready ∨ s.store.mode = .service
    · obtain ⟨t, hn, f, ha⟩ := forceCue_refused (n := n) h hs
      have shut : s.cues.routeState = .ready → s.store.mode = .run → False := fun hr hm =>
        forceCue_allowed (tag := tag) hr hm hs
      exact ⟨t, hn, f.tracker, f.settings, f.power, f.cells, fun _ => ⟨f, ha⟩, fun hr hm => (shut hr hm).elim,
        fun _ hr hm => (shut hr hm).elim⟩
    · obtain ⟨hr, service⟩ := not_or.1 hs
      rw [not_not] at hr
      have hm : s.store.mode = .run := by cases hm : s.store.mode <;> simp_all
      cases hc : s.cues.cues[n]? with
      | none =>
        obtain ⟨t, hn, f, ha⟩ := forceCue_missing h hr hm (List.getElem?_eq_none_iff.1 hc)
        exact ⟨t, hn, f.tracker, f.settings, f.power, f.cells, fun h => absurd h hs, fun _ _ _ => ⟨f, ha⟩,
          fun _ _ _ h => nomatch h⟩
      | some c =>
        have inside : n < s.cues.cues.length := (List.getElem?_eq_some_iff.1 hc).1
        by_cases armed : c.state = .armed
        · obtain ⟨t, l, hn, ha, hl, reports, f⟩ := forceCue_fires h hr hm hc armed
          have acts := fireCue_acts (.refl ({ s with link := l } : State)) true n
          have cues := fireCue_cues true ({ s with link := l } : State) n
          simp only [hc] at cues
          refine ⟨t, hn, f.tracker.trans acts.tracker, f.settings.trans acts.settings, f.power.trans acts.power,
            f.cells.trans (congrArg Store.cells acts.store), fun h => absurd h hs,
            fun _ _ hn => absurd inside (Nat.not_lt.2 hn), fun d _ _ hd => ?_⟩
          obtain rfl : c = d := Option.some.inj hd
          exact ⟨fun h => absurd armed h, fun _ => ⟨f.cues.trans cues, ha, l, hl, reports, f⟩⟩
        · obtain ⟨t, hn, f, ha⟩ := forceCue_spent h hr hm hc armed
          refine ⟨t, hn, f.tracker, f.settings, f.power, f.cells, fun h => absurd h hs,
            fun _ _ hn => absurd inside (Nat.not_lt.2 hn), fun d _ _ hd => ?_⟩
          obtain rfl : c = d := Option.some.inj hd
          exact ⟨fun _ => ⟨f, ha⟩, fun h => absurd h armed⟩
  case fires =>
    have acts := advance_acts (.refl s)
    have firing : s.advanced = fun c => if c.state = .armed ∧ c.anchor - s.lead c.mark ≤ s.tracker.chainage then
        { c with state := .fired } else c := by
      funext c
      simp only [State.advanced, hp, hm, true_and]
      rfl
    exact ⟨firing ▸ advance_cues hr, advance_fires hr hp hm, fun n => mem_dueCues_iff, dueCues_ordered s, acts.tracker,
      acts.seats, acts.settings, acts.store⟩
  case idle => exact advance_idle (h.imp_right (Or.imp_right fun h => by rw [h]; decide))
  case jumps =>
    have rearming : s.rearmed = fun c => if c.state ≠ .armed ∧ s.tracker.chainage < c.anchor then
        { c with state := .armed } else c := by
      funext c
      simp [State.rearmed, State.rearms]
    exact ⟨jumpForward_cues hr, fun hd => rearming ▸ jumpBackward_far hr hd, jumpBackward_near hr⟩

end Sys2Proof.Machine
end

section
/-! SUPPORT. What commentary leaves alone when it starts no voice: firings, placements, demand and suspension (R62 to R72). -/

namespace Sys2Proof.Machine

/-- A voice is FREE after a release exactly if it was before (R105). -/
theorem Voice.released_free (v : Voice) : v.released.state = .free ↔ v.state = .free := by
  unfold Voice.released
  cases h : v.state <;> simp [h]

/-- From `s` to `t` commentary alone has acted, and no voice has been started or become FREE. -/
structure Commented (s t : State) : Prop where
  rest : t = { s with comm := t.comm, voices := t.voices, link := t.link }
  free : ∀ w, (t.voice w).state = .free ↔ (s.voice w).state = .free

namespace Commented
variable {s t u : State}

theorem refl (s : State) : Commented s s := ⟨rfl, fun _ => Iff.rfl⟩

theorem trans (h : Commented s t) (g : Commented t u) : Commented s u where
  rest := g.rest.trans (by rw [h.rest])
  free w := (g.free w).trans (h.free w)

/-- An update of commentary, the requests and the link. -/
theorem update (h : Commented s t) (comm : Commentary) (requests : List Requester) (link : Link) :
    Commented s { t with comm := comm, voices := { t.voices with requests := requests }, link := link } :=
  h.trans ⟨rfl, fun _ => Iff.rfl⟩

theorem fold {α : Type} {f : State → α → State} (hf : ∀ t a, Commented t (f t a)) (l : List α) (h : Commented s t) :
    Commented s (l.foldl f t) := by
  induction l generalizing t with
  | nil => exact h
  | cons a l ih => exact ih (h.trans (hf t a))

theorem foldPair {α β : Type} {f : State × β → α → State × β} (hf : ∀ p a, Commented p.1 (f p a).1) (l : List α)
    {p : State × β} (h : Commented s p.1) : Commented s (l.foldl f p).1 := by
  induction l generalizing p with
  | nil => exact h
  | cons a l ih => exact ih (h.trans (hf p a))

theorem clock (h : Commented s t) : t.clock = s.clock := by rw [h.rest]
theorem ann (h : Commented s t) : t.ann = s.ann := by rw [h.rest]
theorem lights (h : Commented s t) : t.lights = s.lights := by rw [h.rest]
theorem mixer (h : Commented s t) : t.mixer = s.mixer := by rw [h.rest]

theorem allFree (h : Commented s t) : t.allFree = s.allFree := by
  rw [Bool.eq_iff_iff, State.allFree, State.allFree, Table.all_iff, Table.all_iff]
  simp only [decide_eq_true_eq]
  exact forall_congr' h.free

/-! ### Streams, firings and requests -/

theorem setStream (h : Commented s t) (i : Fin 12) (f : Stream → Stream) : Commented s (t.setStream i f) := h.update _ _ _

theorem commReport (h : Commented s t) (e : CommentaryEvent) (cue : Nat) : Commented s (t.commReport e cue) := h.update _ _ _

theorem withdraw (h : Commented s t) (r : Requester) : Commented s (t.withdraw r) := h.update _ _ _

theorem askVoice (h : Commented s t) (r : Requester) : Commented s (t.askVoice r) := by
  unfold State.askVoice
  split
  · exact h
  · exact h.update _ _ _

theorem settleEngine (h : Commented s t) : Commented s t.settleEngine := by
  obtain ⟨state, hs, -⟩ := settleEngine_comm t
  rw [hs]
  exact h.update _ _ _

theorem beginFiring (h : Commented s t) (firing : Nat) : Commented s (t.beginFiring firing) := by
  unfold State.beginFiring
  split
  · exact h
  · split
    · exact h
    · exact h.update _ _ _

theorem loseSegment (h : Commented s t) (firing : Nat) : Commented s (t.loseSegment firing) := by
  unfold State.loseSegment
  split
  · exact h
  · split
    · dsimp only
      split <;> exact h.update _ _ _
    · exact h.update _ _ _

theorem dropSegment (h : Commented s t) (told : List Nat) (cause : DropCause) (g : Segment) :
    Commented s (t.dropSegment told cause g).1 := by
  unfold State.dropSegment
  split
  · exact h.loseSegment _
  · exact (h.commReport _ _).loseSegment _

/-! ### A stream's life (R67 to R71) -/

theorem endDelay (h : Commented s t) (i : Fin 12) : Commented s (t.endDelay i) := by
  unfold State.endDelay
  split
  · exact h
  · dsimp only
    split
    · exact ((h.beginFiring _).setStream _ _).askVoice _
    · exact (h.beginFiring _).setStream _ _

theorem makeCurrent (h : Commented s t) (i : Fin 12) (g : Segment) : Commented s (t.makeCurrent i g) := by
  unfold State.makeCurrent
  dsimp only
  split
  · exact (h.setStream _ _).endDelay _
  · exact h.setStream _ _

theorem finishSegment (h : Commented s t) (i : Fin 12) : Commented s (t.finishSegment i) := by
  unfold State.finishSegment
  split
  · exact h
  · next g _ =>
    have left := ((h.withdraw (.stream i)).setStream i fun r =>
      { r with state := .quiet, current := none, next := none, voice := none }).loseSegment g.firing
    dsimp only
    split
    · exact left.settleEngine
    · exact (left.makeCurrent _ _).settleEngine

theorem gainDemand (h : Commented s t) (i : Fin 12) : Commented s (t.gainDemand i) := by
  unfold State.gainDemand
  split
  · split
    · exact (h.setStream _ _).askVoice _
    · exact h.finishSegment _
  · exact h

theorem release (h : Commented s t) (v : Fin 16) : Commented s (t.release v) := by
  refine h.trans ⟨rfl, fun w => ?_⟩
  rw [voice_release]
  split
  · exact Voice.released_free _
  · exact Iff.rfl

theorem letGo (h : Commented s t) (i : Fin 12) : Commented s (t.letGo i) := by
  unfold State.letGo
  dsimp only
  split
  · exact ((h.withdraw _).setStream _ _).release _
  · exact (h.withdraw _).setStream _ _

theorem loseDemand (h : Commented s t) (i : Fin 12) : Commented s (t.loseDemand i) := by
  unfold State.loseDemand
  split
  · exact (h.letGo i).setStream _ _
  · exact (h.letGo i).setStream _ _
  · exact h

theorem deriveDemand (h : Commented s t) : Commented s t.deriveDemand := by
  refine .fold (fun t i => ?_) _ h
  have demand : Commented t (t.setStream i fun r => { r with demand := t.demandNow i }) := (refl t).setStream _ _
  unfold State.deriveDemandOf
  dsimp only
  split
  · exact refl t
  · split
    · exact demand.gainDemand i
    · exact demand.loseDemand i

/-! ### Placement and suspension (R64, R65, R72) -/

theorem placeSegment (p : State × List Nat) (q : Fin 12 × Segment) : Commented p.1 (State.placeSegment p q).1 := by
  unfold State.placeSegment
  dsimp only
  split
  · exact (refl p.1).makeCurrent _ _
  · split
    · exact (refl p.1).setStream _ _
    · exact ((refl p.1).setStream _ _).dropSegment _ _ _

theorem place (h : Commented s t) (cue mark : Nat) (fit : Option Nat) (set : ClipSet) :
    Commented s (t.place cue mark fit set) := by
  unfold State.place
  dsimp only
  split
  · exact h
  · exact settleEngine (.foldPair placeSegment _ (h.update _ _ _))

theorem fireCommentary (h : Commented s t) (cue mark : Nat) (set : ClipSet) :
    Commented s (t.fireCommentary cue mark set) := by
  unfold State.fireCommentary
  split
  · dsimp only
    split
    · exact h.update _ _ _
    · exact h.update _ _ _
  · exact h.place _ _ _ _

theorem suspendStream (p : State × List SuspendEntry) (i : Fin 12) : Commented p.1 (State.suspendStream p i).1 := by
  have left : Commented p.1 ((p.1.letGo i).setStream i fun r => { r with state := .quiet, current := none, next := none }) :=
    ((refl p.1).letGo i).setStream _ _
  unfold State.suspendStream
  dsimp only
  split
  · exact refl p.1
  · generalize (if (p.1.stream i).state = .delay then 0 else _) = page
    split
    · exact left
    · exact left.loseSegment _

theorem suspend (h : Commented s t) : Commented s t.suspend := by
  unfold State.suspend
  split
  · exact h
  · have streams := foldPair suspendStream allSlots (p := (t, [])) h
    revert streams
    generalize allSlots.foldl State.suspendStream (t, []) = p
    intro streams
    exact streams.update _ p.1.voices.requests p.1.link

end Commented

theorem suspend_state (s : State) : s.suspend.comm.state = .suspended := by
  unfold State.suspend
  split
  · assumption
  · rfl

end Sys2Proof.Machine
end

section
/-! SUPPORT. The placement of a firing, stream by stream (R64, R65, R67). -/

namespace Sys2Proof.Machine

/-- A stream that is given a segment: it becomes current, in DELAY or where the end of the delay leads, or the next one. -/
def Stream.given (r : Stream) (now : Clock) (g : Segment) : Stream :=
  match r.current with
  | none =>
    { r with
      current := some g
      state := if reached now g.start = true then (if r.demand = true then .waitVoice else .quiet) else .delay }
  | some _ => { r with next := some g }

theorem given_none {r : Stream} (h : r.current = none) (now : Clock) (g : Segment) :
    r.given now g =
      { r with
        current := some g
        state := if reached now g.start = true then (if r.demand = true then .waitVoice else .quiet) else .delay } := by
  unfold Stream.given
  split
  · rfl
  · next hc => rw [h] at hc; cases hc

theorem given_behind {r : Stream} (h : r.current ≠ none) (now : Clock) (g : Segment) :
    r.given now g = { r with next := some g } := by
  unfold Stream.given
  split
  · next hc => exact absurd hc h
  · rfl

theorem given_current (r : Stream) (now : Clock) (g : Segment) : (r.given now g).current.isSome = true := by
  unfold Stream.given
  split
  · rfl
  · next h => rw [h]; rfl

/-- From `s` to `t` stream `i` alone has changed, by `f`; the engine state is as it was and no request has gone. -/
structure StreamStep (s t : State) (i : Fin 12) (f : Stream → Stream) : Prop where
  stream : ∀ j, t.stream j = if i = j then f (s.stream j) else s.stream j
  engine : t.comm.state = s.comm.state
  requests : ∀ r ∈ s.voices.requests, r ∈ t.voices.requests

/-- A step that changes stream `i` further. -/
theorem StreamStep.trans {s t u : State} {i : Fin 12} {f g h : Stream → Stream} (a : StreamStep s t i f)
    (b : StreamStep t u i g) (hg : g (f (s.stream i)) = h (s.stream i)) : StreamStep s u i h where
  stream j := by
    rw [b.stream, a.stream]
    split
    · next hj => subst hj; exact hg
    · rfl
  engine := b.engine.trans a.engine
  requests r hr := b.requests r (a.requests r hr)

section
variable (s : State) (i : Fin 12)

theorem setStream_step (f : Stream → Stream) : StreamStep s (s.setStream i f) i f :=
  ⟨fun j => stream_setStream s i j f, rfl, fun _ => id⟩

/-- An update of the cue list and the link changes no stream. -/
theorem cueList_step {t : State} (hc : ∃ list, t.comm = { s.comm with cueList := list }) (hv : t.voices = s.voices) :
    StreamStep s t i id := by
  obtain ⟨list, hc⟩ := hc
  refine ⟨fun j => ?_, by rw [hc], fun r hr => by rw [hv]; exact hr⟩
  unfold State.stream
  rw [hc, id, ite_self]

theorem loseSegment_step (firing : Nat) : StreamStep s (s.loseSegment firing) i id :=
  cueList_step s i (loseSegment_comm s firing) (loseSegment_voices s firing)

theorem beginFiring_step (firing : Nat) : StreamStep s (s.beginFiring firing) i id := by
  unfold State.beginFiring
  split
  · exact cueList_step s i ⟨_, rfl⟩ rfl
  · split
    · exact cueList_step s i ⟨_, rfl⟩ rfl
    · exact cueList_step s i ⟨_, rfl⟩ rfl

theorem dropSegment_step (told : List Nat) (cause : DropCause) (g : Segment) :
    StreamStep s (s.dropSegment told cause g).1 i id := by
  unfold State.dropSegment
  split
  · exact loseSegment_step s i _
  · have told : StreamStep s (s.commReport (.dropped cause) g.cue) i id := cueList_step s i ⟨_, rfl⟩ rfl
    exact told.trans (loseSegment_step _ i g.firing) rfl

theorem mem_askVoice {r q : Requester} : q ∈ (s.askVoice r).voices.requests ↔ q ∈ s.voices.requests ∨ q = r := by
  unfold State.askVoice
  split
  · next h =>
    refine ⟨.inl, fun hq => hq.elim id fun hq => ?_⟩
    subst hq
    simpa using h
  · simp

theorem askVoice_step (r : Requester) : StreamStep s (s.askVoice r) i id :=
  ⟨fun j => by rw [id, ite_self, State.stream, askVoice_comm]; rfl, by rw [askVoice_comm],
    fun _ hq => (mem_askVoice s).2 (.inl hq)⟩

/-- The end of a delay (R67). -/
theorem endDelay_step {g : Segment} (h : (s.stream i).current = some g) :
    StreamStep s (s.endDelay i) i fun r => { r with state := if r.demand = true then .waitVoice else .quiet } := by
  have started := beginFiring_step s i g.firing
  have same : (s.beginFiring g.firing).stream i = s.stream i := by rw [started.stream, if_pos rfl, id]
  unfold State.endDelay
  simp only [h]
  split
  · next hd =>
    rw [same] at hd
    exact (started.trans (setStream_step _ i _) (h := fun r => { r with state := .waitVoice }) rfl).trans (askVoice_step _ i _)
      (by rw [if_pos hd]; rfl)
  · next hd =>
    rw [same] at hd
    exact started.trans (setStream_step _ i _) (by rw [if_neg hd]; rfl)

/-- With demand the end of a delay asks for a voice (R67). -/
theorem endDelay_asks {g : Segment} (h : (s.stream i).current = some g) (hd : (s.stream i).demand = true) :
    .stream i ∈ (s.endDelay i).voices.requests := by
  have same : (s.beginFiring g.firing).stream i = s.stream i := by
    rw [(beginFiring_step s i g.firing).stream, if_pos rfl, id]
  unfold State.endDelay
  simp only [h, same, hd, if_true]
  exact (mem_askVoice _).2 (.inr rfl)

theorem makeCurrent_step (g : Segment) (h : (s.stream i).current = none) :
    StreamStep s (s.makeCurrent i g) i (·.given s.clock g) := by
  have waits := setStream_step s i fun r => { r with state := .delay, current := some g }
  have current : ((s.setStream i fun r => { r with state := .delay, current := some g }).stream i).current = some g := by
    rw [waits.stream, if_pos rfl]
  unfold State.makeCurrent
  by_cases now : reached s.clock g.start = true
  · simp only [setStream_clock, now, if_true]
    refine waits.trans (endDelay_step _ i current) ?_
    simp only [given_none h, now, if_true]
  · simp only [setStream_clock, now]
    refine waits.trans (cueList_step _ i ⟨_, rfl⟩ rfl) ?_
    simp only [given_none h, now, id]
    rfl

theorem makeCurrent_asks (g : Segment) (hr : reached s.clock g.start = true) (hd : (s.stream i).demand = true) :
    .stream i ∈ (s.makeCurrent i g).voices.requests := by
  have waits := setStream_step s i fun r => { r with state := .delay, current := some g }
  unfold State.makeCurrent
  simp only [setStream_clock, hr, if_true]
  refine endDelay_asks (g := g) _ i ?_ ?_
  · rw [waits.stream, if_pos rfl]
  · rw [waits.stream, if_pos rfl]
    exact hd

end

/-! ### Segments placed one after another -/

theorem placeSegment_step (p : State × List Nat) (q : Fin 12 × Segment) :
    StreamStep p.1 (State.placeSegment p q).1 q.1 (·.given p.1.clock q.2) := by
  unfold State.placeSegment
  dsimp only
  cases hc : (p.1.stream q.1).current with
  | none => exact makeCurrent_step p.1 q.1 q.2 hc
  | some g =>
    have behind := setStream_step p.1 q.1 fun r => { r with next := some q.2 }
    have given := given_behind (r := p.1.stream q.1) (by rw [hc]; nofun) p.1.clock q.2
    dsimp only
    split
    · exact behind.trans (cueList_step _ _ ⟨_, rfl⟩ rfl) given.symm
    · exact behind.trans (dropSegment_step _ _ _ _ _) given.symm

theorem placeSegment_asks (p : State × List Nat) (q : Fin 12 × Segment) (hc : (p.1.stream q.1).current = none)
    (hr : reached p.1.clock q.2.start = true) (hd : (p.1.stream q.1).demand = true) :
    .stream q.1 ∈ (State.placeSegment p q).1.voices.requests := by
  unfold State.placeSegment
  simp only [hc]
  exact makeCurrent_asks p.1 q.1 q.2 hr hd

/-- What placing segments leaves alone: the streams of the other slots, the engine state and the requests there were. -/
theorem placeSegments_others (l : List (Fin 12 × Segment)) (p : State × List Nat) :
    (∀ i, (∀ q ∈ l, q.1 ≠ i) → (l.foldl State.placeSegment p).1.stream i = p.1.stream i) ∧
      (l.foldl State.placeSegment p).1.comm.state = p.1.comm.state ∧
      ∀ r ∈ p.1.voices.requests, r ∈ (l.foldl State.placeSegment p).1.voices.requests := by
  induction l generalizing p with
  | nil => exact ⟨fun _ _ => rfl, rfl, fun _ => id⟩
  | cons q l ih =>
    have first := placeSegment_step p q
    obtain ⟨streams, engine, requests⟩ := ih (State.placeSegment p q)
    refine ⟨fun i hi => ?_, engine.trans first.engine, fun r hr => requests r (first.requests r hr)⟩
    have others := streams i fun q' hq => hi q' (List.mem_cons_of_mem _ hq)
    rw [List.foldl_cons, others, first.stream, if_neg (hi q List.mem_cons_self)]

/-- Segments of distinct slots are each given to their stream. -/
theorem placeSegments_given {l : List (Fin 12 × Segment)} (hl : l.Pairwise fun p q => p.1 ≠ q.1) (p : State × List Nat)
    {i : Fin 12} {g : Segment} (h : (i, g) ∈ l) :
    (l.foldl State.placeSegment p).1.stream i = (p.1.stream i).given p.1.clock g ∧
      ((p.1.stream i).current = none → reached p.1.clock g.start = true → (p.1.stream i).demand = true →
        .stream i ∈ (l.foldl State.placeSegment p).1.voices.requests) := by
  induction l generalizing p with
  | nil => cases h
  | cons q l ih =>
    obtain ⟨distinct, hl⟩ := List.pairwise_cons.1 hl
    have first := placeSegment_step p q
    rw [List.foldl_cons]
    rcases List.mem_cons.1 h with rfl | h
    · obtain ⟨streams, -, requests⟩ := placeSegments_others l (State.placeSegment p (i, g))
      refine ⟨?_, fun hc hr hd => requests _ (placeSegment_asks p (i, g) hc hr hd)⟩
      rw [streams i fun q hq => (distinct q hq).symm, first.stream, if_pos rfl]
    · have other : (State.placeSegment p q).1.stream i = p.1.stream i := by rw [first.stream, if_neg (distinct _ h)]
      have later := ih hl (State.placeSegment p q) h
      rwa [other, (Commented.placeSegment p q).clock] at later

/-! ### The segments of a firing (R64) -/

/-- The delay of a clip-set entry: from the clip mark to the cue mark. -/
def ClipSetEntry.delay (e : ClipSetEntry) (mark : Nat) : Nat := e.mark.elim 0 fun m => mark - m

/-- The segment of a firing that plays a clip after a delay. -/
def State.segmentOf (s : State) (firing cue delay : Nat) (variant : Variant) (k : ClipEntry) : Segment :=
  { firing := firing, cue := cue, clip := k.clip, variant := variant, pages := k.count, start := after s.clock delay }

section
variable {s : State} {firing cue mark : Nat} {fit : Option Nat} {set : ClipSet} {e : ClipSetEntry} {i : Fin 12} {g : Segment}

theorem formSegment_eq :
    s.formSegment firing cue mark fit e =
      match s.clip e.long, e.short.bind s.clip with
      | none, none => none
      | none, some short => some (s.segmentOf firing cue (e.delay mark) .short short)
      | some long, none => some (s.segmentOf firing cue (e.delay mark) .long long)
      | some long, some short =>
        if fit.all fun remaining => decide (e.delay mark + long.count * 60 ≤ remaining) then
          some (s.segmentOf firing cue (e.delay mark) .long long)
        else some (s.segmentOf firing cue (e.delay mark) .short short) := by
  unfold State.formSegment ClipSetEntry.delay
  cases e.mark <;> rfl

/-- Whether a clip fits into the remaining time. -/
def fitsIn (fit : Option Nat) (delay : Nat) (k : ClipEntry) : Prop :=
  ∀ remaining, fit = some remaining → delay + k.count * 60 ≤ remaining

theorem fitsIn_iff {delay : Nat} {k : ClipEntry} :
    (fit.all fun remaining => decide (delay + k.count * 60 ≤ remaining)) = true ↔ fitsIn fit delay k := by
  unfold fitsIn
  cases fit <;> simp

/-- With neither clip in the cache there is no segment. -/
theorem formSegment_none (hl : s.clip e.long = none) (hs : e.short.bind s.clip = none) :
    s.formSegment firing cue mark fit e = none := by
  rw [formSegment_eq, hl, hs]

/-- The long clip plays when it is alone or fits. -/
theorem formSegment_long {k : ClipEntry} (hl : s.clip e.long = some k)
    (h : e.short.bind s.clip = none ∨ fitsIn fit (e.delay mark) k) :
    s.formSegment firing cue mark fit e = some (s.segmentOf firing cue (e.delay mark) .long k) := by
  rw [formSegment_eq, hl]
  cases hs : e.short.bind s.clip with
  | none => rfl
  | some short => exact if_pos (fitsIn_iff.2 (h.resolve_left (by simp [hs])))

/-- The short clip plays when the long one is missing or does not fit. -/
theorem formSegment_short {k : ClipEntry} (hs : e.short.bind s.clip = some k)
    (h : ∀ l, s.clip e.long = some l → ¬fitsIn fit (e.delay mark) l) :
    s.formSegment firing cue mark fit e = some (s.segmentOf firing cue (e.delay mark) .short k) := by
  rw [formSegment_eq, hs]
  cases hl : s.clip e.long with
  | none => rfl
  | some l => exact if_neg fun hf => h l hl (fitsIn_iff.1 hf)

theorem mem_formSegments :
    (i, g) ∈ s.formSegments firing cue mark fit set ↔
      s.seats.enabled.get i = true ∧
        ∃ e, (set.find? fun e : ClipSetEntry => decide (e.slot = i)) = some e ∧ s.formSegment firing cue mark fit e = some g := by
  unfold State.formSegments
  rw [List.mem_filterMap]
  constructor
  · rintro ⟨j, -, h⟩
    split at h
    · next enabled =>
      obtain ⟨g', hg, heq⟩ := Option.map_eq_some_iff.1 h
      cases heq
      exact ⟨enabled, Option.bind_eq_some_iff.1 hg⟩
    · cases h
  · rintro ⟨enabled, e, he, hg⟩
    exact ⟨i, List.mem_finRange i, by simp [enabled, he, hg]⟩

/-- Each slot has at most one segment of a firing. -/
theorem formSegments_distinct : (s.formSegments firing cue mark fit set).Pairwise fun p q => p.1 ≠ q.1 := by
  have slot : ∀ {j : Fin 12} {p : Fin 12 × Segment},
      (if s.seats.enabled.get j then
        ((set.find? fun e : ClipSetEntry => e.slot = j).bind (s.formSegment firing cue mark fit)).map fun g => (j, g)
      else none) = some p → p.1 = j := by
    intro j p h
    split at h
    · obtain ⟨g, -, rfl⟩ := Option.map_eq_some_iff.1 h
      rfl
    · cases h
  unfold State.formSegments
  rw [List.pairwise_filterMap]
  refine (List.nodup_finRange 12).imp fun {a b} hab p hp q hq => ?_
  rw [slot hp, slot hq]
  exact hab

/-! ### The firing placed (R64, R65) -/

theorem settleEngine_stream (s : State) (i : Fin 12) : s.settleEngine.stream i = s.stream i := by
  obtain ⟨state, hs, -⟩ := settleEngine_comm s
  rw [hs]
  rfl

/-- The engine runs while a stream holds a current segment (R61). -/
theorem settleEngine_running (ha : s.comm.state ≠ .suspended) (hc : (s.stream i).current.isSome = true) :
    s.settleEngine.comm.state = .running := by
  unfold State.settleEngine
  rw [if_neg ha]
  exact if_pos ((Table.any_iff _ _).2 ⟨i, hc⟩)

theorem settleEngine_voices (s : State) : s.settleEngine.voices = s.voices := by
  obtain ⟨state, hs, -⟩ := settleEngine_comm s
  rw [hs]

/-- A slot without a segment keeps its stream. -/
theorem place_other (h : ∀ g, (i, g) ∉ s.formSegments s.comm.nextFiring cue mark fit set) :
    (s.place cue mark fit set).stream i = s.stream i := by
  unfold State.place
  dsimp only
  split
  · rfl
  · rw [settleEngine_stream]
    refine (placeSegments_others _ _).1 i fun q hq hi => h q.2 ?_
    rw [← hi]
    exact hq

/-- A slot with a segment is given it. -/
theorem place_given (ha : s.comm.state ≠ .suspended) (h : (i, g) ∈ s.formSegments s.comm.nextFiring cue mark fit set) :
    (s.place cue mark fit set).comm.state = .running ∧
      (s.place cue mark fit set).stream i = (s.stream i).given s.clock g ∧
      ((s.stream i).current = none → reached s.clock g.start = true → (s.stream i).demand = true →
        .stream i ∈ (s.place cue mark fit set).voices.requests) := by
  have listed : (s.formSegments s.comm.nextFiring cue mark fit set).isEmpty = false := by
    cases hl : s.formSegments s.comm.nextFiring cue mark fit set with
    | nil => rw [hl] at h; cases h
    | cons => rfl
  unfold State.place
  simp only [listed, Bool.false_eq_true, if_false]
  generalize hu : ({ s with comm := _ } : State) = u
  have placed := placeSegments_given formSegments_distinct (u, []) h
  have engine := (placeSegments_others (s.formSegments s.comm.nextFiring cue mark fit set) (u, [])).2.1
  subst hu
  refine ⟨settleEngine_running (i := i) (by rw [engine]; exact ha) (by rw [placed.1]; exact given_current _ _ _), ?_, ?_⟩
  · rw [settleEngine_stream]
    exact placed.1
  · rw [settleEngine_voices]
    exact placed.2

end

end Sys2Proof.Machine
end

section
/-! SUPPORT. Admissions, by where the formed entry goes (R85 to R90). -/

namespace Sys2Proof.Machine

section
variable {s : State} {e : Entry}

/-! ### Selection (R89, R90) -/

/-- With an entry active nothing is selected. -/
theorem selectRounds_active (n : Nat) (h : s.ann.active ≠ none) : State.selectRounds n s = s := by
  obtain ⟨x, hx⟩ := Option.ne_none_iff_exists'.1 h
  cases n with
  | zero => rfl
  | succ n => unfold State.selectRounds; simp only [hx]

theorem select_active (h : s.ann.active ≠ none) : s.select = s := selectRounds_active _ h

/-- With nothing left to select the light controller is handed class none and commentary resumes. -/
theorem selectRounds_drained (n : Nat) (ha : s.ann.active = none) (hc : s.ann.takeCandidate = none) :
    State.selectRounds (n + 1) s = s.handClass.resume := by
  unfold State.selectRounds
  simp only [ha, hc]

/-- An entry is active and waits for the voices: its class is handed and commentary is SUSPENDED (R90, R100). -/
structure State.awaits (t : State) (e : Entry) : Prop where
  active : t.ann.active = some e
  cls : t.lights.cls = t.ann.announceClass
  suspended : t.comm.state = .suspended

/-- An entry heard alone that becomes active while a voice is busy waits. -/
theorem activate_awaits (hc : e.cls ≠ .notice) (hf : s.allFree = false) :
    (s.activate e).awaits { e with phase := .queued } := by
  generalize ha : (s.setAnn fun a => { a with active := some { e with phase := .queued } }).handClass = a
  have suspended := (Commented.refl a).suspend
  have free : a.allFree = false := by subst ha; exact hf
  have waits : s.activate e = a.suspend := by
    unfold State.activate
    simp only [ha, if_neg hc, suspended.allFree, free, Bool.false_eq_true, if_false]
  rw [waits]
  refine ⟨by rw [suspended.ann]; subst ha; rfl, ?_, suspend_state a⟩
  rw [suspended.ann, suspended.lights]
  subst ha
  exact (handClass_groups _ _ _ _ _).1

/-- A STOP or a WARNING that waits has its own class at the lights. -/
theorem State.awaits.cls_eq (h : s.awaits e) (hc : e.cls = .stop ∨ e.cls = .warning) :
    s.lights.cls = if e.cls = .stop then .stop else .warning := by
  rw [h.cls, Announcements.announceClass, h.active]
  rcases hc with hc | hc <;> simp [hc]

/-- Nothing else is selected while it waits. -/
theorem State.awaits.selects_no_more (h : s.awaits e) (n : Nat) : State.selectRounds n s = s :=
  selectRounds_active n (by rw [h.active]; nofun)

/-! ### Where a formed entry goes (R85 to R87) -/

theorem admitSilently_merges {h : Entry} (hd : s.ann.duplicate e = some h) : s.admitSilently e = s := by
  unfold State.admitSilently State.admitEntry
  simp only [hd]

theorem admitSilently_preempts (hd : s.ann.duplicate e = none) (hp : s.ann.preempts e = true) :
    s.admitSilently e = (s.preempt e).1 := by
  unfold State.admitSilently State.admitEntry
  simp only [hd, hp, if_true]
  rfl

theorem admitSilently_joins (hd : s.ann.duplicate e = none) (hp : s.ann.preempts e = false) (hq : s.ann.queue.length < 8) :
    s.admitSilently e = (s.joinQueue e).1 := by
  unfold State.admitSilently State.admitEntry
  simp only [hd, hp, Bool.false_eq_true, if_false, if_pos hq]
  rfl

theorem admitSilently_dropped (hd : s.ann.duplicate e = none) (hp : s.ann.preempts e = false) (hq : 8 ≤ s.ann.queue.length)
    {old : Entry} (ho : s.ann.evictable = some old) (hr : rank s.ann.code old.cls ≤ rank s.ann.code e.cls) :
    s.admitSilently e = s.annReport .dropped e := by
  unfold State.admitSilently State.admitEntry
  simp only [hd, hp, Bool.false_eq_true, if_false, if_neg (Nat.not_lt.2 hq), ho, if_neg (Nat.not_lt.2 hr)]

theorem admitSilently_evicts (hd : s.ann.duplicate e = none) (hp : s.ann.preempts e = false) (hq : 8 ≤ s.ann.queue.length)
    {old : Entry} (ho : s.ann.evictable = some old) (hr : rank s.ann.code e.cls < rank s.ann.code old.cls) :
    s.admitSilently e =
      (((s.setAnn fun a => { a with queue := a.queue.erase old }).annEnded old .evicted).joinQueue e).1 := by
  unfold State.admitSilently State.admitEntry
  simp only [hd, hp, Bool.false_eq_true, if_false, if_neg (Nat.not_lt.2 hq), ho, if_pos hr]
  rfl

/-- The engine with a formed entry in its place in the queue (R82, R87). -/
def Announcements.joined (a : Announcements) (e : Entry) : Announcements :=
  { a with
    queue := insertQueue a.code a.queue { e with ticket := a.freshTicket, order := a.admissionCounter }
    ticketCounter := (a.freshTicket + 1) % 256, admissionCounter := a.admissionCounter + 1 }

theorem joinQueue_eq (s : State) (e : Entry) : (s.joinQueue e).1 = (s.setAnn (·.joined e)).select := rfl

/-- Behind an active entry a formed one waits in the queue. -/
theorem joinQueue_behind (h : s.ann.active ≠ none) : (s.joinQueue e).1.ann = s.ann.joined e := by
  rw [joinQueue_eq, select_active (s := s.setAnn (·.joined e)) h]
  rfl

/-- The entry that an empty engine is given. -/
def Announcements.only (a : Announcements) (e : Entry) : Entry :=
  { e with ticket := a.freshTicket, order := a.admissionCounter }

/-- An engine that holds nothing selects the entry it is given. -/
theorem joinQueue_empty (ha : s.ann.active = none) (hq : s.ann.queue = []) (hs : s.ann.stack = []) :
    ∃ a : Announcements, a.active = none ∧ a.takeCandidate = none ∧
      (s.joinQueue e).1 =
        if s.expired e then State.selectRounds 1 ((s.setAnn fun _ => a).annEnded (s.ann.only e) .expired)
        else State.selectRounds 1 ((s.setAnn fun _ => a).activate (s.ann.only e)) := by
  have joined : s.ann.joined e = { s.ann.joined e with active := none, queue := [s.ann.only e], stack := [] } := by
    unfold Announcements.joined
    rw [hq, ha, hs]
    rfl
  refine ⟨{ s.ann.joined e with active := none, queue := [], stack := [] }, rfl, rfl, ?_⟩
  rw [joinQueue_eq, show s.setAnn (·.joined e) = s.setAnn fun _ => s.ann.joined e from rfl, joined]
  rfl

/-- In an engine that holds nothing an expired entry leaves at once (R89). -/
theorem joinQueue_expired (ha : s.ann.active = none) (hq : s.ann.queue = []) (hs : s.ann.stack = [])
    (he : s.expired e = true) : (s.joinQueue e).1.ann.active = none := by
  obtain ⟨a, empty, drained, next⟩ := joinQueue_empty (e := e) ha hq hs
  rw [next, if_pos he, selectRounds_drained (s := (s.setAnn fun _ => a).annEnded (s.ann.only e) .expired) 0 empty drained,
    resume_ann]
  exact empty

/-- In an engine that holds nothing an entry heard alone becomes active, and waits while a voice is busy (R90). -/
theorem joinQueue_awaits (ha : s.ann.active = none) (hq : s.ann.queue = []) (hs : s.ann.stack = [])
    (he : s.expired e = false) (hc : e.cls ≠ .notice) (hf : s.allFree = false) :
    (s.joinQueue e).1.awaits { s.ann.only e with phase := .queued } := by
  obtain ⟨a, -, -, next⟩ := joinQueue_empty (e := e) ha hq hs
  have waits := activate_awaits (s := s.setAnn fun _ => a) (e := s.ann.only e) hc hf
  rw [next, he, if_neg Bool.false_ne_true, waits.selects_no_more]
  exact waits

/-! ### Pre-emption (R86) -/

theorem releaseActive_commented (s : State) : Commented s s.releaseActive := by
  unfold State.releaseActive
  split
  · exact .refl s
  · exact .fold (fun t v => (Commented.refl t).release v) _ ((Commented.refl s).withdraw _)

theorem leaveActive_voices (s : State) : s.leaveActive.voices = s.voices := by
  unfold State.leaveActive
  dsimp only
  split <;> rfl

theorem pushStack_voices (s : State) (e : Entry) : (s.pushStack e).voices = s.voices := by
  unfold State.pushStack
  dsimp only
  split
  · rfl
  · split <;> rfl

/-- A pre-empting entry that is heard alone becomes active, and waits while a voice is busy (R86, R90). -/
theorem preempt_awaits (hc : e.cls ≠ .notice) (hf : s.allFree = false) :
    ∃ ticket, (s.preempt e).1.awaits { e with ticket := ticket, order := s.ann.admissionCounter, phase := .queued } := by
  have left : Engines s s.releaseActive.leaveActive := leaveActive_engines (releaseActive_engines (.refl s))
  have busy : s.releaseActive.leaveActive.allFree = false := by
    have same : s.releaseActive.leaveActive.allFree = s.releaseActive.allFree := by
      unfold State.allFree
      rw [leaveActive_voices]
    rw [same, (releaseActive_commented s).allFree, hf]
  obtain ⟨u, engines, free, next⟩ : ∃ u, Engines s u ∧ u.allFree = false ∧
      (s.preempt e).1 = ((u.giveTicket e).1.activate (u.giveTicket e).2).select := by
    unfold State.preempt
    dsimp only
    split
    · exact ⟨_, left, busy, rfl⟩
    · next x _ =>
      split
      · exact ⟨_, annEnded_engines left _ _, busy, rfl⟩
      · refine ⟨_, pushStack_engines left x, ?_, rfl⟩
        unfold State.allFree at busy ⊢
        rw [pushStack_voices, busy]
  have waits := activate_awaits (s := (u.giveTicket e).1) (e := (u.giveTicket e).2) hc free
  have admissions : u.ann.admissionCounter = s.ann.admissionCounter := congrArg Fixed.admissions engines.fixed
  refine ⟨u.ann.freshTicket, ?_⟩
  rw [next, State.select, waits.selects_no_more, ← admissions]
  exact waits

end

end Sys2Proof.Machine
end

section
/-! SUPPORT. What a fired cue hands on, by kind of content (R35, R36). -/

namespace Sys2Proof.Machine

/-- With room in the queue reports join its tail one after another (R175). -/
theorem foldl_report_room (rs : List Report) (l : Link) (h : l.reports.length + rs.length ≤ 16) :
    (rs.foldl Link.report l).reports = l.reports ++ rs := by
  induction rs generalizing l with
  | nil => simp
  | cons r rs ih =>
    rw [List.length_cons] at h
    have room := report_room l r (by omega)
    rw [List.foldl_cons, ih _ (by rw [room, List.length_append, List.length_singleton]; omega), room, List.append_assoc]
    rfl

/-! ### Firing -/

/-- The state in which a fired cue hands on its content: the cue is FIRED. -/
def State.struck (s : State) (n : Nat) (c : Cue) : State :=
  { s with cues := { s.cues with cues := s.cues.cues.set n { c with state := .fired } } }

section
variable {s : State} {n : Nat} {c : Cue} (forced : Bool)

theorem fireCue_hands {t : State} (hc : s.cues.cues[n]? = some c) (h : (s.struck n c).handCue n c = some t) :
    State.fireCue forced s n = t.report (.cueEvent .fired n c.kind forced s.tracker.chainage s.clock) := by
  have acts := handCue_acts (.refl (s.struck n c)) n c h
  have reported : State.fireCue forced s n = t.cueReport .fired n c.kind forced := by
    unfold State.fireCue
    simp only [hc]
    rw [show (s.setCues fun cs => cs.set n { c with state := .fired }).handCue n c = some t from h]
  rw [reported, State.cueReport, acts.tracker, acts.clock]
  rfl

theorem fireCue_lacks (hc : s.cues.cues[n]? = some c) (h : (s.struck n c).handCue n c = none) :
    State.fireCue forced s n =
      (s.struck n c).report (.cueEvent .noContent n c.kind forced s.tracker.chainage s.clock) := by
  unfold State.fireCue
  simp only [hc]
  rw [show (s.setCues fun cs => cs.set n { c with state := .fired }).handCue n c = none from h]
  rfl

end

/-! ### The content (R35) -/

section
variable {s : State} {n : Nat} {c : Cue}

theorem clipSetOf_none (h : ∀ r, c.ref = some r → s.cues.clipSets.length ≤ r) : s.clipSetOf c = none := by
  unfold State.clipSetOf
  cases hr : c.ref with
  | none => rfl
  | some r => simp [h r hr]

theorem clipSetOf_some {r : Nat} {set : ClipSet} (hr : c.ref = some r) (h : s.cues.clipSets[r]? = some set) :
    s.clipSetOf c = some (r, set) := by
  unfold State.clipSetOf
  simp only [hr, h, Option.map_some]

theorem handCue_noClipSet (hk : c.kind = .commentary ∨ c.kind = .stop ∨ c.kind = .warning)
    (h : ∀ r, c.ref = some r → s.cues.clipSets.length ≤ r) : s.handCue n c = none := by
  unfold State.handCue
  rcases hk with hk | hk | hk <;> simp [hk, clipSetOf_none h]

theorem handCue_noScene (hk : c.kind = .scene) (h : ∀ r, c.ref = some r → s.cues.scenes.length ≤ r) : s.handCue n c = none := by
  unfold State.handCue
  cases hr : c.ref with
  | none => simp [hk]
  | some r => simp [hk, h r hr]

theorem handCue_scene {r : Nat} {scene : Scene} (hk : c.kind = .scene) (hr : c.ref = some r) (h : s.cues.scenes[r]? = some scene) :
    s.handCue n c = some { s with lights := s.lights.applyScene scene s.clock } := by
  unfold State.handCue
  simp only [hk, hr, h, Option.map_some]

theorem handCue_quiet {quiet : Bool} (h : (c.kind = .quietOn ∧ quiet = true) ∨ (c.kind = .quietOff ∧ quiet = false)) :
    s.handCue n c = some (s.setQuiet quiet) := by
  unfold State.handCue
  rcases h with ⟨hk, rfl⟩ | ⟨hk, rfl⟩ <;> simp only [hk]

theorem handCue_commentary {r : Nat} {set : ClipSet} (hk : c.kind = .commentary) (hr : c.ref = some r)
    (h : s.cues.clipSets[r]? = some set) : s.handCue n c = some (s.fireCommentary n c.mark set) := by
  unfold State.handCue
  simp only [hk, clipSetOf_some hr h, Option.map_some]

theorem handCue_admits {cls : AnnClass} {r : Nat} {set : ClipSet}
    (hk : (c.kind = .stop ∧ cls = .stop) ∨ (c.kind = .warning ∧ cls = .warning)) (hr : c.ref = some r)
    (h : s.cues.clipSets[r]? = some set) :
    s.handCue n c = some (s.admitSilently (s.cueEntry cls n r set (min c.lateEnd maxChainage))) := by
  unfold State.handCue
  rcases hk with ⟨hk, rfl⟩ | ⟨hk, rfl⟩ <;> simp only [hk, clipSetOf_some hr h, Option.map_some]

end

/-! ### The quiet zone (R145) -/

/-- The flag set or cleared, with the need that follows from it. -/
theorem setQuiet_commented (s : State) (quiet : Bool) :
    Commented
      { s with
        mixer := { s.mixer with quiet := quiet, need := s.mixer.lower.commentary || (s.mixer.upper.commentary && !quiet) } }
      (s.setQuiet quiet) := by
  unfold State.setQuiet State.deriveNeed
  split
  · next same =>
    have need : (s.mixer.lower.commentary || (s.mixer.upper.commentary && !quiet)) = s.mixer.need := same
    rw [need]
    exact .refl _
  · exact Commented.deriveDemand (.refl _)

/-- With the need as it was, only the flag changes. -/
theorem setQuiet_same {s : State} {quiet : Bool}
    (h : (s.mixer.lower.commentary || (s.mixer.upper.commentary && !quiet)) = s.mixer.need) :
    s.setQuiet quiet = { s with mixer := { s.mixer with quiet := quiet } } := by
  unfold State.setQuiet State.deriveNeed
  exact if_pos h

/-! ### Commentary (R64, R65, R74) -/

section
variable {s : State} {cue mark : Nat} {set : ClipSet}

/-- Under suspension a firing becomes the pending one, and the one it replaces is reported. -/
theorem fireCommentary_suspended (h : s.comm.state = .suspended) :
    ∃ rs : List Report,
      s.fireCommentary cue mark set =
        { s with
          comm := { s.comm with pendingFiring := some { cue := cue, clipSet := set, mark := mark } }
          link := rs.foldl Link.report s.link } ∧
      rs.length ≤ 1 ∧
      ∀ p, s.comm.pendingFiring = some p → Report.commentaryEvent (.dropped .replaced) p.cue s.clock ∈ rs := by
  unfold State.fireCommentary
  rw [if_pos h]
  cases hp : s.comm.pendingFiring with
  | none => exact ⟨[], rfl, Nat.zero_le _, nofun⟩
  | some p => exact ⟨[_], rfl, le_rfl, fun q hq => by cases hq; exact List.mem_singleton_self _⟩

/-- With room for two reports, the replaced firing's and the one that follows are both in the queue. -/
theorem fireCommentary_reports (h : s.comm.state = .suspended) (room : s.link.reports.length < 15) (q : Report) :
    q ∈ ((s.fireCommentary cue mark set).report q).link.reports ∧
      ∀ p, s.comm.pendingFiring = some p →
        Report.commentaryEvent (.dropped .replaced) p.cue s.clock ∈ ((s.fireCommentary cue mark set).report q).link.reports := by
  obtain ⟨rs, pending, short, replaced⟩ := fireCommentary_suspended (cue := cue) (mark := mark) (set := set) h
  have reports : ((s.fireCommentary cue mark set).report q).link.reports = s.link.reports ++ (rs ++ [q]) := by
    rw [pending, ← foldl_report_room _ _ (by rw [List.length_append, List.length_singleton]; omega), List.foldl_append]
    rfl
  rw [reports]
  exact ⟨by simp, fun p hp => List.mem_append_right _ (List.mem_append_left _ (replaced p hp))⟩

theorem fireCommentary_places (h : s.comm.state ≠ .suspended) :
    s.fireCommentary cue mark set = s.place cue mark s.fitResult set := by
  unfold State.fireCommentary
  rw [if_neg h]

/-- Between `s` and `t` a firing has given slot `i` a segment: the engine runs, and the segment is the stream's current one or,
behind another, its next one (R65, R67). -/
def State.gives (s t : State) (i : Fin 12) (g : Segment) : Prop :=
  t.comm.state = .running ∧
    ((s.stream i).current = none →
      t.stream i =
        { s.stream i with
          current := some g
          state := if reached s.clock g.start = true then
            (if (s.stream i).demand = true then .waitVoice else .quiet) else .delay } ∧
      (reached s.clock g.start = true → (s.stream i).demand = true → Requester.stream i ∈ t.voices.requests)) ∧
    ((s.stream i).current ≠ none → t.stream i = { s.stream i with next := some g })

/-- The slot of an entry that forms a segment is given it. -/
theorem place_formed {fit : Option Nat} {i : Fin 12} {e : ClipSetEntry} {g : Segment} (ha : s.comm.state ≠ .suspended)
    (enabled : s.seats.enabled.get i = true) (he : (set.find? fun e : ClipSetEntry => decide (e.slot = i)) = some e)
    (hg : s.formSegment s.comm.nextFiring cue mark fit e = some g) : s.gives (s.place cue mark fit set) i g := by
  obtain ⟨running, given, asks⟩ := place_given ha (mem_formSegments.2 ⟨enabled, e, he, hg⟩)
  exact ⟨running, fun hc => ⟨given.trans (given_none hc _ _), asks hc⟩, fun hc => given.trans (given_behind hc _ _)⟩

/-- The slot of an entry that forms none keeps its stream. -/
theorem place_unformed {fit : Option Nat} {i : Fin 12}
    (h : s.seats.enabled.get i = false ∨ ∀ e, (set.find? fun e : ClipSetEntry => decide (e.slot = i)) = some e →
      s.formSegment s.comm.nextFiring cue mark fit e = none) :
    (s.place cue mark fit set).stream i = s.stream i := by
  refine place_other fun g hg => ?_
  obtain ⟨enabled, e, he, formed⟩ := mem_formSegments.1 hg
  rcases h with h | h
  · rw [h] at enabled
    cases enabled
  · rw [h e he] at formed
    cases formed

end

/-- Settles O24: a fired cue does what its kind of content does, and then reports. -/
theorem firedCueHandsOn : Obligations.FiredCueHandsOn := by
  intro forced n c s hc u v told
  have acts := fireCue_acts (.refl s) forced n
  have cues : u.cues = v.cues := by
    have fired := fireCue_cues forced s n
    simp only [hc] at fired
    exact fired
  have hands {t : State} (h : v.handCue n c = some t) : u = t.report (told .fired) := fireCue_hands forced hc h
  refine ⟨cues, acts.tracker, acts.settings, acts.store, acts.power, acts.seats,
    fun hk h => fireCue_lacks forced hc (handCue_noClipSet hk h), fun hk h => fireCue_lacks forced hc (handCue_noScene hk h),
    fun r scene hk hr h => hands (handCue_scene hk hr h), fun quiet h => ?quiet, fun r set hk hr h => ?commentary,
    fun cls r set hk hr h => ?admission⟩
  case quiet =>
    have commented := setQuiet_commented v quiet
    intro need
    rw [hands (handCue_quiet h)]
    exact ⟨commented.mixer, commented.ann, commented.lights, fun same => by rw [setQuiet_same (s := v) same]⟩
  case commentary =>
    have commented := (Commented.refl v).fireCommentary n c.mark set
    rw [hands (handCue_commentary hk hr h)]
    refine ⟨commented.ann, commented.lights, commented.mixer, fun suspended => ?_, fun running i => ?_⟩
    · obtain ⟨rs, pending, -⟩ := fireCommentary_suspended (s := v) (cue := n) (mark := c.mark) (set := set) suspended
      have reported := fireCommentary_reports (s := v) (cue := n) (mark := c.mark) (set := set) suspended
      exact ⟨by rw [pending]; rfl, by rw [pending]; rfl, fun room => reported room _⟩
    · rw [fireCommentary_places (s := v) running]
      have given {e : ClipSetEntry} {g : Segment} (enabled : s.seats.enabled.get i = true)
          (he : (set.find? fun e : ClipSetEntry => decide (e.slot = i)) = some e)
          (hg : v.formSegment s.comm.nextFiring n c.mark v.fitResult e = some g) :=
        place_formed (s := v) running enabled he hg
      refine ⟨fun missing => place_unformed (s := v) (missing.imp_right fun absent e he => ?_), fun e enabled he => ⟨fun hl hs => ?_,
        fun k hl h => given enabled he (formSegment_long hl h), fun k hs h => given enabled he (formSegment_short hs h)⟩⟩
      · exact absurd (by simpa using List.find?_some he) (absent e (List.mem_of_find?_eq_some he))
      · refine place_unformed (s := v) (.inr fun e' he' => ?_)
        obtain rfl : e = e' := Option.some.inj (he.symm.trans he')
        exact formSegment_none hl hs
  case admission =>
    intro e
    have alone : e.cls ≠ .notice := by rcases hk with ⟨-, rfl⟩ | ⟨-, rfl⟩ <;> nofun
    rw [hands (handCue_admits hk hr h), show v.cueEntry cls n r set (min c.lateEnd maxChainage) = e from rfl]
    refine ⟨fun h dup => by rw [admitSilently_merges (s := v) dup], fun dup calm => ⟨fun room active => ?_,
      fun old full ho => ⟨fun low => ?_, fun high active => ?_⟩, fun ha hq hs late => ?_, fun ha hq hs busy soon => ?_⟩,
      fun x dup hw ha hx busy => ?_⟩
    · rw [admitSilently_joins (s := v) dup calm room]
      exact joinQueue_behind (s := v) active
    · rw [admitSilently_dropped (s := v) dup calm full ho low]
      rfl
    · rw [admitSilently_evicts (s := v) dup calm full ho high]
      exact joinQueue_behind (s := (v.setAnn fun a => { a with queue := a.queue.erase old }).annEnded old .evicted) active
    · rw [admitSilently_joins (s := v) dup calm (by rw [show v.ann.queue = [] from hq]; decide)]
      exact joinQueue_expired (s := v) ha hq hs (decide_eq_true late)
    · rw [admitSilently_joins (s := v) dup calm (by rw [show v.ann.queue = [] from hq]; decide)]
      have awaits := joinQueue_awaits (s := v) (e := e) ha hq hs (decide_eq_false (Nat.not_lt.2 soon)) alone busy
      exact ⟨awaits.active, awaits.cls_eq (hk.imp And.right And.right), awaits.suspended⟩
    · have notStop : e.cls ≠ .stop := by rw [show e.cls = .warning from hw]; nofun
      have preempts : s.ann.preempts e = true := by
        simp [Announcements.preempts, ha, hx, e, hw]
      rw [admitSilently_preempts (s := v) dup preempts]
      obtain ⟨ticket, awaits⟩ := preempt_awaits (s := v) alone busy
      exact ⟨⟨ticket, awaits.active⟩, (awaits.cls_eq (.inr hw)).trans (if_neg notStop),
        awaits.suspended⟩

end Sys2Proof.Machine
end

section
/-! SUPPORT. The demand of the streams: deriving it sets it (R63), and nothing else that commentary, announcements or voices do
touches it. One lemma per operation. -/

namespace Sys2Proof.Machine

/-- The demand of every stream. -/
def State.demands (s : State) : Table Bool 12 := s.comm.streams.map Stream.demand

theorem get_demands (s : State) (i : Fin 12) : s.demands.get i = (s.stream i).demand := Table.get_map _ _ _

section
variable (s : State)

/-! ### Streams, firings and their segments (R61 to R71) -/

@[simp] theorem setStream_demands {f : Stream → Stream} (hf : ∀ r, (f r).demand = r.demand) (i : Fin 12) :
    (s.setStream i f).demands = s.demands := by
  refine Table.ext_get fun j => ?_
  rw [get_demands, get_demands, stream_setStream]
  split
  · exact hf _
  · rfl

@[simp] theorem report_demands (r : Report) : (s.report r).demands = s.demands := rfl
@[simp] theorem commReport_demands (e : CommentaryEvent) (cue : Nat) : (s.commReport e cue).demands = s.demands := rfl
@[simp] theorem withdraw_demands (r : Requester) : (s.withdraw r).demands = s.demands := rfl

@[simp] theorem askVoice_demands (r : Requester) : (s.askVoice r).demands = s.demands := by
  rw [State.demands, askVoice_comm]; rfl

@[simp] theorem settleEngine_demands : s.settleEngine.demands = s.demands := by
  obtain ⟨_, hs, -⟩ := settleEngine_comm s
  rw [hs]; rfl

@[simp] theorem loseSegment_demands (firing : Nat) : (s.loseSegment firing).demands = s.demands := by
  obtain ⟨_, hc⟩ := loseSegment_comm s firing
  rw [State.demands, hc]; rfl

@[simp] theorem beginFiring_demands (firing : Nat) : (s.beginFiring firing).demands = s.demands := by
  unfold State.beginFiring
  split
  · rfl
  · split <;> rfl

@[simp] theorem dropSegment_demands (told : List Nat) (cause : DropCause) (g : Segment) :
    (s.dropSegment told cause g).1.demands = s.demands := by
  unfold State.dropSegment
  split <;> simp

theorem foldl_demands {α : Type} {f : State → α → State} (hf : ∀ t a, (f t a).demands = t.demands) (l : List α) :
    (l.foldl f s).demands = s.demands := by
  induction l generalizing s with
  | nil => rfl
  | cons a l ih => exact (ih _).trans (hf s a)

theorem foldl_pair_demands {α β : Type} {f : State × β → α → State × β} (hf : ∀ p a, (f p a).1.demands = p.1.demands)
    (l : List α) (p : State × β) : (l.foldl f p).1.demands = p.1.demands := by
  induction l generalizing p with
  | nil => rfl
  | cons a l ih => exact (ih _).trans (hf p a)

@[simp] theorem dropSegments_demands (cause : DropCause) (segments : List Segment) :
    (s.dropSegments cause segments).demands = s.demands :=
  (foldl_demands _ (fun t _ => loseSegment_demands t _) _).trans (foldl_demands _ (fun t _ => commReport_demands t _ _) _)

@[simp] theorem endDelay_demands (i : Fin 12) : (s.endDelay i).demands = s.demands := by
  unfold State.endDelay
  split
  · rfl
  · dsimp only
    split <;> simp

@[simp] theorem makeCurrent_demands (i : Fin 12) (g : Segment) : (s.makeCurrent i g).demands = s.demands := by
  unfold State.makeCurrent
  dsimp only
  split <;> simp

@[simp] theorem finishSegment_demands (i : Fin 12) : (s.finishSegment i).demands = s.demands := by
  unfold State.finishSegment
  split
  · rfl
  · dsimp only
    split <;> simp

@[simp] theorem letGo_demands (i : Fin 12) : (s.letGo i).demands = s.demands := by
  rw [State.demands, letGo_comm]
  exact setStream_demands s (by simp) i

/-! ### Demand derived (R63, R69, R70) -/

@[simp] theorem gainDemand_demands (i : Fin 12) : (s.gainDemand i).demands = s.demands := by
  unfold State.gainDemand
  split
  · split <;> simp
  · rfl

@[simp] theorem loseDemand_demands (i : Fin 12) : (s.loseDemand i).demands = s.demands := by
  unfold State.loseDemand
  split <;> simp

/-- One stream's demand derived: it is what R63 says, and the others' are as they were. -/
theorem get_deriveDemandOf (i j : Fin 12) :
    (s.deriveDemandOf i).demands.get j = if i = j then s.demandNow i else s.demands.get j := by
  have written : (s.setStream i fun r => { r with demand := s.demandNow i }).demands.get j =
      if i = j then s.demandNow i else s.demands.get j := by
    rw [get_demands, get_demands, stream_setStream]
    split <;> rfl
  unfold State.deriveDemandOf
  dsimp only
  split
  · next same =>
    split
    · next h => subst h; rw [get_demands, same]
    · rfl
  · split
    · rw [gainDemand_demands, written]
    · rw [loseDemand_demands, written]

/-- What the demand of a stream is derived from, the engines leave alone. -/
theorem Engines.demandNow {s t : State} (h : Engines s t) (i : Fin 12) : t.demandNow i = s.demandNow i := by
  have seats : t.seats = s.seats := congrArg Fixed.seats h.fixed
  have settings : t.settings = s.settings := congrArg Fixed.settings h.fixed
  have need : t.mixer.need = s.mixer.need := congrArg (fun f : Fixed => f.zones.2.2.2) h.fixed
  unfold State.demandNow
  rw [seats, settings, need]

/-- Every stream's demand derived (R63). -/
theorem get_deriveDemand (i : Fin 12) : s.deriveDemand.demands.get i = s.demandNow i := by
  have fold : ∀ (l : List (Fin 12)) (t : State), Engines s t →
      (l.foldl State.deriveDemandOf t).demands.get i = if i ∈ l then s.demandNow i else t.demands.get i := by
    intro l
    induction l with
    | nil => intro t _; rfl
    | cons j l ih =>
      intro t ht
      rw [List.foldl_cons, ih _ (deriveDemandOf_engines ht j), get_deriveDemandOf, ht.demandNow]
      by_cases hj : i = j
      · subst hj; simp
      · simp [hj, Ne.symm hj]
  rw [State.deriveDemand, fold _ _ (.refl s), if_pos (show i ∈ allSlots from List.mem_finRange i)]

/-! ### Placement, suspension, resumption and stop (R62, R64, R65, R72 to R76) -/

@[simp] theorem grantStream_demands (i : Fin 12) (v : Fin 16) : (s.grantStream i v).demands = s.demands := by
  unfold State.grantStream
  split
  · rfl
  · next g _ =>
    split
    · have started : (s.startVoice v (.stream i) .notice g.clip (g.pageAt s.clock)).1.demands = s.demands :=
        congrArg (fun c : Commentary => c.streams.map Stream.demand) (startVoice_blocks s v _ _ _ _).2
      revert started
      generalize s.startVoice v (.stream i) .notice g.clip (g.pageAt s.clock) = p
      obtain ⟨u, o⟩ := p
      intro started
      cases o <;> simpa using started
    · simp

theorem placeSegment_demands (p : State × List Nat) (q : Fin 12 × Segment) :
    (State.placeSegment p q).1.demands = p.1.demands := by
  unfold State.placeSegment
  dsimp only
  split
  · simp
  · split <;> simp

@[simp] theorem place_demands (cue mark : Nat) (fit : Option Nat) (set : ClipSet) :
    (s.place cue mark fit set).demands = s.demands := by
  unfold State.place
  dsimp only
  split
  · rfl
  · rw [settleEngine_demands, foldl_pair_demands placeSegment_demands]; rfl

@[simp] theorem fireCommentary_demands (cue mark : Nat) (set : ClipSet) :
    (s.fireCommentary cue mark set).demands = s.demands := by
  unfold State.fireCommentary
  split
  · dsimp only
    split <;> rfl
  · simp

theorem suspendStream_demands (p : State × List SuspendEntry) (i : Fin 12) :
    (State.suspendStream p i).1.demands = p.1.demands := by
  unfold State.suspendStream
  dsimp only
  split
  · rfl
  · generalize (if (p.1.stream i).state = .delay then 0 else _) = page
    split <;> simp

@[simp] theorem suspend_demands : s.suspend.demands = s.demands := by
  unfold State.suspend
  split
  · rfl
  · have streams := foldl_pair_demands suspendStream_demands allSlots (s, [])
    revert streams
    generalize allSlots.foldl State.suspendStream (s, []) = p
    exact id

theorem restartEntry_demands (p : State × List Nat) (e : SuspendEntry) :
    (State.restartEntry p e).1.demands = p.1.demands := by
  unfold State.restartEntry
  dsimp only
  split
  · split <;> simp
  · exact foldl_pair_demands (fun q g => dropSegment_demands q.1 _ _ _) _ _

@[simp] theorem placePending_demands : s.placePending.demands = s.demands := by
  unfold State.placePending
  split
  · simp
  · rw [settleEngine_demands, place_demands]; rfl

@[simp] theorem resume_demands : s.resume.demands = s.demands := by
  unfold State.resume
  split
  · rfl
  · dsimp only
    split
    · rw [placePending_demands, dropSegments_demands]; rfl
    · split
      · rw [placePending_demands, dropSegments_demands]; rfl
      · rw [settleEngine_demands, foldl_pair_demands restartEntry_demands]; rfl

@[simp] theorem stopCommentary_demands : s.stopCommentary.demands = s.demands := by
  have stopped : s.stoppedStreams.demands = s.demands := by
    refine Table.ext_get fun i => ?_
    rw [get_demands, get_demands, stoppedStreams_stream]
    unfold Stream.stopped
    split <;> rfl
  obtain ⟨lost, hs⟩ := stopCommentary_eq s
  have told : ∀ t : State,
      ((firstOfEach lost).foldl (fun s g => s.commReport (.dropped .stopped) g.cue) t).demands = t.demands :=
    fun t => foldl_demands t (fun t _ => commReport_demands t _ _) _
  rw [hs]
  unfold State.tellStopped
  rw [settleEngine_demands, foldl_demands _ (fun t _ => loseSegment_demands t _)]
  split
  · rw [commReport_demands, told, stopped]
  · rw [told, stopped]

/-! ### Announcements and grants -/

/-- What the grants of an event do to commentary leaves every stream's demand. -/
theorem demands_granting (d : Table Bool 12) : Granting fun s => s.demands = d where
  leaf h hc _ := by rw [State.demands, hc]; exact h
  suspend h := by rw [suspend_demands, h]
  resume h := by rw [resume_demands, h]
  grant h i v := by rw [grantStream_demands, h]

@[simp] theorem select_demands : s.select.demands = s.demands := (demands_granting _).selectRounds _ rfl
@[simp] theorem tellFree_demands : s.tellFree.demands = s.demands := (demands_granting _).tellFree rfl
@[simp] theorem activate_demands (e : Entry) : (s.activate e).demands = s.demands := (demands_granting _).activate rfl e
@[simp] theorem playActive_demands : s.playActive.demands = s.demands := (demands_granting _).playActive rfl
@[simp] theorem releaseActive_demands : s.releaseActive.demands = s.demands := (demands_granting _).releaseActive rfl
@[simp] theorem leaveActive_demands : s.leaveActive.demands = s.demands := (demands_granting _).leaveActive rfl
@[simp] theorem endActive_demands (o : AnnOutcome) : (s.endActive o).demands = s.demands := (demands_granting _).endActive rfl o
@[simp] theorem handMap_demands : s.handMap.demands = s.demands := (demands_granting _).handMap rfl

@[simp] theorem arbitrate_demands : s.arbitrate.demands = s.demands := by
  unfold State.arbitrate
  exact (demands_granting _).grants _ rfl

@[simp] theorem pushStack_demands (e : Entry) : (s.pushStack e).demands = s.demands := by
  unfold State.pushStack
  split
  · rfl
  · dsimp only
    split <;> rfl

@[simp] theorem annVoiceEnded_demands (v : Fin 16) : (s.annVoiceEnded v).demands = s.demands := by
  unfold State.annVoiceEnded
  split
  · rfl
  · split
    · split
      · rw [select_demands, playActive_demands]; rfl
      · rfl
    · split
      · dsimp only
        split
        · rw [select_demands, endActive_demands]; rfl
        · rw [handMap_demands]; rfl
      · rfl

@[simp] theorem ownerActs_demands (owner : Option Owner) (v : Fin 16) : (s.ownerActs owner v).demands = s.demands := by
  unfold State.ownerActs
  rw [tellFree_demands]
  split <;> simp

@[simp] theorem voiceEnded_demands (v : Fin 16) : (s.voiceEnded v).demands = s.demands := ownerActs_demands _ _ v

@[simp] theorem cancelEntry_demands (e : Entry) : (s.cancelEntry e).demands = s.demands := by
  unfold State.cancelEntry
  split
  · simp
  · rfl

@[simp] theorem liveRelease_demands : s.liveRelease.demands = s.demands := by
  have withdrawn : ∀ t : State, t.withdrawLive.demands = t.demands := by
    intro t
    unfold State.withdrawLive
    exact foldl_demands _ (fun u e => report_demands u _) _
  unfold State.liveRelease
  dsimp only
  split
  · split
    · split
      · split
        · rw [select_demands, endActive_demands]; rfl
        · rfl
      · rw [select_demands, endActive_demands]; rfl
      · rfl
      · rfl
    · exact (withdrawn _).trans rfl
  · exact (withdrawn _).trans rfl

end

end Sys2Proof.Machine
end

section
/-! SUPPORT. What the seat table's invariants read of a state, and the operations that leave it alone. One lemma per operation,
as for the wide part. -/

namespace Sys2Proof.Machine

/-- The part of the state that the seat table's records and what the blocks derive from them rest on. -/
structure DeckView where
  routeState : RouteState
  mask : BitVec 12
  load : Option Load
  table : SeatTable
  settings : Settings
  zones : Zone × Zone × Bool × Bool
  demands : Table Bool 12

/-- That part of a state: the seat table without the LISTENERS report's fields and the poll in progress. -/
def State.deckView (s : State) : DeckView :=
  { routeState := s.cues.routeState, mask := s.cues.mask, load := s.cues.load
    table :=
      { s.seats with
        reported := Table.fill 12 0, lastReport := none, reportPending := false, awaiting := none, lastPoll := none }
    settings := s.settings, zones := (s.mixer.upper, s.mixer.lower, s.mixer.quiet, s.mixer.need), demands := s.demands }

/-- The engines leave the view alone unless they derive demand. -/
theorem Engines.deckView {s t : State} (h : Engines s t) (hd : t.demands = s.demands) : t.deckView = s.deckView := by
  have seats : t.seats = s.seats := congrArg Fixed.seats h.fixed
  have settings : t.settings = s.settings := congrArg Fixed.settings h.fixed
  have zones := congrArg Fixed.zones h.fixed
  unfold State.deckView
  rw [h.cues, seats, settings, hd]
  exact congrArg (DeckView.mk _ _ _ _ _ · _) zones

section
variable (s : State)

/-! ### The link, the voices and the store -/

@[simp] theorem reply_deckView (k : Nat) (tag : Byte) (c : ResultCode) (d : ReplyData) :
    (s.reply k tag c d).deckView = s.deckView := rfl
@[simp] theorem setVoice_deckView (v : Fin 16) (f : Voice → Voice) : (s.setVoice v f).deckView = s.deckView := rfl
@[simp] theorem dropVoice_deckView (v : Fin 16) : (s.dropVoice v).deckView = s.deckView := rfl
@[simp] theorem setAnn_deckView (f : Announcements → Announcements) : (s.setAnn f).deckView = s.deckView := rfl
@[simp] theorem portDone_deckView : s.portDone.deckView = s.deckView := rfl
@[simp] theorem shiftWrite_deckView (a b : WritePhase) : (s.shiftWrite a b).deckView = s.deckView := by
  rw [shiftWrite_eq]; rfl

@[simp] theorem topUp_deckView (v : Fin 16) : (s.topUp v).deckView = s.deckView := by
  unfold State.topUp
  dsimp only
  split <;> rfl

theorem lookUp_deckView (v : Fin 16) (clip page : Nat) : (s.lookUp v clip page).1.deckView = s.deckView := by
  unfold State.lookUp
  split
  · rfl
  · dsimp only
    split
    · rfl
    · split <;> simp

@[simp] theorem readPage_deckView (p : Nat) (f : Bool) : (s.readPage p f).2.deckView = s.deckView := by
  obtain ⟨n, h⟩ := readPage_state s p f
  rw [h]; rfl

@[simp] theorem checkPage_deckView (p : Nat) (d : Option (List Byte)) (c i : Nat) (q : Bool) :
    (s.checkPage p d c i q).2.deckView = s.deckView := by
  obtain ⟨n, f, l, fs, h⟩ := checkPage_state s p d c i q
  rw [h]; rfl

@[simp] theorem voicePage_deckView (v : Fin 16) (serial index page : Nat) (data : Option (List Byte)) :
    (s.voicePage v serial index page data).deckView = s.deckView := by
  unfold State.voicePage
  dsimp only
  split
  · split
    · rfl
    · exact (topUp_deckView _ _).trans (checkPage_deckView _ _ _ _ _ _)
  · rfl

@[simp] theorem residentPage_deckView (b i p : Nat) (d : Option (List Byte)) (q : Bool) :
    (s.residentPage b i p d q).deckView = s.deckView := by
  unfold State.residentPage
  split
  · rfl
  · split
    · exact checkPage_deckView _ _ _ _ _ _
    · rfl

@[simp] theorem blankChecked_deckView (tag : Byte) (page : Nat) (bytes : List Byte) (d : Option (List Byte)) :
    (s.blankChecked tag page bytes d).deckView = s.deckView := by
  unfold State.blankChecked
  (repeat' split) <;> rfl

/-! ### Commentary -/

@[simp] theorem endDelay_deckView (i : Fin 12) : (s.endDelay i).deckView = s.deckView :=
  (endDelay_engines (.refl s) i).deckView (endDelay_demands s i)
@[simp] theorem finishSegment_deckView (i : Fin 12) : (s.finishSegment i).deckView = s.deckView :=
  (finishSegment_engines (.refl s) i).deckView (finishSegment_demands s i)
@[simp] theorem fireCommentary_deckView (cue mark : Nat) (set : ClipSet) :
    (s.fireCommentary cue mark set).deckView = s.deckView :=
  (fireCommentary_engines (.refl s) cue mark set).deckView (fireCommentary_demands s cue mark set)
@[simp] theorem stopCommentary_deckView : s.stopCommentary.deckView = s.deckView :=
  (stopCommentary_engines (.refl s)).deckView (stopCommentary_demands s)

/-! ### Announcements -/

@[simp] theorem annEnded_deckView (e : Entry) (o : AnnOutcome) : (s.annEnded e o).deckView = s.deckView := rfl
@[simp] theorem select_deckView : s.select.deckView = s.deckView := (select_engines (.refl s)).deckView (select_demands s)
@[simp] theorem tellFree_deckView : s.tellFree.deckView = s.deckView :=
  (tellFree_engines (.refl s)).deckView (tellFree_demands s)
@[simp] theorem activate_deckView (e : Entry) : (s.activate e).deckView = s.deckView :=
  (activate_engines (.refl s) e).deckView (activate_demands s e)
@[simp] theorem releaseActive_deckView : s.releaseActive.deckView = s.deckView :=
  (releaseActive_engines (.refl s)).deckView (releaseActive_demands s)
@[simp] theorem leaveActive_deckView : s.leaveActive.deckView = s.deckView :=
  (leaveActive_engines (.refl s)).deckView (leaveActive_demands s)
@[simp] theorem endActive_deckView (o : AnnOutcome) : (s.endActive o).deckView = s.deckView :=
  (endActive_engines (.refl s) o).deckView (endActive_demands s o)
@[simp] theorem pushStack_deckView (e : Entry) : (s.pushStack e).deckView = s.deckView :=
  (pushStack_engines (.refl s) e).deckView (pushStack_demands s e)
@[simp] theorem ownerActs_deckView (owner : Option Owner) (v : Fin 16) : (s.ownerActs owner v).deckView = s.deckView :=
  (ownerActs_engines (.refl s) owner v).deckView (ownerActs_demands s owner v)
@[simp] theorem voiceEnded_deckView (v : Fin 16) : (s.voiceEnded v).deckView = s.deckView :=
  (voiceEnded_engines (.refl s) v).deckView (voiceEnded_demands s v)
@[simp] theorem cancelEntry_deckView (e : Entry) : (s.cancelEntry e).deckView = s.deckView :=
  (cancelEntry_engines (.refl s) e).deckView (cancelEntry_demands s e)
@[simp] theorem liveRelease_deckView : s.liveRelease.deckView = s.deckView :=
  (liveRelease_engines s).deckView (liveRelease_demands s)
@[simp] theorem arbitrate_deckView : s.arbitrate.deckView = s.deckView :=
  (arbitrate_engines (.refl s)).deckView (arbitrate_demands s)

@[simp] theorem dropCueEntries_deckView : s.dropCueEntries.deckView = s.deckView := by
  refine (dropCueEntries_engines (.refl s)).deckView ?_
  unfold State.dropCueEntries
  exact foldl_demands _ (fun t e => report_demands t _) _

@[simp] theorem preempt_deckView (e : Entry) : (s.preempt e).1.deckView = s.deckView := by
  unfold State.preempt State.giveTicket
  dsimp only
  rw [select_deckView, activate_deckView, setAnn_deckView]
  split
  · simp
  · split <;> simp

@[simp] theorem joinQueue_deckView (e : Entry) : (s.joinQueue e).1.deckView = s.deckView := by
  unfold State.joinQueue State.giveTicket
  dsimp only
  simp

@[simp] theorem admitEntry_deckView (e : Entry) : (s.admitEntry e).1.deckView = s.deckView := by
  unfold State.admitEntry
  split
  · rfl
  · split
    · simp
    · split
      · simp
      · split
        · rfl
        · split <;> simp

@[simp] theorem admitSilently_deckView (e : Entry) : (s.admitSilently e).deckView = s.deckView := by
  have admitted := admitEntry_deckView s e
  unfold State.admitSilently
  revert admitted
  generalize s.admitEntry e = p
  obtain ⟨u, o⟩ := p
  intro admitted
  cases o <;> exact admitted

@[simp] theorem replyAdmission_deckView (tag : Byte) (o : Admission) : (s.replyAdmission tag o).deckView = s.deckView := by
  cases o <;> rfl

@[simp] theorem livePress_deckView : s.livePress.deckView = s.deckView := by
  unfold State.livePress
  dsimp only
  split
  · split
    · rfl
    · split
      · rfl
      · exact admitSilently_deckView _ _
  · split
    · rfl
    · exact admitSilently_deckView _ _

/-! ### Due pages, LISTENERS and the mixer's ramps -/

@[simp] theorem duePlaying_deckView (v : Fin 16) : (s.duePlaying v).deckView = s.deckView := by
  unfold State.duePlaying
  dsimp only
  split
  · simp
  · split
    · simp
    · split <;> simp

@[simp] theorem dueStopping_deckView (v : Fin 16) : (s.dueStopping v).deckView = s.deckView := by
  unfold State.dueStopping
  dsimp only
  split
  · simp
  · split <;> simp

@[simp] theorem waitingLookup_deckView (v : Fin 16) : (s.waitingLookup v).deckView = s.deckView := by
  unfold State.waitingLookup
  split
  · rfl
  · next clip page _ =>
    have looked := lookUp_deckView s v clip page
    revert looked
    generalize s.lookUp v clip page = p
    obtain ⟨u, o⟩ := p
    intro looked
    cases o
    · exact looked
    · exact (ownerActs_deckView _ _ _).trans looked
    · exact (ownerActs_deckView _ _ _).trans looked

theorem foldl_deckView {α : Type} {f : State → α → State} (hf : ∀ t a, (f t a).deckView = t.deckView) (l : List α) :
    (l.foldl f s).deckView = s.deckView := by
  induction l generalizing s with
  | nil => rfl
  | cons a l ih => exact (ih _).trans (hf s a)

@[simp] theorem tellListeners_deckView : s.tellListeners.deckView = s.deckView := by
  obtain ⟨_, _, _, _, h⟩ := tellListeners_eq s
  rw [h]; rfl

@[simp] theorem endListenersHold_deckView : s.endListenersHold.deckView = s.deckView := by
  unfold State.endListenersHold
  dsimp only
  split <;> rfl

/-- A change of the mixer beside the zones, the quiet-zone flag and the need. -/
theorem mixerUpdate_deckView {m : Mixer}
    (h : (m.upper, m.lower, m.quiet, m.need) = (s.mixer.upper, s.mixer.lower, s.mixer.quiet, s.mixer.need)) :
    ({ s with mixer := m } : State).deckView = s.deckView :=
  congrArg (DeckView.mk _ _ _ _ _ · _) h

@[simp] theorem advanceDuck_deckView (now : Clock) :
    ({ s with mixer := s.mixer.advanceDuck now } : State).deckView = s.deckView := by
  refine mixerUpdate_deckView s ?_
  unfold Mixer.advanceDuck
  split
  · rfl
  · split <;> rfl

@[simp] theorem advanceOutput_deckView (now : Clock) :
    ({ s with mixer := s.mixer.advanceOutput now } : State).deckView = s.deckView := by
  refine mixerUpdate_deckView s ?_
  unfold Mixer.advanceOutput
  split
  · rfl
  · split <;> rfl

end

end Sys2Proof.Machine
end

section
/-! SUPPORT. Invariants that read the deck view: a property of the states between events, with the one that holds amid an event.
Both are kept by every command but those that change the seat table, the route or a setting. -/

namespace Sys2Proof.Machine

/-- The deck view, with the active entry and what the announcement engine has handed its neighbours of it (R100). -/
def State.deckHanded (s : State) : DeckView × Option Entry × Bool × AnnounceClass :=
  (s.deckView, s.ann.active, s.mixer.microphone, s.lights.cls)

/-- A property `P` of the states between events and a property `Q` of those amid one, which read the deck view, `P` with what is
handed: the end of an event leads from `Q` to `P`, a derivation of the need keeps `Q`, and `P` holds after a start-up and in
STANDBY. -/
structure DeckInv (P Q : State → Prop) : Prop where
  begins : ∀ {s : State}, P s → Q s
  ends : ∀ {s : State}, Q s → P s.endEvent
  rests : ∀ {s t : State}, P s → t.deckHanded = s.deckHanded → P t
  reads : ∀ {s t : State}, Q s → t.deckView = s.deckView → Q t
  need : ∀ {s : State}, Q s → ∀ m : Mixer, m.need = s.mixer.need → Q ({ s with mixer := m } : State).deriveNeed
  startUp : ∀ {s : State}, P s → ∀ kind latches, P (s.beginStartUp kind latches)
  standby : ∀ {s : State}, P s → P s.enterStandby

/-- The commands that change the seat table's records, the route or a setting, start-ups and the entry into STANDBY apart. -/
def changesDeck : Instr → Bool
  | .missedReply _ | .pollReply _ | .setSeat _ _ _ | .seatApply _ _ | .selectRoute _ _ | .routePageArrival _
  | .setSetting _ _ _ => true
  | _ => false

/-! ### The loading sequence (R181, R182) -/

/-- A page of the loading sequence touches nothing that the deck view shows and nothing that is handed (R181). -/
theorem takeLoad_deckHanded (s : State) (r : PortRead) (d : Option (List Byte)) :
    (s.takeLoad r d).deckHanded = s.deckHanded := by
  unfold State.takeLoad
  split
  · rfl
  · dsimp only
    split <;> rfl
  · unfold State.residentPage
    split
    · rfl
    · next clip _ =>
      split
      · obtain ⟨n, f, l, fs, h⟩ := checkPage_state s r.page d clip.clip _ true
        dsimp only
        rw [h]
        rfl
      · rfl
  · unfold State.takeLockPage
    split <;> rfl
  · rfl

/-- Nor does the completion of a start-up (R182). -/
theorem completeStartUp_deckHanded (s : State) : s.completeStartUp.deckHanded = s.deckHanded := by
  have told : ∀ (l : List FaultRecord) (u : State),
      (l.foldl (fun s f => s.report (.storeFault f)) u).deckHanded = u.deckHanded := by
    intro l
    induction l with
    | nil => exact fun _ => rfl
    | cons f l ih => exact fun u => (ih _).trans rfl
  have lined : ∀ u : State, (if u.power.ignition then u else u.armTimer).kick.deckHanded = u.deckHanded := by
    intro u
    split <;> rfl
  unfold State.completeStartUp
  dsimp only
  rw [lined, told]
  rfl

namespace DeckInv
variable {P Q : State → Prop} (hI : DeckInv P Q) {s t : State}
include hI

theorem closed : Closed P where
  queue _ _ _ h := hI.rests h rfl
  link _ _ h := hI.rests h rfl
  ending _ h := hI.ends (hI.begins h)

/-! ### Cues (R30 to R36) -/

theorem setQuiet (h : Q s) (quiet : Bool) : Q (s.setQuiet quiet) := hI.need h _ rfl

theorem handCue (h : Q s) {n : Nat} {c : Cue} (hc : s.handCue n c = some t) : Q t := by
  unfold State.handCue at hc
  split at hc
  · obtain ⟨p, -, rfl⟩ := Option.map_eq_some_iff.1 hc
    exact hI.reads h (fireCommentary_deckView _ _ _ _)
  · obtain ⟨p, -, rfl⟩ := Option.map_eq_some_iff.1 hc
    exact hI.reads h (admitSilently_deckView _ _)
  · obtain ⟨p, -, rfl⟩ := Option.map_eq_some_iff.1 hc
    exact hI.reads h (admitSilently_deckView _ _)
  · split at hc
    · cases hc
    · obtain ⟨p, -, rfl⟩ := Option.map_eq_some_iff.1 hc
      exact hI.reads h rfl
  · cases hc; exact hI.setQuiet h _
  · cases hc; exact hI.setQuiet h _

theorem fireCue (h : Q s) (forced : Bool) (n : Nat) : Q (State.fireCue forced s n) := by
  unfold State.fireCue
  split
  · exact h
  · next c _ =>
    have fired : Q (s.setCues fun cs => cs.set n { c with state := .fired }) := hI.reads h rfl
    dsimp only
    split
    · next u hu => exact hI.reads (hI.handCue fired hu) rfl
    · exact hI.reads fired rfl

theorem advance (h : Q s) : Q s.advance := by
  unfold State.advance
  split
  · generalize s.dueCues = due
    clear * - hI h
    induction due generalizing s with
    | nil => exact h
    | cons n due ih => exact ih (hI.fireCue h false n)
  · exact h

theorem jumpForward (h : Q s) : Q s.jumpForward := by
  have skipped : ∀ (u : State) (n : Nat), (u.skipCue n).deckView = u.deckView := by
    intro u n
    unfold State.skipCue
    split
    · rfl
    · split <;> rfl
  unfold State.jumpForward
  split
  · exact hI.advance (hI.reads h (foldl_deckView _ skipped _))
  · exact h

theorem jumpBackward (h : Q s) (distance : Nat) : Q (s.jumpBackward distance) := by
  have rearmed : s.rearm.deckView = s.deckView := by
    unfold State.rearm
    dsimp only
    split <;> rfl
  unfold State.jumpBackward
  split
  · apply hI.advance
    split
    · exact hI.reads h rearmed
    · exact h
  · exact h

/-! ### The tracker and the modes (R1 to R15, R124, R125, R137) -/

theorem pulse (h : Q s) (arrival : BitVec 32) : Q (s.pulse arrival) := by
  unfold State.pulse
  split
  · dsimp only
    split
    · exact hI.advance (hI.reads h rfl)
    · exact hI.reads h rfl
  · exact hI.reads h rfl

theorem hardFix (h : Q s) (projected : Nat) : Q (s.hardFix projected) := by
  have placed : Q { s with
      tracker := { s.tracker with state := .placed, chainage := projected, residue := 0, correction := 0 } } := hI.reads h rfl
  unfold State.hardFix
  dsimp only
  split
  · exact hI.jumpBackward placed _
  · exact hI.jumpForward placed

theorem enterRun (h : Q s) : Q s.enterRun := hI.advance (hI.reads h rfl)

theorem leaveByMotion (h : Q s) : Q s.leaveByMotion := hI.reads (hI.enterRun h) rfl

theorem motionTest (h : Q s) : Q s.motionTest := by
  unfold State.motionTest
  split
  · split
    · exact hI.leaveByMotion h
    · exact hI.reads h rfl
  · exact h

theorem endWindow (h : Q s) : Q s.endWindow := hI.motionTest (hI.advance (hI.reads h rfl))

theorem endReload (h : Q s) (r : Reload) : Q (s.endReload r) := by
  have looked : ∀ (l : List (Fin 16)) (u : State), Q u → Q (l.foldl State.waitingLookup u) := fun l u hu =>
    hI.reads hu (foldl_deckView u waitingLookup_deckView l)
  unfold State.endReload
  generalize List.finRange 16 = voices
  dsimp only
  split
  · exact hI.leaveByMotion (looked _ _ (hI.reads h rfl))
  · exact looked _ _ (hI.reads h rfl)

theorem directoryPage (h : Q s) (use : ReadUse) (d : Option (List Byte)) (erasing : Bool) :
    Q (s.directoryPage use d erasing) := by
  unfold State.directoryPage
  split
  · exact h
  · dsimp only
    split
    · exact hI.endReload h _
    · exact hI.reads h rfl

/-! ### Power (R181 to R186) -/

theorem wakeInput (h : P s) (w : WakeCause) : P (s.wakeInput w) := by
  unfold State.wakeInput
  split
  · exact h
  · unfold State.abortEntry
    dsimp only
    split <;> exact hI.rests h rfl
  · exact hI.startUp h _ _
  · split
    · exact hI.rests h rfl
    · exact h

theorem afterWrite (h : P s) : P s.afterWrite := by
  unfold State.afterWrite
  split
  · exact hI.standby h
  · exact h

theorem writeDone (h : P s) {store : Store} {act : State → State} (ha : ∀ u, (act u).deckView = u.deckView) :
    P (s.writeDone store act) := hI.afterWrite (hI.ends (hI.reads (hI.begins h) ((ha _).trans rfl)))

theorem receive (h : P s) (b : Byte) : P (s.receive b) := by
  unfold State.receive
  split
  · split
    · exact hI.closed.setLink (hI.wakeInput h _) _
    · exact hI.closed.setLink h _
  · exact hI.closed.setLink h _

/-! ### Events and requests -/

theorem ofEvent {act : State → State} (ha : ∀ u, Q u → Q (act u)) (he : s.event act = .next t) (h : P s) : P t := by
  unfold State.event at he
  cases he
  split
  · exact hI.ends (ha _ (hI.begins h))
  · exact h

theorem ofCommand {kind : Nat} {tag : Byte} {act : State → State} (ha : ∀ u, Q u → Q (act u))
    (he : s.command kind tag act = .next t) (h : P s) : P t := by
  unfold State.command at he
  cases he
  exact hI.closed.request h fun u hu => hI.ends (ha u (hI.begins hu))

theorem ofQuery {kind : Nat} {tag : Byte} {act : State → State} (ha : ∀ u, (act u).deckHanded = u.deckHanded)
    (he : s.query kind tag act = .next t) (h : P s) : P t :=
  hI.closed.query h (fun u hu => hI.rests hu (ha u)) he

/-! ### Start-ups -/

theorem loadArrives (h : P s) (failed : Bool) : P (s.loadArrives failed) := by
  unfold State.loadArrives
  split
  · exact h
  · next r _ =>
    obtain ⟨n, hn⟩ := readPage_state s r.page failed
    dsimp only
    rw [hn]
    have loaded := hI.rests h ((takeLoad_deckHanded { s with freeSerial := n } r (s.readPage r.page failed).1).trans rfl)
    split
    · exact hI.rests loaded rfl
    · exact hI.rests loaded ((completeStartUp_deckHanded _).trans rfl)

end DeckInv
end Sys2Proof.Machine
end

section
/-! SUPPORT. The commands that change neither the seat table's records, the route nor a setting keep every invariant of the deck
view. -/

namespace Sys2Proof.Machine

@[simp] theorem enterService_deckView (s : State) : s.enterService.deckView = s.deckView := stopCommentary_deckView _

namespace DeckInv
variable {P Q : State → Prop} (hI : DeckInv P Q) {s t : State}
include hI

theorem reply (h : Q s) (kind : Nat) (tag : Byte) (code : ResultCode) (data : ReplyData) :
    Q (s.reply kind tag code data) := hI.reads h rfl

theorem ofExec {c : Instr} (hc : changesDeck c = false) (he : exec c s = .next t) (h : P s) : P t := by
  cases c
  case missedReply | pollReply | setSeat | seatApply | selectRoute | routePageArrival | setSetting => cases hc
  -- Requests that act outside any event.
  case getPosition | getCues | getSeats | getStreams | getAnnouncements | setPrecedence | clearStoreFaults | volatileOn
      | volatileOff | lockdown | freezeLocks | getStoreState | setLight | applyScene | clearScene | setMaster | getLights
      | getStatus | restart | getSetting | standby | fixSoft | detourBegin =>
    simp only [exec, execGetPosition, execGetCues, execGetSeats, execGetStreams, execGetAnnouncements, execSetPrecedence,
      execClearStoreFaults, execVolatileOn, execVolatileOff, execLockdown, execFreezeLocks, execGetStoreState, execSetLight,
      execApplyScene, execClearScene, execSetMaster, execGetLights, execGetStatus, execRestart, execGetSetting, execStandby,
      execFixSoft, execDetourBegin] at he
    exact hI.ofQuery (fun u => by (repeat' split) <;> rfl) he h
  -- Acts on fields that the deck view does not show.
  case storeRead | storeProgram | storeErase | reloadDirectory | lockPersistent | unlockAll | saveSettings =>
    simp only [exec, execStoreRead, execStoreProgram, execStoreErase, execReloadDirectory, execLockPersistent, execUnlockAll,
      execSaveSettings] at he
    exact hI.ofCommand (fun u hu => hI.reads hu (by (repeat' split) <;> rfl)) he h
  case positionReport | poll | lightRampAdvance | flashPhaseEnd | ignitionOffTimer | settingsEraseComplete =>
    simp only [exec, execPositionReport, execPoll, execLightRampAdvance, execFlashPhaseEnd, execIgnitionOffTimer,
      execSettingsEraseComplete] at he
    exact hI.ofEvent (fun u hu => hI.reads hu (by (repeat' split) <;> rfl)) he h
  -- Acts of the engines, each by its deck view lemma.
  case cancelAnnounce | announce | enterService =>
    simp only [exec, execCancelAnnounce, execAnnounce, execEnterService] at he
    exact hI.ofCommand (fun u hu => hI.reads hu (by (repeat' split) <;> simp)) he h
  case listenersHoldEnd | streamDelayEnd | segmentTimeEnd | noticeMaxWait | hangTimerExpiry | voicePageDue | fadeEnd | writeBegin
      | duckRampAdvance | outputRampAdvance | voicePageArrival | storeReadData | blankCheckData | residentPageArrival =>
    simp only [exec, execListenersHoldEnd, execStreamDelayEnd, execSegmentTimeEnd, execNoticeMaxWait, execHangTimerExpiry,
      execVoicePageDue, execFadeEnd, execWriteBegin, execDuckRampAdvance, execOutputRampAdvance, execVoicePageArrival,
      execStoreReadData, execBlankCheckData, execResidentPageArrival] at he
    exact hI.ofEvent (fun u hu => hI.reads hu (by (repeat' split) <;> simp)) he h
  -- Pulses, fixes, modes and cues: the advance rule and the jump rules.
  case odometerPulse => exact hI.ofEvent (fun u hu => hI.pulse hu _) he h
  case speedWindow =>
    simp only [exec, execSpeedWindow] at he
    refine hI.ofEvent (fun u hu => ?_) he h
    split
    · exact hI.endWindow hu
    · exact hu
  case fixHard =>
    simp only [exec, execFixHard] at he
    refine hI.ofCommand (fun u hu => ?_) he h
    split
    · exact hI.reply hu _ _ _ _
    · exact hI.hardFix (hI.reply hu _ _ _ _) _
  case detourEnd =>
    simp only [exec, execDetourEnd] at he
    refine hI.ofCommand (fun u hu => ?_) he h
    split
    · exact hI.advance (hI.reads hu rfl)
    · exact hI.reply hu _ _ _ _
  case forceCue =>
    simp only [exec, execForceCue] at he
    refine hI.ofCommand (fun u hu => ?_) he h
    split
    · exact hI.reply hu _ _ _ _
    · split
      · exact hI.reply hu _ _ _ _
      · split
        · exact hI.fireCue (hI.reply hu _ _ _ _) _ _
        · exact hI.reply hu _ _ _ _
  case leaveService =>
    simp only [exec, execLeaveService] at he
    refine hI.ofCommand (fun u hu => ?_) he h
    split
    · exact hI.reply hu _ _ _ _
    · split
      · exact hI.reply hu _ _ _ _
      · exact hI.enterRun (hI.reply hu _ _ _ _)
  case directoryPageArrival =>
    simp only [exec, execDirectoryPageArrival] at he
    refine hI.ofEvent (fun u hu => ?_) he h
    split
    · exact hu
    · split
      · exact hI.directoryPage (hI.reads hu ((portDone_deckView _).trans (readPage_deckView _ _ _))) _ _ _
      · exact hu
  -- The zones.
  case setZone tag zone gain commentary =>
    simp only [exec, execSetZone] at he
    refine hI.ofCommand (fun u hu => ?_) he h
    split
    · exact hI.reply hu _ _ _ _
    · have same : (u.mixer.putZone zone (gain.bind (asFin 16)) commentary).need = u.mixer.need := by
        unfold Mixer.putZone
        split <;> rfl
      exact hI.reply (hI.need hu _ same) _ _ _ _
  -- The receiver and the transmitter.
  case lineErrorByte | frameTimeout | badKind =>
    simp only [exec, execLineErrorByte, execFrameTimeout, execBadKind] at he
    cases he
    split
    · exact hI.rests h rfl
    · exact h
  case linkByte =>
    simp only [exec, execLinkByte] at he
    cases he
    split
    · exact hI.closed.kick (hI.receive h _)
    · split
      · exact hI.wakeInput h _
      · exact h
  case frameSent =>
    simp only [exec, execFrameSent] at he
    cases he
    split
    · exact h
    · split
      · exact hI.startUp (hI.closed.setLink h _) _ _
      · exact hI.rests h rfl
    · exact hI.rests h rfl
  -- Start-ups and the input lines.
  case powerOn => cases he; exact hI.startUp h _ _
  case startupPageArrival =>
    simp only [exec, execStartupPageArrival] at he
    cases he
    split
    · exact hI.loadArrives h _
    · exact h
  case pttPress =>
    simp only [exec, execPttPress] at he
    cases he
    split
    · exact h
    · have woken := hI.wakeInput (s := { s with power := { s.power with pttLine := true } }) (hI.rests h rfl) .ptt
      split
      · exact hI.ends (hI.reads (hI.begins woken) (livePress_deckView _))
      · exact woken
  case pttRelease =>
    simp only [exec, execPttRelease] at he
    cases he
    split
    · split
      · exact hI.ends (hI.reads (hI.begins h) ((liveRelease_deckView _).trans rfl))
      · exact hI.rests h rfl
    · exact h
  case ignitionRise =>
    simp only [exec, execIgnitionRise] at he
    cases he
    split
    · exact h
    · have woken := hI.wakeInput (s := { s with power := { s.power with ignition := true, offTimer := none } })
        (hI.rests h rfl) .ignition
      split
      · exact hI.ends (hI.begins woken)
      · exact woken
  case ignitionFall =>
    simp only [exec, execIgnitionFall] at he
    cases he
    split
    · split <;> exact hI.rests h rfl
    · exact h
  case entryPhaseEnd =>
    simp only [exec, execEntryPhaseEnd] at he
    cases he
    split
    · split
      · exact hI.standby h
      · exact hI.rests h rfl
    · exact h
  -- Writes done.
  case pageProgramComplete | sectorEraseComplete | lockProgramComplete | lockEraseComplete | settingsSaved =>
    simp only [exec, execPageProgramComplete, execSectorEraseComplete, execLockProgramComplete, execLockEraseComplete,
      execSettingsSaved] at he
    cases he
    split
    · split
      · exact hI.writeDone h fun _ => rfl
      · exact h
    · exact h

/-- A step keeps the invariant when the commands do that change the seat table, the route or a setting. -/
theorem kept (hm : ∀ c s t, changesDeck c = true → P s → exec c s = .next t → P t) : Kept P := by
  refine hI.closed.kept (fun s h => hI.rests h rfl) fun c s t h he => ?_
  cases hc : changesDeck c
  · exact hI.ofExec hc he h
  · exact hm c s t hc h he

end DeckInv
end Sys2Proof.Machine
end

section
/-! SUPPORT. The seat table's operations: what each makes of a seat, and what it leaves of the table (R42 to R54). -/

namespace Sys2Proof.Table
variable {α : Type} {n : Nat}

@[simp] theorem set_get_self (t : Table α n) (i : Fin n) : t.set i (t.get i) = t := by
  refine ext_get fun j => ?_
  rw [get_set]
  split
  · next h => rw [h]
  · rfl

end Sys2Proof.Table

namespace Sys2Proof.Machine

/-! ### Numbers in range -/

@[simp] theorem asFin_val {k : Nat} (i : Fin k) : asFin k i.val = some i := by
  unfold asFin
  rw [dif_pos i.isLt]

theorem asFin_none {k n : Nat} (h : k ≤ n) : asFin k n = none := by
  unfold asFin
  rw [dif_neg (Nat.not_lt.2 h)]

/-! ### Derived fields (R46, R56) -/

theorem get_derive (t : SeatTable) (g : Settings) (i : Fin 64) :
    (t.derive g).seats.get i =
      { t.seats.get i with
        served := servedSlot t.enabled g.defaultSlot (t.seats.get i).chosen
        effective := (t.seats.get i).effectiveNow t.warningActive g.warningFloor } := Table.get_map _ _ _

@[simp] theorem get_derive_stored (t : SeatTable) (g : Settings) (i : Fin 64) :
    ((t.derive g).seats.get i).stored = (t.seats.get i).stored := by
  rw [get_derive]
  rfl

theorem derive_derive (t : SeatTable) (g : Settings) : (t.derive g).derive g = t.derive g := by
  unfold SeatTable.derive
  congr 1
  refine Table.ext_get fun i => ?_
  rw [Table.get_map, Table.get_map]
  rfl

/-- The listener counts depend on plugs, muted flags, served slots and box states alone (R47). -/
theorem countsNow_congr {t u : SeatTable} (hb : ∀ b, (u.boxes.get b).present = (t.boxes.get b).present)
    (hs : ∀ i, ((u.seats.get i).plugged, (u.seats.get i).muted, (u.seats.get i).served) =
      ((t.seats.get i).plugged, (t.seats.get i).muted, (t.seats.get i).served)) : u.countsNow = t.countsNow := by
  simp only [Prod.mk.injEq] at hs
  have listens : ∀ i, u.listens i = t.listens i := by
    intro i
    obtain ⟨plugged, muted, served⟩ := hs i
    unfold SeatTable.listens
    rw [hb, plugged, muted, served]
  have listeners : u.listeners = t.listeners := by
    funext slot
    unfold SeatTable.listeners
    congr 2
    funext i
    rw [listens, (hs i).2.2]
  unfold SeatTable.countsNow
  rw [listeners]

/-! ### Links and chosen slots (R48, R49) -/

/-- A seat's link ended and a slot chosen for it and its followers: what a language press and SET_SEAT do (R48, R52). -/
def SeatTable.leave (t : SeatTable) (i : Fin 64) (c : Fin 12) : SeatTable :=
  { t with seats := t.seats.modify i fun seat => { seat with follow := none } }.choose i c

theorem language_some (t : SeatTable) (i : Fin 64) (c : Fin 12) : t.language i (some c) = t.leave i c := rfl

@[simp] theorem get_leave_same (t : SeatTable) (i : Fin 64) (c : Fin 12) :
    (t.leave i c).seats.get i = { t.seats.get i with chosen := c, follow := none } := by
  simp [SeatTable.leave, SeatTable.choose]

theorem get_leave_other (t : SeatTable) {i j : Fin 64} (c : Fin 12) (h : j ≠ i) :
    (t.leave i c).seats.get j =
      if (t.seats.get j).follow = some i then { t.seats.get j with chosen := c } else t.seats.get j := by
  simp [SeatTable.leave, SeatTable.choose, Table.get_modify, h, Ne.symm h]

/-! ### Buttons (R48, R50) -/

theorem press_volUp (t : SeatTable) (i j : Fin 64) :
    (t.press i .volUp).seats.get j =
      if i = j ∧ (t.seats.get j).volume < (t.seats.get j).cap then
        { t.seats.get j with volume := (t.seats.get j).volume + 1 }
      else t.seats.get j := by
  unfold SeatTable.press
  dsimp only
  rw [Table.get_modify]
  by_cases h : i = j
  · simp [h]
  · simp [h]

theorem press_volDown (t : SeatTable) (i j : Fin 64) :
    (t.press i .volDown).seats.get j =
      if i = j then { t.seats.get j with volume := (t.seats.get j).volume - 1 } else t.seats.get j :=
  Table.get_modify _ _ _ _

/-- A press that moves no volume leaves the table alone, or ends the seat's link with a slot chosen (R48). -/
theorem press_cases (t : SeatTable) (i : Fin 64) (b : Button) :
    b = .volUp ∨ b = .volDown ∨ t.press i b = t ∨ ∃ c, t.press i b = t.leave i c := by
  have language : ∀ slot, t.language i slot = t ∨ ∃ c, t.language i slot = t.leave i c := by
    intro slot
    cases slot with
    | none => exact .inl rfl
    | some c => exact .inr ⟨c, rfl⟩
  cases b with
  | langUp => exact .inr (.inr (language _))
  | langDown => exact .inr (.inr (language _))
  | volUp => exact .inl rfl
  | volDown => exact .inr (.inl rfl)

/-- Presses change seats alone. -/
theorem press_rest (t : SeatTable) (i : Fin 64) (b : Button) : ∃ seats, t.press i b = { t with seats := seats } := by
  rcases press_cases t i b with rfl | rfl | h | ⟨c, h⟩
  · exact ⟨_, rfl⟩
  · exact ⟨_, rfl⟩
  · exact ⟨t.seats, h⟩
  · exact ⟨_, h⟩

/-- No press changes a plug. -/
@[simp] theorem press_plugged (t : SeatTable) (i j : Fin 64) (b : Button) :
    ((t.press i b).seats.get j).plugged = (t.seats.get j).plugged := by
  rcases press_cases t i b with rfl | rfl | h | ⟨c, h⟩
  · rw [press_volUp]; split <;> rfl
  · rw [press_volDown]; split <;> rfl
  · rw [h]
  · rw [h]
    by_cases hj : j = i
    · subst hj; rw [get_leave_same]
    · rw [get_leave_other t c hj]; split <;> rfl

/-- The presses of a reply, one after another. -/
def SeatTable.pressAll (t : SeatTable) (b : Fin 16) (presses : List Press) : SeatTable :=
  presses.foldl (fun t p => t.press (seatOf b p.position) p.button) t

theorem pressAll_cons (t : SeatTable) (b : Fin 16) (p : Press) (presses : List Press) :
    t.pressAll b (p :: presses) = (t.press (seatOf b p.position) p.button).pressAll b presses := rfl

theorem pressAll_rest (t : SeatTable) (b : Fin 16) (presses : List Press) :
    ∃ seats, t.pressAll b presses = { t with seats := seats } := by
  induction presses generalizing t with
  | nil => exact ⟨t.seats, rfl⟩
  | cons p presses ih =>
    obtain ⟨first, hf⟩ := press_rest t (seatOf b p.position) p.button
    obtain ⟨others, ho⟩ := ih { t with seats := first }
    exact ⟨others, by rw [pressAll_cons, hf, ho]⟩

theorem pressAll_plugged (t : SeatTable) (b : Fin 16) (presses : List Press) (j : Fin 64) :
    ((t.pressAll b presses).seats.get j).plugged = (t.seats.get j).plugged := by
  induction presses generalizing t with
  | nil => rfl
  | cons p presses ih => exact (ih _).trans (press_plugged _ _ _ _)

/-! ### Replies (R42, R44) -/

theorem get_plug (t : SeatTable) (b : Fin 16) (plugs : Table Bool 4) (i : Fin 64) :
    (t.plug b plugs).seats.get i =
      if boxOf i = b then { t.seats.get i with plugged := plugs.get ⟨i.val % 4, by omega⟩ } else t.seats.get i :=
  Table.get_ofFn _ _

/-- The seats after a valid reply of a PRESENT box: its presses count exactly when its bit is new (R42). -/
theorem takeReply_seats (t : SeatTable) (r : PollReply) :
    (t.takeReply r).seats =
      if (t.boxes.get r.box).lastSequence = some r.sequence then (t.plug r.box r.plugs).seats
      else ((t.plug r.box r.plugs).pressAll r.box r.presses).seats := by
  unfold SeatTable.takeReply
  by_cases h : (t.boxes.get r.box).lastSequence = some r.sequence
  · simp [h]
  · simp only [ne_eq, h, not_false_eq_true, decide_true, if_true, if_false]
    rfl

/-- What a reply of a PRESENT box makes of the rest of the table (R42). -/
theorem takeReply_rest (t : SeatTable) (r : PollReply) :
    ∃ seats, t.takeReply r =
      { t with
        seats := seats
        boxes := t.boxes.modify r.box fun box => { box with missed := 0, lastSequence := some r.sequence } } := by
  obtain ⟨seats, h⟩ := pressAll_rest (t.plug r.box r.plugs) r.box r.presses
  unfold SeatTable.pressAll at h
  unfold SeatTable.takeReply
  dsimp only
  split
  · exact ⟨seats, by rw [h]; rfl⟩
  · exact ⟨_, rfl⟩

end Sys2Proof.Machine
end

section
/-! SUPPORT. The seat requests as operations on the table (R51 to R54). -/

namespace Sys2Proof.Machine

/-! ### SET_SEAT: its checks (R51) -/

theorem seatFieldsInRange_iff (f : SeatFields) :
    seatFieldsInRange f = true ↔
      (∀ c, f.chosen = some c → c ≤ 11) ∧ (∀ v, f.volume = some v → v ≤ 15) ∧ (∀ c, f.cap = some c → c ≤ 15) ∧
        ∀ l, f.follow = some (some l) → l ≤ 63 := by
  simp only [seatFieldsInRange, Bool.and_eq_true, Option.all_eq_true, decide_eq_true_eq, and_assoc]
  refine and_congr_right' (and_congr_right' (and_congr_right' ⟨fun h l hl => h _ hl _ rfl, ?_⟩))
  rintro h _ hf l rfl
  exact h l hf

/-- A link that SET_SEAT may not make (R51). -/
theorem tooDeep_iff {t : SeatTable} {i l : Fin 64} {f : SeatFields} (hf : f.follow = some (some l.val)) :
    t.tooDeep i f = true ↔
      l = i ∨ (t.seats.get l).follow ≠ none ∨ ∃ j, (t.seats.get j).follow = some i := by
  unfold SeatTable.tooDeep SeatTable.leads
  simp [hf, Table.any_iff, Option.isSome_iff_ne_none, or_assoc]

theorem tooDeep_free {t : SeatTable} {i : Fin 64} {f : SeatFields} (hf : f.follow = none ∨ f.follow = some none) :
    t.tooDeep i f = false := by
  unfold SeatTable.tooDeep
  rcases hf with hf | hf <;> simp [hf]

/-! ### SET_SEAT: its outcome (R52) -/

/-- Steps 1 to 3 of R52 for one seat of the table. -/
def SeatTable.level (t : SeatTable) (i : Fin 64) (f : SeatFields) : SeatTable :=
  { t with seats := t.seats.modify i fun seat => seat.setLevels f }

theorem setSeat_eq (t : SeatTable) (i : Fin 64) (f : SeatFields) : t.setSeat i f = (t.level i f).setLinks i f := rfl

theorem setLevels_eq (seat : Seat) (f : SeatFields) :
    seat.setLevels f =
      { seat with
        cap := f.cap.getD seat.cap, volume := min (f.volume.getD seat.volume) (f.cap.getD seat.cap)
        muted := f.muted.getD seat.muted } := by
  unfold Seat.setLevels
  cases f.volume <;> rfl

@[simp] theorem get_level_same (t : SeatTable) (i : Fin 64) (f : SeatFields) :
    (t.level i f).seats.get i = (t.seats.get i).setLevels f := Table.get_modify_same _ _ _

theorem get_level_other (t : SeatTable) {i j : Fin 64} (f : SeatFields) (h : j ≠ i) :
    (t.level i f).seats.get j = t.seats.get j := by
  rw [SeatTable.level, Table.get_modify, if_neg (Ne.symm h)]

/-- The levels touch no link and no chosen slot. -/
theorem level_links (t : SeatTable) (i : Fin 64) (f : SeatFields) (j : Fin 64) :
    ((t.level i f).seats.get j).follow = (t.seats.get j).follow ∧
      ((t.level i f).seats.get j).chosen = (t.seats.get j).chosen := by
  by_cases h : j = i
  · subst h; rw [get_level_same]; exact ⟨rfl, rfl⟩
  · rw [get_level_other t f h]; exact ⟨rfl, rfl⟩

/-- A seat that follows a leader, with its slot: step 4 of R52. -/
def SeatTable.join (t : SeatTable) (i l : Fin 64) : SeatTable :=
  { t with seats := t.seats.modify i fun seat => { seat with follow := some l, chosen := (t.seats.get l).chosen } }

@[simp] theorem get_join_same (t : SeatTable) (i l : Fin 64) :
    (t.join i l).seats.get i = { t.seats.get i with follow := some l, chosen := (t.seats.get l).chosen } :=
  Table.get_modify_same _ _ _

theorem get_join_other (t : SeatTable) {i j : Fin 64} (l : Fin 64) (h : j ≠ i) :
    (t.join i l).seats.get j = t.seats.get j := by
  rw [SeatTable.join, Table.get_modify, if_neg (Ne.symm h)]

/-- A seat that follows none: step 5 of R52 without a chosen slot. -/
def SeatTable.unlink (t : SeatTable) (i : Fin 64) : SeatTable :=
  { t with seats := t.seats.modify i fun seat => { seat with follow := none } }

@[simp] theorem get_unlink_same (t : SeatTable) (i : Fin 64) :
    (t.unlink i).seats.get i = { t.seats.get i with follow := none } := Table.get_modify_same _ _ _

theorem get_unlink_other (t : SeatTable) {i j : Fin 64} (h : j ≠ i) : (t.unlink i).seats.get j = t.seats.get j := by
  rw [SeatTable.unlink, Table.get_modify, if_neg (Ne.symm h)]

section
variable {t : SeatTable} {i : Fin 64} {f : SeatFields}

theorem setLinks_join {l : Fin 64} (hf : f.follow = some (some l.val)) : t.setLinks i f = t.join i l := by
  unfold SeatTable.setLinks
  simp only [hf, asFin_val]
  rfl

theorem setLinks_leave {c : Fin 12} (hf : f.follow = none ∨ f.follow = some none) (hc : f.chosen = some c.val) :
    t.setLinks i f = t.leave i c := by
  unfold SeatTable.setLinks
  rcases hf with hf | hf <;> simp only [hf, hc, Option.bind_some, asFin_val] <;> rfl

theorem setLinks_unlink (hf : f.follow = some none) (hc : f.chosen = none) : t.setLinks i f = t.unlink i := by
  unfold SeatTable.setLinks
  simp only [hf, hc, Option.bind_none]
  rfl

theorem setLinks_same (hf : f.follow = none) (hc : f.chosen = none) : t.setLinks i f = t := by
  unfold SeatTable.setLinks
  simp only [hf, hc, Option.bind_none]

/-- What a SET_SEAT in range makes of the links: steps 4 to 6 of R52. -/
theorem setLinks_cases (t : SeatTable) (i : Fin 64) (hr : seatFieldsInRange f = true) :
    (∃ l : Fin 64, f.follow = some (some l.val) ∧ t.setLinks i f = t.join i l) ∨ (∃ c, t.setLinks i f = t.leave i c) ∨
      t.setLinks i f = t.unlink i ∨ t.setLinks i f = t := by
  obtain ⟨chosen, -, -, leader⟩ := (seatFieldsInRange_iff f).1 hr
  have free (hf : f.follow = none ∨ f.follow = some none) : (∃ c, t.setLinks i f = t.leave i c) ∨
      t.setLinks i f = t.unlink i ∨ t.setLinks i f = t := by
    cases hc : f.chosen with
    | some c => exact .inl ⟨⟨c, Nat.lt_succ_of_le (chosen c hc)⟩, setLinks_leave hf hc⟩
    | none =>
      rcases hf with hf | hf
      · exact .inr (.inr (setLinks_same hf hc))
      · exact .inr (.inl (setLinks_unlink hf hc))
  cases hf : f.follow with
  | none => exact .inr (free (.inl hf))
  | some follow =>
    cases follow with
    | none => exact .inr (free (.inr hf))
    | some l =>
      let leader : Fin 64 := ⟨l, Nat.lt_succ_of_le (leader l hf)⟩
      exact .inl ⟨leader, rfl, setLinks_join hf⟩

end

/-- SET_SEAT changes seats alone. -/
theorem setSeat_rest (t : SeatTable) (i : Fin 64) {f : SeatFields} (hr : seatFieldsInRange f = true) :
    ∃ seats, t.setSeat i f = { t with seats := seats } := by
  rw [setSeat_eq]
  obtain ⟨l, -, h⟩ | ⟨c, h⟩ | h | h := setLinks_cases (t.level i f) i hr <;> exact ⟨_, h⟩

/-! ### SEAT_APPLY (R53, R54) -/

theorem seatActionValue_le {a : SeatAction} {now default top : Nat} (hv : seatActionValid a top = true) (hn : now ≤ top)
    (hd : default ≤ top) : seatActionValue a now default ≤ top := by
  cases a with
  | keep => exact hn
  | set v => exact of_decide_eq_true hv
  | default => exact hd
  | unknown => cases hv

/-- The actions of a SEAT_APPLY that passed its field check lie in their ranges (R53). -/
theorem applyInRange {a : SeatApply} (h : seatApplyValid a = true) :
    seatActionValid a.chosen 11 = true ∧ seatActionValid a.cap 15 = true := by
  simp only [seatApplyValid, Bool.and_eq_true] at h
  obtain ⟨⟨⟨⟨⟨-, chosen⟩, -⟩, cap⟩, -⟩, -⟩ := h
  exact ⟨chosen, cap⟩

theorem get_outcome (t : SeatTable) (a : SeatApply) (g : Settings) (i : Fin 64) :
    (t.outcome a g).get i = if t.selects a i = true then (t.seats.get i).apply i a g else t.seats.get i :=
  Table.get_ofFn _ _

theorem linksTooDeep_false_iff (seats : Table Seat 64) :
    linksTooDeep seats = false ↔ ∀ i l, (seats.get i).follow = some l → l ≠ i ∧ (seats.get l).follow = none := by
  simp only [linksTooDeep, List.any_eq_false, List.mem_finRange, true_implies]
  refine forall_congr' fun i => ?_
  cases (seats.get i).follow <;> simp

/-- A follower takes its leader's slot, and keeps all else (R49). -/
theorem get_copyLeaders (seats : Table Seat 64) (i : Fin 64) :
    (copyLeaders seats).get i =
      { seats.get i with chosen := ((seats.get i).follow.map fun l => (seats.get l).chosen).getD (seats.get i).chosen } := by
  unfold copyLeaders
  rw [Table.get_ofFn]
  split
  · next l h => rw [h]; rfl
  · next h => rw [h]; rfl

end Sys2Proof.Machine
end

section
/-! SUPPORT. Seats within their caps, with links one deep, through the seat table's operations (R43, R49 to R54). -/

namespace Sys2Proof.Machine

/-- The seats' part of `SeatInv`: volumes within caps of at most 15, and links one deep with the leader's slot. -/
structure SeatsSound (seats : Table Seat 64) : Prop where
  volume : ∀ i, (seats.get i).volume ≤ (seats.get i).cap
  cap : ∀ i, (seats.get i).cap ≤ 15
  link : ∀ i l, (seats.get i).follow = some l →
    l ≠ i ∧ (seats.get l).follow = none ∧ (seats.get i).chosen = (seats.get l).chosen

theorem seatInv_iff (s : State) :
    SeatInv s ↔ s.settings.Valid ∧ SeatsSound s.seats.seats ∧ ∀ b, (s.seats.boxes.get b).missed < 3 :=
  ⟨fun h => ⟨h.settings, ⟨h.volume, h.cap, h.link⟩, h.missed⟩, fun ⟨hs, ⟨hv, hc, hl⟩, hm⟩ => ⟨hs, hv, hc, hl, hm⟩⟩

/-- The fields of a seat that soundness reads. -/
def Seat.bounds (seat : Seat) : Nat × Nat × Fin 12 × Option (Fin 64) := (seat.volume, seat.cap, seat.chosen, seat.follow)

theorem Seat.bounds_of_stored {a b : Seat} (h : a.stored = b.stored) : a.bounds = b.bounds := by
  simp only [Seat.stored, Prod.mk.injEq] at h
  obtain ⟨-, chosen, volume, cap, -, follow⟩ := h
  rw [Seat.bounds, chosen, volume, cap, follow]
  rfl

namespace SeatsSound

theorem congr {x y : Table Seat 64} (h : SeatsSound x) (hb : ∀ i, (y.get i).bounds = (x.get i).bounds) : SeatsSound y := by
  simp only [Seat.bounds, Prod.mk.injEq] at hb
  have volume i := (hb i).1
  have cap i := (hb i).2.1
  have chosen i := (hb i).2.2.1
  have follow i := (hb i).2.2.2
  refine ⟨fun i => ?_, fun i => ?_, fun i l hl => ?_⟩
  · rw [volume, cap]; exact h.volume i
  · rw [cap]; exact h.cap i
  · rw [follow] at hl ⊢
    rw [chosen, chosen]
    exact h.link i l hl

theorem ofStored {x y : Table Seat 64} (h : SeatsSound x) (hs : ∀ i, (y.get i).stored = (x.get i).stored) : SeatsSound y :=
  h.congr fun i => Seat.bounds_of_stored (hs i)

variable {t : SeatTable} (h : SeatsSound t.seats)
include h

/-- A change of one seat's levels within its cap. -/
theorem relevel {u : SeatTable} {i : Fin 64} (hv : (u.seats.get i).volume ≤ (u.seats.get i).cap)
    (hc : (u.seats.get i).cap ≤ 15)
    (hl : (u.seats.get i).follow = (t.seats.get i).follow ∧ (u.seats.get i).chosen = (t.seats.get i).chosen)
    (ho : ∀ j, j ≠ i → u.seats.get j = t.seats.get j) : SeatsSound u.seats := by
  have links : ∀ j, (u.seats.get j).follow = (t.seats.get j).follow ∧ (u.seats.get j).chosen = (t.seats.get j).chosen := by
    intro j
    by_cases hj : j = i
    · subst hj; exact hl
    · rw [ho j hj]; exact ⟨rfl, rfl⟩
  refine ⟨fun j => ?_, fun j => ?_, fun j l hf => ?_⟩
  · by_cases hj : j = i
    · subst hj; exact hv
    · rw [ho j hj]; exact h.volume j
  · by_cases hj : j = i
    · subst hj; exact hc
    · rw [ho j hj]; exact h.cap j
  · rw [(links j).1] at hf
    rw [(links l).1, (links j).2, (links l).2]
    exact h.link j l hf

/-- A seat that leaves its leader takes its followers along: no seat that led a group followed one (R48, R49). -/
theorem leave (i : Fin 64) (c : Fin 12) : SeatsSound (t.leave i c).seats := by
  refine ⟨fun j => ?_, fun j => ?_, fun j l hf => ?_⟩
  · by_cases hj : j = i
    · subst hj; rw [get_leave_same]; exact h.volume j
    · rw [get_leave_other t c hj]; split <;> exact h.volume j
  · by_cases hj : j = i
    · subst hj; rw [get_leave_same]; exact h.cap j
    · rw [get_leave_other t c hj]; split <;> exact h.cap j
  · have hj : j ≠ i := by
      rintro rfl
      rw [get_leave_same] at hf
      cases hf
    have followed : (t.seats.get j).follow = some l := by
      rw [get_leave_other t c hj] at hf
      split at hf <;> exact hf
    obtain ⟨other, free, slot⟩ := h.link j l followed
    refine ⟨other, ?_⟩
    by_cases hl : l = i
    · subst hl
      rw [get_leave_same, get_leave_other t c hj, if_pos followed]
      exact ⟨rfl, rfl⟩
    · rw [get_leave_other t c hl, if_neg (by rw [free]; nofun), get_leave_other t c hj, if_neg (by simp [followed, hl])]
      exact ⟨free, slot⟩

theorem unlink (i : Fin 64) : SeatsSound (t.unlink i).seats := by
  refine ⟨fun j => ?_, fun j => ?_, fun j l hf => ?_⟩
  · by_cases hj : j = i
    · subst hj; rw [get_unlink_same]; exact h.volume j
    · rw [get_unlink_other t hj]; exact h.volume j
  · by_cases hj : j = i
    · subst hj; rw [get_unlink_same]; exact h.cap j
    · rw [get_unlink_other t hj]; exact h.cap j
  · have hj : j ≠ i := by
      rintro rfl
      rw [get_unlink_same] at hf
      cases hf
    rw [get_unlink_other t hj] at hf ⊢
    obtain ⟨other, free, slot⟩ := h.link j l hf
    refine ⟨other, ?_⟩
    by_cases hl : l = i
    · subst hl; rw [get_unlink_same]; exact ⟨rfl, slot⟩
    · rw [get_unlink_other t hl]; exact ⟨free, slot⟩

/-- A seat that leads none follows a seat that follows none (R51). -/
theorem join {i l : Fin 64} (other : l ≠ i) (free : (t.seats.get l).follow = none)
    (alone : ∀ j, (t.seats.get j).follow ≠ some i) : SeatsSound (t.join i l).seats := by
  refine ⟨fun j => ?_, fun j => ?_, fun j m hf => ?_⟩
  · by_cases hj : j = i
    · subst hj; rw [get_join_same]; exact h.volume j
    · rw [get_join_other t l hj]; exact h.volume j
  · by_cases hj : j = i
    · subst hj; rw [get_join_same]; exact h.cap j
    · rw [get_join_other t l hj]; exact h.cap j
  · by_cases hj : j = i
    · subst hj
      rw [get_join_same] at hf ⊢
      obtain rfl : l = m := Option.some.inj hf
      rw [get_join_other t l other]
      exact ⟨other, free, rfl⟩
    · rw [get_join_other t l hj] at hf ⊢
      have hm : m ≠ i := fun e => alone j (e ▸ hf)
      rw [get_join_other t l hm]
      exact h.link j m hf

/-! ### Presses and replies -/

theorem press (i : Fin 64) (b : Button) : SeatsSound (t.press i b).seats := by
  have volume := h.volume i
  have cap := h.cap i
  rcases press_cases t i b with rfl | rfl | hp | ⟨c, hp⟩
  · refine h.relevel (i := i) ?_ ?_ ?_ fun j hj => by rw [press_volUp, if_neg fun e => hj e.1.symm]
    all_goals rw [press_volUp]; split
    · next hlt => exact hlt.2
    · exact volume
    · exact cap
    · exact cap
    · exact ⟨rfl, rfl⟩
    · exact ⟨rfl, rfl⟩
  · refine h.relevel (i := i) ?_ ?_ ?_ fun j hj => by rw [press_volDown, if_neg (Ne.symm hj)]
    all_goals rw [press_volDown, if_pos rfl]
    · exact (Nat.sub_le _ _).trans volume
    · exact cap
    · exact ⟨rfl, rfl⟩
  · rw [hp]; exact h
  · rw [hp]; exact h.leave i c

theorem pressAll (b : Fin 16) (presses : List Press) : SeatsSound (t.pressAll b presses).seats := by
  induction presses generalizing t with
  | nil => exact h
  | cons p presses ih => exact ih (h.press _ _)

theorem plug (b : Fin 16) (plugs : Table Bool 4) : SeatsSound (t.plug b plugs).seats :=
  h.congr fun i => by rw [get_plug]; split <;> rfl

theorem takeReply (r : PollReply) : SeatsSound (t.takeReply r).seats := by
  rw [takeReply_seats]
  split
  · exact h.plug _ _
  · exact (h.plug r.box r.plugs).pressAll _ _

/-! ### Requests -/

theorem setSeat {i : Fin 64} {f : SeatFields} (hr : seatFieldsInRange f = true) (hd : t.tooDeep i f = false) :
    SeatsSound (t.setSeat i f).seats := by
  obtain ⟨-, -, cap, -⟩ := (seatFieldsInRange_iff f).1 hr
  have levels : SeatsSound (t.level i f).seats := by
    refine h.relevel (i := i) ?_ ?_ (level_links t i f i) fun j hj => get_level_other t f hj
    all_goals rw [get_level_same, setLevels_eq]
    · exact Nat.min_le_right _ _
    · cases hc : f.cap with
      | none => exact h.cap i
      | some c => exact cap c hc
  rw [setSeat_eq]
  obtain ⟨l, hf, hs⟩ | ⟨c, hs⟩ | hs | hs := setLinks_cases (t.level i f) i hr
  · have shallow := mt (tooDeep_iff (t := t) (i := i) hf).2 (by rw [hd]; nofun)
    simp only [not_or, not_exists, ne_eq, not_not] at shallow
    obtain ⟨other, free, alone⟩ := shallow
    rw [hs]
    exact levels.join other ((level_links t i f l).1.trans free) fun j => (level_links t i f j).1 ▸ alone j
  · rw [hs]; exact levels.leave i c
  · rw [hs]; exact levels.unlink i
  · rw [hs]; exact levels

theorem apply {a : SeatApply} {g : Settings} (hv : seatApplyValid a = true)
    (hd : linksTooDeep (t.outcome a g) = false) : SeatsSound (copyLeaders (t.outcome a g)) := by
  have links := (linksTooDeep_false_iff _).1 hd
  refine ⟨fun i => ?_, fun i => ?_, fun i l hf => ?_⟩
  · rw [get_copyLeaders, get_outcome]
    split
    · exact Nat.min_le_right _ _
    · exact h.volume i
  · rw [get_copyLeaders, get_outcome]
    split
    · exact seatActionValue_le (applyInRange hv).2 (h.cap i) (Nat.le_refl 15)
    · exact h.cap i
  · have followed : ((t.outcome a g).get i).follow = some l := by rwa [get_copyLeaders] at hf
    obtain ⟨other, free⟩ := links i l followed
    rw [get_copyLeaders, get_copyLeaders]
    exact ⟨other, free, by rw [followed, free]; rfl⟩

end SeatsSound

/-! ### Missed replies (R43) -/

theorem miss_absent {b : SeatBox} (h : b.present = false) : b.miss = b := if_neg (by rw [h]; nofun)

/-- A missed reply that makes no PRESENT box ABSENT leaves the box as PRESENT as it was. -/
theorem miss_stays {b : SeatBox} (h : ¬ (b.present = true ∧ b.miss.present = false)) : b.miss.present = b.present := by
  cases present : b.present
  · rw [miss_absent present, present]
  · simpa [present] using h

theorem miss_missed {b : SeatBox} (h : b.missed < 3) : b.miss.missed < 3 := by
  unfold SeatBox.miss
  split
  · split
    · exact Nat.zero_lt_succ 2
    · next h => exact Nat.not_le.1 h
  · exact h

/-! ### The invariant between and amid events -/

/-- Soundness reads the settings and the stored part of the seat table alone. -/
theorem SeatInv.congr {s t : State} (h : SeatInv s) (hg : t.settings = s.settings)
    (hs : ∀ i, (t.seats.seats.get i).stored = (s.seats.seats.get i).stored) (hb : t.seats.boxes = s.seats.boxes) :
    SeatInv t := by
  obtain ⟨valid, seats, missed⟩ := (seatInv_iff s).1 h
  exact (seatInv_iff t).2 ⟨hg ▸ valid, seats.ofStored hs, hb ▸ missed⟩

theorem SeatInv.reads {s t : State} (h : SeatInv s) (hv : t.deckView = s.deckView) : SeatInv t := by
  have seats : t.seats.seats = s.seats.seats := congrArg (fun v : DeckView => v.table.seats) hv
  exact h.congr (congrArg DeckView.settings hv) (fun i => by rw [seats]) (congrArg (fun v : DeckView => v.table.boxes) hv)

theorem SeatInv.acts {s t : State} (h : SeatInv s) (ha : Acts s t) : SeatInv t :=
  h.congr ha.settings (fun i => by rw [ha.seats]) (by rw [ha.seats])

theorem EventFrame.boxes {s t : State} (h : EventFrame s t) : t.seats.boxes = s.seats.boxes := by
  have hs := congrArg SeatTable.boxes h.seatTable
  exact hs

theorem EventFrame.seat {s t : State} (h : EventFrame s t) (i : Fin 64) :
    (t.seats.seats.get i).stored = (s.seats.seats.get i).stored := by
  have hi := congrArg (fun x => Table.get x i) h.stored
  rwa [Table.get_map, Table.get_map] at hi

/-- The seat table after a start-up is sound (R60). -/
theorem freshSeats_sound {g : Settings} (h : g.Valid) :
    SeatsSound (freshSeats g).seats ∧ ∀ b, ((freshSeats g).boxes.get b).missed < 3 := by
  refine ⟨⟨fun i => ?_, fun i => ?_, fun i l hl => ?_⟩, fun b => ?_⟩ <;> unfold freshSeats at *
  · rw [Table.get_fill]; exact h.defaultVolume
  · rw [Table.get_fill]
  · rw [Table.get_fill] at hl; cases hl
  · rw [Table.get_fill]; exact Nat.zero_lt_succ 2

theorem seatInv_abandon {g : Settings} (h : g.Valid) {t : State} (hg : t.settings = g) (hs : t.seats = freshSeats g) :
    SeatInv t := by
  rw [seatInv_iff, hg, hs]
  exact ⟨h, freshSeats_sound h⟩

theorem seatInv_deckInv : DeckInv SeatInv SeatInv where
  begins h := h
  ends h := h.congr (endEvent_frame _).settings (endEvent_frame _).seat (endEvent_frame _).boxes
  rests h hv := h.reads (congrArg Prod.fst hv)
  reads h hv := h.reads hv
  need {s} h m _ := by
    have changed : SeatInv { s with mixer := m } := h.congr rfl (fun _ => rfl) rfl
    exact changed.acts (deriveNeed_acts (.refl _))
  startUp {s} h kind latches :=
    seatInv_abandon (settleSettings_valid (s := { s with store := s.store.cutOff }) kind h.settings) rfl rfl
  standby h := seatInv_abandon h.settings rfl rfl

end Sys2Proof.Machine
end

section
/-! SUPPORT. A seat table taken, and the enabled slots formed again: what stands in the table afterwards (R45 to R47). -/

namespace Sys2Proof.Machine

/-- A seat table with its derived fields formed again under the enabled slots: served slots, effective volumes, counts. -/
def SeatTable.counted (t : SeatTable) (g : Settings) : SeatTable :=
  { t.derive g with counts := (t.derive g).countsNow }

section
variable (s : State) (t : SeatTable)

/-- The engines and the LISTENERS report leave what stands in the seat table beside the report's own fields. -/
theorem told_table {s u w : State} (h : Engines s u) (hw : w = u ∨ w = u.tellListeners) :
    ∃ (r : Table Nat 12) (l : Option Clock) (p : Bool),
      w.seats = { s.seats with reported := r, lastReport := l, reportPending := p } := by
  have seats : u.seats = s.seats := congrArg Fixed.seats h.fixed
  rcases hw with rfl | rfl
  · exact ⟨_, _, _, seats⟩
  · obtain ⟨r, l, p, rs, hu⟩ := tellListeners_eq u
    exact ⟨r, l, p, by rw [hu, seats]⟩

theorem seatsTaken_table :
    ∃ (r : Table Nat 12) (l : Option Clock) (p : Bool),
      (s.seatsTaken t).seats = { t.counted s.settings with reported := r, lastReport := l, reportPending := p } := by
  obtain ⟨u, hu, hw⟩ := seatsTaken_spec s t
  exact told_table hu hw

@[simp] theorem seatsTaken_boxes : (s.seatsTaken t).seats.boxes = t.boxes := by
  obtain ⟨_, _, _, h⟩ := seatsTaken_table s t
  rw [h]; rfl

@[simp] theorem seatsTaken_awaiting : (s.seatsTaken t).seats.awaiting = t.awaiting := by
  obtain ⟨_, _, _, h⟩ := seatsTaken_table s t
  rw [h]; rfl

@[simp] theorem seatsTaken_stored (i : Fin 64) : ((s.seatsTaken t).seats.seats.get i).stored = (t.seats.get i).stored := by
  obtain ⟨_, _, _, h⟩ := seatsTaken_table s t
  rw [h]; exact get_derive_stored t s.settings i

@[simp] theorem seatsTaken_settings : (s.seatsTaken t).settings = s.settings := settings_of_wide (seatsTaken_wide s t)

/-- The enabled slots formed again change no stored field, no box and no setting. -/
theorem refreshEnabled_stored (i : Fin 64) : (s.refreshEnabled.seats.seats.get i).stored = (s.seats.seats.get i).stored := by
  obtain ⟨-, h⟩ | ⟨u, hu, hw⟩ := refreshEnabled_spec s
  · rw [h]
  · obtain ⟨_, _, _, h⟩ := told_table hu hw
    rw [h]; exact get_derive_stored _ s.settings i

theorem refreshEnabled_boxes : s.refreshEnabled.seats.boxes = s.seats.boxes := by
  obtain ⟨-, h⟩ | ⟨u, hu, hw⟩ := refreshEnabled_spec s
  · rw [h]
  · obtain ⟨_, _, _, h⟩ := told_table hu hw
    rw [h]; rfl

theorem refreshEnabled_settings : s.refreshEnabled.settings = s.settings := settings_of_wide (refreshEnabled_wide s)

end

@[simp] theorem readRoutePage_deckView (s : State) (page : Nat) (failed : Bool) :
    (s.readRoutePage page failed).2.deckView = s.deckView := by
  obtain ⟨n, h⟩ := readRoutePage_state s page failed
  rw [h]; rfl

/-! ### What is left of the seats by each command that changes their table (R22 to R27, R43, R179) -/

namespace SeatInv
variable {s : State}

theorem refreshEnabled (h : SeatInv s) : SeatInv s.refreshEnabled :=
  h.congr (refreshEnabled_settings s) (refreshEnabled_stored s) (refreshEnabled_boxes s)

/-- A sound table taken. -/
theorem seatsTaken (h : SeatInv s) {t : SeatTable} (seats : SeatsSound t.seats) (missed : ∀ b, (t.boxes.get b).missed < 3) :
    SeatInv (s.seatsTaken t) := by
  rw [seatInv_iff, seatsTaken_settings, seatsTaken_boxes]
  exact ⟨h.settings, seats.ofStored (seatsTaken_stored s t), missed⟩

theorem table (h : SeatInv s) : SeatsSound s.seats.seats := ((seatInv_iff s).1 h).2.1

/-- A box record with fewer than 3 missed replies put in. -/
theorem boxes_set (h : SeatInv s) (b : Fin 16) {x : SeatBox} (hx : x.missed < 3) (c : Fin 16) :
    ((s.seats.boxes.set b x).get c).missed < 3 := by
  rw [Table.get_set]
  split
  · exact hx
  · exact h.missed c

theorem missReply (h : SeatInv s) (b : Fin 16) : SeatInv (s.missReply b) := by
  have missed := h.boxes_set b (miss_missed (h.missed b))
  unfold State.missReply
  dsimp only
  split
  · have reported : SeatInv
        (({ s with seats := { s.seats with awaiting := none } } : State).report (.boxEvent b none s.clock)) :=
      h.congr rfl (fun _ => rfl) rfl
    exact reported.seatsTaken h.table missed
  · exact (seatInv_iff _).2 ⟨h.settings, h.table, missed⟩

theorem takeReply (h : SeatInv s) (r : PollReply) : SeatInv (s.takeReply r) := by
  have missed (c : Fin 16) (x : Option Bool) (p : Bool) :
      ((s.seats.boxes.modify r.box fun box => { box with missed := 0, lastSequence := x, present := p }).get c).missed < 3 := by
    rw [Table.get_modify]
    split
    · exact Nat.zero_lt_succ 2
    · exact h.missed c
  have table : SeatsSound ({ s.seats with awaiting := none } : SeatTable).seats := h.table
  unfold State.takeReply
  dsimp only
  split
  · refine h.seatsTaken (table.takeReply r) fun c => ?_
    obtain ⟨seats, rest⟩ := takeReply_rest { s.seats with awaiting := none } r
    rw [rest, Table.get_modify]
    split
    · exact Nat.zero_lt_succ 2
    · exact h.missed c
  · have reported : SeatInv (s.report (.boxEvent r.box (some r.plugs) s.clock)) := h.congr rfl (fun _ => rfl) rfl
    exact reported.seatsTaken (table.plug r.box r.plugs) (h.boxes_set r.box (Nat.zero_lt_succ 2))

theorem darken (h : SeatInv s) : SeatInv s.darken := by
  have cleared : SeatInv { s with lights := s.lights.clearScene s.clock } := h.congr rfl (fun _ => rfl) rfl
  exact (seatInv_deckInv.setQuiet cleared false).refreshEnabled

theorem routeChange (h : SeatInv s) : SeatInv s.routeChange := by
  have left : SeatInv s.leaveRoute := by
    unfold State.leaveRoute
    split <;> exact h.congr rfl (fun _ => rfl) rfl
  have quieted : SeatInv s.leaveRoute.stopCommentary.dropCueEntries :=
    left.reads ((dropCueEntries_deckView _).trans (stopCommentary_deckView _))
  rw [routeChange_eq]
  exact quieted.darken

theorem beginLoad (h : SeatInv s) (n : Nat) (extent : Extent) : SeatInv (s.beginLoad n extent) :=
  h.congr rfl (fun _ => rfl) rfl

theorem loadPage (h : SeatInv s) (extent : Extent) (load : Load) (page : List Byte) :
    SeatInv (s.loadPage extent load page) := by
  have same {t : State} (hs : t.settings = s.settings ∧ t.seats = s.seats) : SeatInv t :=
    h.congr hs.1 (fun _ => by rw [hs.2]) (by rw [hs.2])
  unfold State.loadPage
  dsimp only
  split
  · exact SeatInv.refreshEnabled (same ⟨rfl, rfl⟩)
  · exact same ⟨rfl, rfl⟩
  · split <;> exact same ⟨rfl, rfl⟩

theorem routePage (h : SeatInv s) (serial index page : Nat) (data : Option (List Byte)) :
    SeatInv (s.routePage serial index page data) := by
  unfold State.routePage
  split
  · split
    · split
      · exact h.congr rfl (fun _ => rfl) rfl
      · exact h.loadPage _ _ _
    · exact h
  · exact h

/-- The owner of a written setting acts on a seat table that stays sound. -/
theorem settingWritten (h : SeatInv s) (id : Nat) : SeatInv (s.settingWritten id) := by
  have hI := seatInv_deckInv
  unfold State.settingWritten
  split
  case h_2 => exact hI.advance h
  case h_3 => exact hI.motionTest (hI.advance h)
  case h_4 => exact h.refreshEnabled
  case h_5 => exact h.seatsTaken h.table h.missed
  case h_6 =>
    have mixed : SeatInv { s with mixer := s.mixer.speakerWritten s.voices.voices s.settings.speakerSlot } :=
      h.congr rfl (fun _ => rfl) rfl
    have derived := mixed.acts (deriveNeed_acts (.refl _))
    exact derived.acts (.engines (.refl _) (deriveDemand_engines (.refl _)))
  case h_7 => exact h.congr rfl (get_derive_stored _ _) rfl
  case h_11 =>
    unfold State.delayWritten
    split <;> exact h.congr rfl (fun _ => rfl) rfl
  case h_13 => exact hI.need h _ rfl
  all_goals exact h.congr rfl (fun _ => rfl) rfl

/-- The commands that change the table keep it sound. -/
theorem ofChange {c : Instr} {t : State} (hc : changesDeck c = true) (h : SeatInv s) (he : exec c s = .next t) :
    SeatInv t := by
  have hI := seatInv_deckInv
  have reply {u : State} (hu : SeatInv u) (k : Nat) (tag : Byte) (c : ResultCode) (d : ReplyData) :
      SeatInv (u.reply k tag c d) :=
    hI.reply hu k tag c d
  cases c
  case missedReply box =>
    simp only [exec, execMissedReply] at he
    refine hI.ofEvent (fun u hu => ?_) he h
    split
    · exact hu.missReply box
    · exact hu
  case pollReply r =>
    simp only [exec, execPollReply] at he
    refine hI.ofEvent (fun u hu => ?_) he h
    split
    · exact hu.takeReply r
    · exact hu
  case setSeat tag seat f =>
    refine hI.ofCommand (kind := 0x18) (fun u hu => ?_) he h
    split
    · exact reply hu _ _ _ _
    · next i _ =>
      split
      · exact reply hu _ _ _ _
      · next hr =>
        split
        · exact reply hu _ _ _ _
        · next hd =>
          have inRange : seatFieldsInRange f = true := by simpa using hr
          obtain ⟨seats, rest⟩ := setSeat_rest u.seats i inRange
          refine reply (hu.seatsTaken (hu.table.setSeat inRange (by simpa using hd)) ?_) _ _ _ _
          rw [rest]
          exact hu.missed
  case seatApply tag f =>
    refine hI.ofCommand (kind := 0x19) (fun u hu => ?_) he h
    split
    · exact reply hu _ _ _ _
    · next hv =>
      dsimp only
      split
      · exact reply hu _ _ _ _
      · next hd =>
        have sound := hu.table.apply (by simpa using hv) (by simpa using hd)
        exact reply (hu.seatsTaken (t := { u.seats with seats := copyLeaders (u.seats.outcome f u.settings) }) sound
          hu.missed) _ _ _ _
  case selectRoute tag route =>
    refine hI.ofCommand (kind := 0x14) (fun u hu => ?_) he h
    split
    · exact reply hu _ _ _ _
    · split
      · exact (reply hu _ _ _ _).routeChange
      · split
        · exact reply hu _ _ _ _
        · exact (reply hu _ _ _ _).routeChange.beginLoad _ _
  case routePageArrival failed =>
    simp only [exec, execRoutePageArrival] at he
    refine hI.ofEvent (fun u hu => ?_) he h
    split
    · next page serial index _ =>
      have read : SeatInv (u.readRoutePage page failed).2.portDone :=
        hu.reads ((portDone_deckView _).trans (readRoutePage_deckView u page failed))
      exact read.routePage _ _ _ _
    · exact hu
  case setSetting tag id value =>
    refine hI.ofCommand (kind := 0x05) (fun u hu => ?_) he h
    split
    · exact reply hu _ _ _ _
    · split
      · exact reply hu _ _ _ _
      · split
        · exact reply hu _ _ _ _
        · next g hw =>
          have written : SeatInv { u with settings := g } :=
            (seatInv_iff _).2 ⟨write_valid hu.settings hw, hu.table, hu.missed⟩
          exact reply (written.settingWritten id) _ _ _ _
  all_goals cases hc

end SeatInv
end Sys2Proof.Machine
end

section
namespace Sys2Proof.Machine

/-- Settles O31: the commands that leave the seat table, the route and the settings alone by `DeckInv.kept`, each of the others
by its lemma above. -/
theorem seatsStaySound : Obligations.SeatsStaySound :=
  seatInv_deckInv.kept fun _ _ _ hc h he => h.ofChange hc he

end Sys2Proof.Machine
end

section
/-! SUPPORT. What the blocks derive from one another, in three parts: the seat table formed, need and demand handed, and the
enabled slots (R45 to R47, R56, R63, R145). -/

namespace Sys2Proof.Machine

/-! ### The three parts -/

/-- Derived fields and counts are those of the table (R46, R47, R56). -/
structure Formed (s : State) : Prop where
  derived : (s.seats.derive s.settings).seats = s.seats.seats
  counts : s.seats.counts = s.seats.countsNow

/-- The commentary need and every stream's demand are current under the counts and the enabled slots of the table (R63, R145);
only a LOADING route has a load in progress (R25, R27). -/
structure Fed (s : State) : Prop where
  load : s.cues.load ≠ none → s.cues.routeState = .loading
  need : s.mixer.need = s.mixer.needNow
  demand : ∀ i, s.demands.get i = s.demandNow i

/-- What holds amid an event of the derived state. -/
structure Current (s : State) : Prop where
  formed : Formed s
  fed : Fed s
  enabled : s.seats.enabled = s.enabledNow

/-- What the announcement engine has handed is current (R100). -/
structure Handed (s : State) : Prop where
  warning : s.seats.warningActive = s.ann.warningActive
  microphone : s.mixer.microphone = s.ann.microphone
  cls : s.lights.cls = s.ann.announceClass

theorem derive_eq_iff (t : SeatTable) (g : Settings) : t.derive g = t ↔ (t.derive g).seats = t.seats :=
  ⟨fun h => congrArg SeatTable.seats h, fun h => by
    change ({ t with seats := (t.derive g).seats } : SeatTable) = t
    rw [h]⟩

theorem derivedInv_iff (s : State) : DerivedInv s ↔ Current s ∧ Handed s where
  mp h :=
    ⟨⟨⟨(derive_eq_iff _ _).1 h.derived, h.counts⟩,
        ⟨h.load, h.need, fun i => (get_demands s i).trans (h.demand i)⟩, h.enabled⟩,
      ⟨h.warning, h.microphone, h.cls⟩⟩
  mpr := fun ⟨h, handed⟩ =>
    { load := h.fed.load, enabled := h.enabled, derived := (derive_eq_iff _ _).2 h.formed.derived, counts := h.formed.counts
      need := h.fed.need, demand := fun i => (get_demands s i).symm.trans (h.fed.demand i), warning := handed.warning
      microphone := handed.microphone, cls := handed.cls }

/-! ### What they read -/

/-- What two states with one deck view share of the seat table. -/
structure SameTable (s t : State) : Prop where
  seats : t.seats.seats = s.seats.seats
  boxes : t.seats.boxes = s.seats.boxes
  enabled : t.seats.enabled = s.seats.enabled
  counts : t.seats.counts = s.seats.counts
  warning : t.seats.warningActive = s.seats.warningActive
  settings : t.settings = s.settings

theorem sameTable_of_deckView {s t : State} (h : t.deckView = s.deckView) : SameTable s t :=
  ⟨congrArg (fun v : DeckView => v.table.seats) h, congrArg (fun v : DeckView => v.table.boxes) h,
    congrArg (fun v : DeckView => v.table.enabled) h, congrArg (fun v : DeckView => v.table.counts) h,
    congrArg (fun v : DeckView => v.table.warningActive) h, congrArg DeckView.settings h⟩

theorem sameTable_of_engines {s t : State} (h : Engines s t) : SameTable s t := by
  have seats : t.seats = s.seats := congrArg Fixed.seats h.fixed
  exact ⟨by rw [seats], by rw [seats], by rw [seats], by rw [seats], by rw [seats], congrArg Fixed.settings h.fixed⟩

theorem sameTable_of_acts {s t : State} (h : Acts s t) : SameTable s t := by
  have seats := h.seats
  exact ⟨by rw [seats], by rw [seats], by rw [seats], by rw [seats], by rw [seats], h.settings⟩

/-- What the derived fields are formed from. -/
theorem derive_congr {t u : SeatTable} {g k : Settings} (seats : u.seats = t.seats) (enabled : u.enabled = t.enabled)
    (warning : u.warningActive = t.warningActive) (slot : k.defaultSlot = g.defaultSlot)
    (floor : k.warningFloor = g.warningFloor) : (u.derive k).seats = (t.derive g).seats := by
  unfold SeatTable.derive
  rw [seats, enabled, warning, slot, floor]

/-- What the set of enabled slots is formed from (R45). -/
theorem enabledNow_congr {s t : State} (tags : t.settings.languageTags = s.settings.languageTags)
    (ready : decide (t.cues.routeState ≠ .ready) = decide (s.cues.routeState ≠ .ready)) (mask : t.cues.mask = s.cues.mask) :
    t.enabledNow = s.enabledNow := by
  unfold State.enabledNow
  rw [tags, ready, mask]

/-- With no route READY the tags alone enable a slot (R45). -/
theorem enabledNow_unready {s : State} (h : s.cues.routeState ≠ .ready) : s.enabledNow = s.settings.tagged := by
  refine Table.ext_get fun i => ?_
  rw [State.enabledNow, Table.get_ofFn, Settings.tagged, Table.get_map]
  simp [h]

/-- What the demand of a stream is derived from (R63). -/
theorem demandNow_congr {s t : State} (enabled : t.seats.enabled = s.seats.enabled) (counts : t.seats.counts = s.seats.counts)
    (speaker : t.settings.speakerSlot = s.settings.speakerSlot) (need : t.mixer.need = s.mixer.need) (i : Fin 12) :
    t.demandNow i = s.demandNow i := by
  unfold State.demandNow
  rw [enabled, counts, speaker, need]

theorem Formed.table {s t : State} (h : Formed s) (k : SameTable s t) : Formed t := by
  refine ⟨?_, ?_⟩
  · rw [derive_congr k.seats k.enabled k.warning (by rw [k.settings]) (by rw [k.settings]), k.seats]
    exact h.derived
  · rw [k.counts, h.counts]
    exact (countsNow_congr (fun b => by rw [k.boxes]) (fun i => by rw [k.seats])).symm

section
variable {s t : State}

theorem Formed.reads (h : Formed s) (hv : t.deckView = s.deckView) : Formed t := h.table (sameTable_of_deckView hv)

theorem Fed.reads (h : Fed s) (hv : t.deckView = s.deckView) : Fed t := by
  obtain ⟨-, -, enabled, counts, -, settings⟩ := sameTable_of_deckView hv
  have routeState : t.cues.routeState = s.cues.routeState := congrArg DeckView.routeState hv
  have load : t.cues.load = s.cues.load := congrArg DeckView.load hv
  have demands : t.demands = s.demands := congrArg DeckView.demands hv
  have zones := congrArg DeckView.zones hv
  simp only [State.deckView, Prod.mk.injEq] at zones
  obtain ⟨upper, lower, quiet, need⟩ := zones
  refine ⟨?_, ?_, fun i => ?_⟩
  · rw [load, routeState]; exact h.load
  · rw [Mixer.needNow, upper, lower, quiet, need]; exact h.need
  · rw [demands, demandNow_congr enabled counts (by rw [settings]) need, h.demand]

theorem Current.reads (h : Current s) (hv : t.deckView = s.deckView) : Current t := by
  have enabled := (sameTable_of_deckView hv).enabled
  refine ⟨h.formed.reads hv, h.fed.reads hv, enabled.trans (h.enabled.trans (enabledNow_congr ?_ ?_ ?_).symm)⟩
  · rw [(sameTable_of_deckView hv).settings]
  · rw [show t.cues.routeState = s.cues.routeState from congrArg DeckView.routeState hv]
  · exact congrArg DeckView.mask hv

end

/-- The engines leave the commentary need as it is, and what it is derived from. -/
theorem need_of_engines {s t : State} (h : Engines s t) (need : s.mixer.need = s.mixer.needNow) :
    t.mixer.need = t.mixer.needNow := by
  have upper : t.mixer.upper = s.mixer.upper := congrArg (fun f : Fixed => f.zones.1) h.fixed
  have lower : t.mixer.lower = s.mixer.lower := congrArg (fun f : Fixed => f.zones.2.1) h.fixed
  have quiet : t.mixer.quiet = s.mixer.quiet := congrArg (fun f : Fixed => f.zones.2.2.1) h.fixed
  have same : t.mixer.need = s.mixer.need := congrArg (fun f : Fixed => f.zones.2.2.2) h.fixed
  rw [Mixer.needNow, upper, lower, quiet, same]
  exact need

/-- The acts of an event that leave the seat table and the cue engine leave the enabled slots current. -/
theorem enabled_of_acts {s t : State} (h : Acts s t) (he : s.seats.enabled = s.enabledNow) :
    t.seats.enabled = t.enabledNow := by
  rw [h.seats, he]
  have mask : t.cues.mask = s.cues.mask := congrArg (fun v : WideView => v.cues.mask) h.wide
  exact (enabledNow_congr (by rw [h.settings]) (by rw [routeState_of_wide h.wide]) mask).symm

end Sys2Proof.Machine
end

section
/-! SUPPORT. Each operation that derives a part of the derived state makes that part current (R45 to R47, R56, R63, R145). -/

namespace Sys2Proof.Machine
variable {s : State}

/-! ### Demand and need -/

theorem deriveDemand_fed (load : s.cues.load ≠ none → s.cues.routeState = .loading) (need : s.mixer.need = s.mixer.needNow) :
    Fed s.deriveDemand := by
  have e := deriveDemand_engines (.refl s)
  refine ⟨?_, need_of_engines e need, fun i => (get_deriveDemand s i).trans (e.demandNow i).symm⟩
  rw [e.cues]
  exact load

/-- The need derived, from a state whose demand is current under the need that was handed last. -/
theorem deriveNeed_fed (load : s.cues.load ≠ none → s.cues.routeState = .loading)
    (demand : ∀ i, s.demands.get i = s.demandNow i) : Fed s.deriveNeed := by
  unfold State.deriveNeed
  split
  · next same => exact ⟨load, same.symm, demand⟩
  · exact deriveDemand_fed load rfl

/-- The need derived after a change of the mixer that leaves the need handed last. -/
theorem Fed.mixer (h : Fed s) {m : Mixer} (same : m.need = s.mixer.need) : Fed ({ s with mixer := m } : State).deriveNeed := by
  refine deriveNeed_fed h.load fun i => (h.demand i).trans ?_
  exact (demandNow_congr (s := s) (t := { s with mixer := m }) rfl rfl rfl same i).symm

theorem Formed.mixer (h : Formed s) (m : Mixer) : Formed ({ s with mixer := m } : State).deriveNeed :=
  Formed.table (s := { s with mixer := m }) ⟨h.derived, h.counts⟩ (sameTable_of_acts (deriveNeed_acts (.refl _)))

theorem Current.mixer (h : Current s) {m : Mixer} (same : m.need = s.mixer.need) :
    Current ({ s with mixer := m } : State).deriveNeed :=
  ⟨h.formed.mixer m, h.fed.mixer same, enabled_of_acts (s := { s with mixer := m }) (deriveNeed_acts (.refl _)) h.enabled⟩

/-! ### The seat table taken (R46, R47) -/

/-- The state with a seat table formed from `t`, before the changed counts are handed on. -/
def State.form (s : State) (t : SeatTable) : State := { s with seats := t.counted s.settings }

theorem counted_derive (t : SeatTable) (g : Settings) : ((t.counted g).derive g).seats = (t.counted g).seats := by
  have again := congrArg SeatTable.seats (derive_derive t g)
  exact (derive_congr (t := t.derive g) (u := t.counted g) rfl rfl rfl rfl rfl).trans again

theorem form_formed (s : State) (t : SeatTable) : Formed (s.form t) := ⟨counted_derive t s.settings, rfl⟩

/-- What a change of the seat table comes to (R47). -/
theorem seatsTaken_eq (s : State) (t : SeatTable) :
    s.seatsTaken t =
      if (s.form t).seats.counts = s.seats.counts then s.form t else (s.form t).deriveDemand.tellListeners := by
  unfold State.seatsTaken
  by_cases h : (t.derive s.settings).countsNow = s.seats.counts
  · rw [if_pos (show (s.form t).seats.counts = s.seats.counts from h)]
    simp only [h, ne_eq, not_true_eq_false, decide_false, Bool.false_eq_true, if_false]
    rw [← h]
    rfl
  · rw [if_neg (show (s.form t).seats.counts ≠ s.seats.counts from h)]
    simp only [h, ne_eq, not_false_eq_true, decide_true, if_true]
    rfl

/-- A table taken is formed, and its demand current. -/
theorem seatsTaken_current (fed : Fed s) {t : SeatTable} (same : t.enabled = s.seats.enabled)
    (enabled : s.seats.enabled = s.enabledNow) : Current (s.seatsTaken t) := by
  have slots : (s.form t).seats.enabled = (s.form t).enabledNow := same.trans enabled
  rw [seatsTaken_eq]
  split
  · next counts =>
    refine ⟨form_formed s t, ⟨fed.load, fed.need, fun i => (fed.demand i).trans ?_⟩, slots⟩
    exact (demandNow_congr (s := s) (t := s.form t) same counts rfl rfl i).symm
  · have e := deriveDemand_engines (.refl (s.form t))
    refine Current.reads (s := (s.form t).deriveDemand) ?_ (tellListeners_deckView _)
    exact ⟨(form_formed s t).table (sameTable_of_engines e), deriveDemand_fed fed.load fed.need,
      enabled_of_acts (.ofEngines e) slots⟩

/-! ### The enabled slots (R45) -/

/-- What changed enabled slots come to (R45). -/
theorem refreshEnabled_eq (s : State) :
    s.refreshEnabled = s ∧ s.seats.enabled = s.enabledNow ∨
      (s.refreshEnabled = (s.form { s.seats with enabled := s.enabledNow }).applyEnabled.deriveDemand ∨
        s.refreshEnabled = (s.form { s.seats with enabled := s.enabledNow }).applyEnabled.deriveDemand.tellListeners) := by
  unfold State.refreshEnabled
  dsimp only
  split
  · next same => exact .inl ⟨rfl, same.symm⟩
  · split
    · exact .inr (.inr rfl)
    · exact .inr (.inl rfl)

/-- The enabled slots formed again bring everything up to date. -/
theorem refreshEnabled_current (formed : Formed s) (fed : Fed s) : Current s.refreshEnabled := by
  have handed : Current (s.form { s.seats with enabled := s.enabledNow }).applyEnabled.deriveDemand := by
    have table := form_formed s { s.seats with enabled := s.enabledNow }
    have slots : (s.form { s.seats with enabled := s.enabledNow }).seats.enabled =
        (s.form { s.seats with enabled := s.enabledNow }).enabledNow := rfl
    have load : (s.form { s.seats with enabled := s.enabledNow }).cues = s.cues := rfl
    have need : (s.form { s.seats with enabled := s.enabledNow }).mixer = s.mixer := rfl
    revert table slots load need
    generalize s.form { s.seats with enabled := s.enabledNow } = u
    intro table slots load need
    have applied := applyEnabled_engines (.refl u)
    have e := deriveDemand_engines applied
    refine ⟨table.table (sameTable_of_engines e), deriveDemand_fed ?_ (need_of_engines applied ?_),
      enabled_of_acts (.ofEngines e) slots⟩
    · rw [applied.cues, load]; exact fed.load
    · rw [need]; exact fed.need
  obtain ⟨same, enabled⟩ | same | same := refreshEnabled_eq s
  · rw [same]; exact ⟨formed, fed, enabled⟩
  · rw [same]; exact handed
  · rw [same]; exact handed.reads (tellListeners_deckView _)

end Sys2Proof.Machine
end

section
/-! SUPPORT. The derived state between and amid events: the end of an event, start-ups and STANDBY (R100, R138, R181). -/

namespace Sys2Proof.Machine
variable {s : State}

/-! ### The end of an event (R100) -/

/-- WARNING active and the warning floor change effective volumes alone, and no count (R47, R56). -/
theorem warned_countsNow {t : SeatTable} {g k : Settings} (h : (t.derive g).seats = t.seats)
    (slot : k.defaultSlot = g.defaultSlot) (warning : Bool) :
    (({ t with warningActive := warning } : SeatTable).derive k).countsNow = t.countsNow := by
  refine countsNow_congr (fun _ => rfl) fun i => ?_
  have served := congrArg (fun x => (Table.get x i).served) h
  rw [get_derive] at served
  rw [get_derive, slot]
  exact congrArg (fun x => ((t.seats.get i).plugged, (t.seats.get i).muted, x)) served

theorem publish_current (h : Current s) : Current s.publish ∧ Handed s.publish := by
  have cls := (handClass_groups s.lights s.ann.announceClass s.settings.warningGroup s.settings.stopGroup s.clock).1
  unfold State.publish State.handClass
  dsimp only
  split
  · next same =>
    exact ⟨⟨⟨h.formed.derived, h.formed.counts⟩, ⟨h.fed.load, h.fed.need, h.fed.demand⟩, h.enabled⟩, same.symm, rfl, cls⟩
  · refine ⟨⟨⟨?_, ?_⟩, ⟨h.fed.load, h.fed.need, h.fed.demand⟩, h.enabled⟩, rfl, rfl, cls⟩
    · exact congrArg SeatTable.seats (derive_derive _ _)
    · exact h.formed.counts.trans (warned_countsNow h.formed.derived rfl s.ann.warningActive).symm

theorem endEvent_derived (h : Current s) : DerivedInv s.endEvent := by
  obtain ⟨current, handed⟩ := publish_current (h.reads (arbitrate_deckView s))
  have settled : s.endEvent.deckHanded = s.arbitrate.publish.deckHanded ∧ s.endEvent.ann = s.arbitrate.publish.ann := by
    obtain ⟨p, w, hp, -⟩ := settlePort_eq s.arbitrate.publish
    unfold State.endEvent
    rw [hp]
    exact ⟨rfl, rfl⟩
  obtain ⟨view, ann⟩ := settled
  simp only [State.deckHanded, Prod.mk.injEq] at view
  obtain ⟨view, -, microphone, cls⟩ := view
  refine (derivedInv_iff _).2 ⟨current.reads view, ?_, ?_, ?_⟩
  · rw [(sameTable_of_deckView view).warning, ann]; exact handed.warning
  · rw [microphone, ann]; exact handed.microphone
  · rw [cls, ann]; exact handed.cls

/-! ### Start-ups and STANDBY (R138, R181) -/

theorem freshSeats_counts (g : Settings) : (freshSeats g).countsNow = Table.fill 12 0 := by
  refine Table.ext_get fun i => ?_
  have unplugged : ∀ j, (freshSeats g).listens j = false := by
    intro j
    rw [SeatTable.listens, freshSeats, Table.get_fill]
    rfl
  rw [SeatTable.countsNow, Table.get_ofFn, Table.get_fill, SeatTable.listeners]
  simp [unplugged]

theorem freshSeats_derive (g : Settings) : ((freshSeats g).derive g).seats = (freshSeats g).seats := by
  refine Table.ext_get fun i => ?_
  rw [get_derive, freshSeats, Table.get_fill]
  rfl

/-- The values after a start-up are what the rules derive (R60, R80, R151). -/
theorem abandon_derived (s : State) (g : Settings) (power : Power) : DerivedInv (s.abandon g power) := by
  refine (derivedInv_iff _).2 ⟨⟨⟨freshSeats_derive g, ?_⟩, ⟨fun h => absurd rfl h, ?_, fun i => ?_⟩, ?_⟩, rfl, rfl, rfl⟩
  · exact (freshSeats_counts g).symm
  · show (g.lowerCommentary || g.upperCommentary) = (g.lowerCommentary || (g.upperCommentary && !false))
    rw [Bool.not_false, Bool.and_true]
  · have demand : (s.abandon g power).demands.get i =
        (g.tagged.get i && decide (i = g.speakerSlot) && (g.lowerCommentary || g.upperCommentary)) := by
      rw [State.demands, Table.get_map]
      exact congrArg Stream.demand (Table.get_ofFn _ i)
    have count : (s.abandon g power).seats.counts.get i = 0 := Table.get_fill _ i
    rw [demand, State.demandNow, count]
    exact Bool.and_assoc _ _ _
  · exact (enabledNow_unready (s := s.abandon g power) nofun).symm

/-- Handed is read off the active entry. -/
theorem derived_rests {s t : State} (h : DerivedInv s) (hv : t.deckHanded = s.deckHanded) : DerivedInv t := by
  simp only [State.deckHanded, Prod.mk.injEq] at hv
  obtain ⟨view, active, microphone, cls⟩ := hv
  obtain ⟨current, handed⟩ := (derivedInv_iff s).1 h
  refine (derivedInv_iff t).2 ⟨current.reads view, ?_, ?_, ?_⟩
  · rw [(sameTable_of_deckView view).warning, Announcements.warningActive, active]; exact handed.warning
  · rw [microphone, Announcements.microphone, active]; exact handed.microphone
  · rw [cls, Announcements.announceClass, active]; exact handed.cls

theorem derived_deckInv : DeckInv DerivedInv Current where
  begins h := ((derivedInv_iff _).1 h).1
  ends h := endEvent_derived h
  rests h hv := derived_rests h hv
  reads h hv := h.reads hv
  need h _ same := h.mixer same
  startUp {s} _ kind _ :=
    derived_rests (abandon_derived s (({ s with store := s.store.cutOff } : State).settleSettings kind).1 s.power) rfl
  standby {s} _ := derived_rests (abandon_derived s s.settings s.power) rfl

end Sys2Proof.Machine
end

section
/-! SUPPORT. The derived state through the commands that change the seat table, the route or a setting (R22 to R27, R42 to R44,
R51 to R54, R179). -/

namespace Sys2Proof.Machine

/-- A write of one setting leaves what the derived state reads to its own identifiers. -/
theorem write_derives {g g' : Settings} {id : Nat} {v : List Byte} (h : g.write id v = some g') :
    (id ≠ 9 → g'.languageTags = g.languageTags) ∧ (id ≠ 10 → g'.defaultSlot = g.defaultSlot) ∧
      (id ≠ 11 → g'.speakerSlot = g.speakerSlot) ∧ (id ≠ 13 → g'.warningFloor = g.warningFloor) := by
  unfold Settings.write at h
  dsimp only at h
  split at h
  case h_9 =>
    split at h <;> cases h
    exact ⟨fun h => absurd rfl h, fun _ => rfl, fun _ => rfl, fun _ => rfl⟩
  case h_16 | h_18 | h_20 | h_21 | h_25 | h_26 | h_29 =>
    split at h <;> cases h
    exact ⟨fun _ => rfl, fun _ => rfl, fun _ => rfl, fun _ => rfl⟩
  case h_22 | h_23 => cases h; exact ⟨fun _ => rfl, fun _ => rfl, fun _ => rfl, fun _ => rfl⟩
  case h_30 => cases h
  case h_10 =>
    obtain ⟨x, -, rfl⟩ := Option.map_eq_some_iff.1 h
    exact ⟨fun _ => rfl, fun h => absurd rfl h, fun _ => rfl, fun _ => rfl⟩
  case h_11 =>
    obtain ⟨x, -, rfl⟩ := Option.map_eq_some_iff.1 h
    exact ⟨fun _ => rfl, fun _ => rfl, fun h => absurd rfl h, fun _ => rfl⟩
  case h_13 =>
    obtain ⟨x, -, rfl⟩ := Option.map_eq_some_iff.1 h
    exact ⟨fun _ => rfl, fun _ => rfl, fun _ => rfl, fun h => absurd rfl h⟩
  all_goals
    obtain ⟨x, -, rfl⟩ := Option.map_eq_some_iff.1 h
    exact ⟨fun _ => rfl, fun _ => rfl, fun _ => rfl, fun _ => rfl⟩

section
variable {s : State}

/-! ### Settings that the derived state reads -/

theorem Fed.settings (h : Fed s) {g : Settings} (speaker : g.speakerSlot = s.settings.speakerSlot) :
    Fed { s with settings := g } := by
  refine ⟨h.load, h.need, fun i => (h.demand i).trans ?_⟩
  exact (demandNow_congr (s := s) (t := { s with settings := g }) rfl rfl speaker rfl i).symm

theorem Formed.settings (h : Formed s) {g : Settings} (slot : g.defaultSlot = s.settings.defaultSlot)
    (floor : g.warningFloor = s.settings.warningFloor) : Formed { s with settings := g } :=
  ⟨(derive_congr rfl rfl rfl slot floor).trans h.derived, h.counts⟩

theorem enabled_settings (h : s.seats.enabled = s.enabledNow) {g : Settings}
    (tags : g.languageTags = s.settings.languageTags) :
    ({ s with settings := g } : State).seats.enabled = ({ s with settings := g } : State).enabledNow :=
  h.trans (enabledNow_congr (t := { s with settings := g }) tags rfl rfl).symm

/-- A write of the speaker slot: the demand follows it (R79, R147). -/
theorem speakerWritten_current (formed : Formed s) (load : s.cues.load ≠ none → s.cues.routeState = .loading)
    (need : s.mixer.need = s.mixer.needNow) (enabled : s.seats.enabled = s.enabledNow) : Current s.speakerWritten := by
  have same : ∀ m : Mixer, m.needNow = m.need → ({ s with mixer := m } : State).deriveNeed = { s with mixer := m } :=
    fun _ h => if_pos h
  unfold State.speakerWritten
  rw [same (s.mixer.speakerWritten s.voices.voices s.settings.speakerSlot) need.symm]
  have e := deriveDemand_engines
    (.refl ({ s with mixer := s.mixer.speakerWritten s.voices.voices s.settings.speakerSlot } : State))
  have table : Formed { s with mixer := s.mixer.speakerWritten s.voices.voices s.settings.speakerSlot } :=
    ⟨formed.derived, formed.counts⟩
  exact ⟨table.table (sameTable_of_engines e), deriveDemand_fed load need, enabled_of_acts (.ofEngines e) enabled⟩

/-- A write of the warning floor: the effective volumes follow it (R56). -/
theorem floorWritten_current (h : Current s) {g : Settings} (slot : g.defaultSlot = s.settings.defaultSlot)
    (speaker : g.speakerSlot = s.settings.speakerSlot) (tags : g.languageTags = s.settings.languageTags) :
    Current { s with settings := g, seats := s.seats.derive g } := by
  have fed := h.fed.settings speaker
  refine ⟨⟨congrArg SeatTable.seats (derive_derive s.seats g), ?_⟩, ⟨fed.load, fed.need, fed.demand⟩,
    enabled_settings h.enabled tags⟩
  exact h.formed.counts.trans (warned_countsNow h.formed.derived slot s.seats.warningActive).symm

/-- The owners of the other settings keep the derived state current. -/
theorem Current.otherWritten (h : Current s) {id : Nat} (other : id ≠ 9 ∧ id ≠ 10 ∧ id ≠ 11 ∧ id ≠ 13) :
    Current (s.settingWritten id) := by
  have hI := derived_deckInv
  obtain ⟨h9, h10, h11, h13⟩ := other
  unfold State.settingWritten
  split
  case h_4 | h_5 | h_6 | h_7 => contradiction
  case h_2 => exact hI.advance h
  case h_3 => exact hI.motionTest (hI.advance h)
  case h_8 =>
    refine h.reads (mixerUpdate_deckView s ?_)
    unfold Mixer.depthWritten
    (repeat' split) <;> rfl
  case h_11 =>
    unfold State.delayWritten
    split <;> exact h.reads rfl
  case h_12 =>
    exact ⟨⟨h.formed.derived, h.formed.counts⟩, ⟨h.fed.load, h.fed.need, h.fed.demand⟩, h.enabled⟩
  case h_13 => exact h.mixer rfl
  all_goals exact h.reads rfl

/-- A written setting, with what its owner does (R179). -/
theorem Current.settingWritten (h : Current s) {g : Settings} {id : Nat} {v : List Byte}
    (hw : s.settings.write id v = some g) : Current ({ s with settings := g }.settingWritten id) := by
  obtain ⟨tags, slot, speaker, floor⟩ := write_derives hw
  by_cases h9 : id = 9
  · subst h9
    exact refreshEnabled_current (h.formed.settings (slot (by decide)) (floor (by decide)))
      (h.fed.settings (speaker (by decide)))
  by_cases h10 : id = 10
  · subst h10
    exact seatsTaken_current (h.fed.settings (speaker (by decide))) rfl (enabled_settings h.enabled (tags (by decide)))
  by_cases h11 : id = 11
  · subst h11
    exact speakerWritten_current (h.formed.settings (slot (by decide)) (floor (by decide))) h.fed.load h.fed.need
      (enabled_settings h.enabled (tags (by decide)))
  by_cases h13 : id = 13
  · subst h13
    exact floorWritten_current h (slot (by decide)) (speaker (by decide)) (tags (by decide))
  have written : Current { s with settings := g } :=
    ⟨h.formed.settings (slot h10) (floor h13), h.fed.settings (speaker h11), enabled_settings h.enabled (tags h9)⟩
  exact written.otherWritten ⟨h9, h10, h11, h13⟩

/-! ### Polls (R42 to R44) -/

/-- A box record that leaves every box PRESENT that was changes no count (R47). -/
theorem Current.boxes (h : Current s) {boxes : Table SeatBox 16} (awaiting : Option (Fin 16))
    (same : ∀ b, (boxes.get b).present = (s.seats.boxes.get b).present) :
    Current { s with seats := { s.seats with boxes := boxes, awaiting := awaiting } } := by
  refine ⟨⟨?_, h.formed.counts.trans ?_⟩, ⟨h.fed.load, h.fed.need, fun i => (h.fed.demand i).trans ?_⟩, h.enabled⟩
  · exact (derive_congr (t := s.seats) (g := s.settings) rfl rfl rfl rfl rfl).trans h.formed.derived
  · exact (countsNow_congr (t := s.seats) (u := { s.seats with boxes := boxes, awaiting := awaiting }) same fun _ => rfl).symm
  · exact (demandNow_congr (s := s) (t := { s with seats := { s.seats with boxes := boxes, awaiting := awaiting } })
      rfl rfl rfl rfl i).symm

theorem Current.missReply (h : Current s) (b : Fin 16) : Current (s.missReply b) := by
  unfold State.missReply
  dsimp only
  split
  · have reported : Current
        (({ s with seats := { s.seats with awaiting := none } } : State).report (.boxEvent b none s.clock)) := h.reads rfl
    exact seatsTaken_current reported.fed rfl reported.enabled
  · next kept =>
    refine h.boxes none fun c => ?_
    rw [Table.get_set]
    split
    · next hc =>
      subst hc
      exact miss_stays kept
    · rfl

theorem Current.takeReply (h : Current s) (r : PollReply) : Current (s.takeReply r) := by
  unfold State.takeReply
  dsimp only
  split
  · obtain ⟨seats, rest⟩ := takeReply_rest { s.seats with awaiting := none } r
    exact seatsTaken_current h.fed (by rw [rest]) h.enabled
  · have reported : Current (s.report (.boxEvent r.box (some r.plugs) s.clock)) := h.reads rfl
    exact seatsTaken_current reported.fed rfl reported.enabled

/-! ### Routes (R22 to R27) -/

theorem routeChange_current (h : Current s) : Current s.routeChange := by
  have formed : Formed s.leaveRoute := by
    unfold State.leaveRoute
    split <;> exact ⟨h.formed.derived, h.formed.counts⟩
  have fed : Fed s.leaveRoute := by
    unfold State.leaveRoute
    split <;> exact ⟨fun load => absurd rfl load, h.fed.need, h.fed.demand⟩
  have view := (dropCueEntries_deckView s.leaveRoute.stopCommentary).trans (stopCommentary_deckView _)
  rw [routeChange_eq]
  have formed := formed.reads view
  have fed := fed.reads view
  revert formed fed
  generalize s.leaveRoute.stopCommentary.dropCueEntries = u
  intro formed fed
  have dark : ({ u with lights := u.lights.clearScene u.clock } : State).deckView = u.deckView := rfl
  exact refreshEnabled_current ((formed.reads dark).mixer _) ((fed.reads dark).mixer rfl)

theorem beginLoad_current (h : Current s) (unready : s.cues.routeState ≠ .ready) (n : Nat) (extent : Extent) :
    Current (s.beginLoad n extent) := by
  refine ⟨⟨h.formed.derived, h.formed.counts⟩, ⟨fun _ => rfl, h.fed.need, h.fed.demand⟩, ?_⟩
  have begun : (s.beginLoad n extent).cues.routeState ≠ .ready := nofun
  rw [enabledNow_unready begun]
  exact h.enabled.trans (enabledNow_unready unready)

theorem failLoad_current (h : Current s) (load : s.cues.load ≠ none) (reason : RouteFailure) :
    Current (s.failLoad reason) := by
  refine ⟨⟨h.formed.derived, h.formed.counts⟩, ⟨fun load => absurd rfl load, h.fed.need, h.fed.demand⟩, ?_⟩
  have ended : (s.failLoad reason).cues.routeState ≠ .ready := nofun
  rw [enabledNow_unready ended]
  exact h.enabled.trans (enabledNow_unready (by rw [h.fed.load load]; nofun))

theorem loadPage_current (h : Current s) (loading : s.cues.load ≠ none) (extent : Extent) (load : Load) (page : List Byte) :
    Current (s.loadPage extent load page) := by
  unfold State.loadPage
  dsimp only
  split
  · exact refreshEnabled_current ⟨h.formed.derived, h.formed.counts⟩
      ⟨fun load => absurd rfl load, h.fed.need, h.fed.demand⟩
  · exact failLoad_current h loading _
  · split
    · exact failLoad_current h loading _
    · exact ⟨⟨h.formed.derived, h.formed.counts⟩, ⟨fun _ => h.fed.load loading, h.fed.need, h.fed.demand⟩, h.enabled⟩

theorem routePage_current (h : Current s) (serial index page : Nat) (data : Option (List Byte)) :
    Current (s.routePage serial index page data) := by
  unfold State.routePage
  split
  · next load extent loading _ =>
    have loads : s.cues.load ≠ none := by rw [loading]; nofun
    split
    · split
      · exact failLoad_current h loads _
      · exact loadPage_current h loads _ _ _
    · exact h
  · exact h

/-! ### The commands -/

/-- The commands that change the table, the route or a setting keep the derived state current. -/
theorem derivedInv_ofChange {c : Instr} {t : State} (hc : changesDeck c = true) (h : DerivedInv s)
    (he : exec c s = .next t) : DerivedInv t := by
  have hI := derived_deckInv
  have reply {u : State} (hu : Current u) (k : Nat) (tag : Byte) (c : ResultCode) (d : ReplyData) :
      Current (u.reply k tag c d) :=
    hI.reply hu k tag c d
  cases c
  case missedReply box =>
    simp only [exec, execMissedReply] at he
    refine hI.ofEvent (fun u hu => ?_) he h
    split
    · exact hu.missReply box
    · exact hu
  case pollReply r =>
    simp only [exec, execPollReply] at he
    refine hI.ofEvent (fun u hu => ?_) he h
    split
    · exact hu.takeReply r
    · exact hu
  case setSeat tag seat f =>
    refine hI.ofCommand (kind := 0x18) (fun u hu => ?_) he h
    split
    · exact reply hu _ _ _ _
    · next i _ =>
      split
      · exact reply hu _ _ _ _
      · next hr =>
        split
        · exact reply hu _ _ _ _
        · obtain ⟨seats, rest⟩ := setSeat_rest u.seats i (f := f) (by simpa using hr)
          exact reply (seatsTaken_current hu.fed (by rw [rest]) hu.enabled) _ _ _ _
  case seatApply tag f =>
    refine hI.ofCommand (kind := 0x19) (fun u hu => ?_) he h
    split
    · exact reply hu _ _ _ _
    · dsimp only
      split
      · exact reply hu _ _ _ _
      · exact reply (seatsTaken_current (t := { u.seats with seats := copyLeaders (u.seats.outcome f u.settings) }) hu.fed rfl
          hu.enabled) _ _ _ _
  case selectRoute tag route =>
    refine hI.ofCommand (kind := 0x14) (fun u hu => ?_) he h
    split
    · exact reply hu _ _ _ _
    · split
      · exact routeChange_current (reply hu _ _ _ _)
      · split
        · exact reply hu _ _ _ _
        · exact beginLoad_current (routeChange_current (reply hu _ _ _ _)) (by rw [routeChange_routeState]; nofun) _ _
  case routePageArrival failed =>
    simp only [exec, execRoutePageArrival] at he
    refine hI.ofEvent (fun u hu => ?_) he h
    split
    · next page serial index _ =>
      have read : Current (u.readRoutePage page failed).2.portDone :=
        hu.reads ((portDone_deckView _).trans (readRoutePage_deckView u page failed))
      exact routePage_current read _ _ _ _
    · exact hu
  case setSetting tag id value =>
    refine hI.ofCommand (kind := 0x05) (fun u hu => ?_) he h
    split
    · exact reply hu _ _ _ _
    · split
      · exact reply hu _ _ _ _
      · split
        · exact reply hu _ _ _ _
        · next hw => exact reply (hu.settingWritten hw) _ _ _ _
  all_goals cases hc

end
end Sys2Proof.Machine
end

section
namespace Sys2Proof.Machine

/-- Settles O32: the commands that leave the seat table, the route and the settings alone by `DeckInv.kept`, the others by the
lemmas about what each brings up to date. -/
theorem derivedStateStaysCurrent : Obligations.DerivedStateStaysCurrent :=
  derived_deckInv.kept fun _ _ _ hc h he => derivedInv_ofChange hc h he

end Sys2Proof.Machine
end

section
/-! OBLIGATION. Button presses (R48 to R50). -/

namespace Sys2Proof.Machine

/-! ### The slot a language press finds (R48) -/

section
variable {α : Type} {r : α → α → Prop} {l : List α} {c : α}

/-- The first of a sorted list that satisfies `p` is the one that nothing satisfying `p` precedes. -/
theorem find?_of_pairwise {p : α → Bool} (sorted : l.Pairwise r) (mem : c ∈ l) (holds : p c = true)
    (first : ∀ d ∈ l, p d = true → ¬ r d c) : l.find? p = some c := by
  induction l with
  | nil => cases mem
  | cons x xs ih =>
    obtain ⟨before, sorted⟩ := List.pairwise_cons.1 sorted
    rcases List.mem_cons.1 mem with rfl | mem
    · exact List.find?_cons_of_pos holds
    · have skipped : p x ≠ true := fun hx => first x List.mem_cons_self hx (before c mem)
      rw [List.find?_cons_of_neg skipped]
      exact ih sorted mem fun d hd => first d (List.mem_cons_of_mem _ hd)

theorem head?_of_pairwise (sorted : l.Pairwise r) (mem : c ∈ l) (first : ∀ d ∈ l, ¬ r d c) : l.head? = some c := by
  cases l with
  | nil => cases mem
  | cons x xs =>
    rcases List.mem_cons.1 mem with rfl | mem
    · rfl
    · exact absurd ((List.pairwise_cons.1 sorted).1 c mem) (first x List.mem_cons_self)

end

section
variable {enabled : Table Bool 12} {chosen c : Fin 12}

theorem mem_enabledSlots : c ∈ enabledSlots enabled ↔ enabled.get c = true := by
  simp [enabledSlots, allSlots]

theorem enabledSlots_sorted (enabled : Table Bool 12) : (enabledSlots enabled).Pairwise (· < ·) :=
  (List.pairwise_lt_finRange 12).filter _

theorem slotAbove_next (on : enabled.get c = true) (above : chosen < c)
    (least : ∀ d, enabled.get d = true → chosen < d → c ≤ d) : slotAbove enabled chosen = some c := by
  have found : (enabledSlots enabled).find? (fun s => decide (chosen < s)) = some c :=
    find?_of_pairwise (enabledSlots_sorted _) (mem_enabledSlots.2 on) (decide_eq_true above) fun d hd ha =>
      not_lt.2 (least d (mem_enabledSlots.1 hd) (of_decide_eq_true ha))
  rw [slotAbove, found]
  rfl

theorem slotAbove_wraps (on : enabled.get c = true) (least : ∀ d, enabled.get d = true → d ≤ chosen ∧ c ≤ d) :
    slotAbove enabled chosen = some c := by
  have none_above : (enabledSlots enabled).find? (fun s => decide (chosen < s)) = none := by
    simp only [List.find?_eq_none, decide_eq_true_eq, not_lt]
    exact fun d hd => (least d (mem_enabledSlots.1 hd)).1
  rw [slotAbove, none_above, Option.orElse_none]
  exact head?_of_pairwise (enabledSlots_sorted _) (mem_enabledSlots.2 on) fun d hd =>
    not_lt.2 (least d (mem_enabledSlots.1 hd)).2

theorem slotBelow_next (on : enabled.get c = true) (below : c < chosen)
    (greatest : ∀ d, enabled.get d = true → d < chosen → d ≤ c) : slotBelow enabled chosen = some c := by
  have found : (enabledSlots enabled).reverse.find? (fun s => decide (s < chosen)) = some c :=
    find?_of_pairwise (List.pairwise_reverse.2 (enabledSlots_sorted _)) (List.mem_reverse.2 (mem_enabledSlots.2 on))
      (decide_eq_true below) fun d hd hb =>
        not_lt.2 (greatest d (mem_enabledSlots.1 (List.mem_reverse.1 hd)) (of_decide_eq_true hb))
  rw [slotBelow, found]
  rfl

theorem slotBelow_wraps (on : enabled.get c = true) (greatest : ∀ d, enabled.get d = true → chosen ≤ d ∧ d ≤ c) :
    slotBelow enabled chosen = some c := by
  have none_below : (enabledSlots enabled).reverse.find? (fun s => decide (s < chosen)) = none := by
    simp only [List.find?_eq_none, List.mem_reverse, decide_eq_true_eq, not_lt]
    exact fun d hd => (greatest d (mem_enabledSlots.1 hd)).1
  rw [slotBelow, none_below, Option.orElse_none, ← List.head?_reverse]
  exact head?_of_pairwise (List.pairwise_reverse.2 (enabledSlots_sorted _)) (List.mem_reverse.2 (mem_enabledSlots.2 on))
    fun d hd => not_lt.2 (greatest d (mem_enabledSlots.1 (List.mem_reverse.1 hd))).2

theorem slots_none (off : ∀ d, enabled.get d = false) :
    slotAbove enabled chosen = none ∧ slotBelow enabled chosen = none := by
  have empty : enabledSlots enabled = [] := List.filter_eq_nil_iff.2 fun d _ => by rw [off d]; nofun
  unfold slotAbove slotBelow
  rw [empty]
  exact ⟨rfl, rfl⟩

end

/-! ### Volume presses (R50) -/

/-- A press that moves a volume changes no count (R47). -/
theorem volume_countsNow (t : SeatTable) (i : Fin 64) {b : Button} (hb : b = .volUp ∨ b = .volDown) :
    (t.press i b).countsNow = t.countsNow := by
  obtain ⟨seats, rest⟩ := press_rest t i b
  refine countsNow_congr (fun b => by rw [rest]) fun j => ?_
  rcases hb with rfl | rfl
  · rw [press_volUp]; split <;> rfl
  · rw [press_volDown]; split <;> rfl

theorem volUp_same (t : SeatTable) {i : Fin 64} (h : (t.seats.get i).volume ≤ (t.seats.get i).cap) :
    (t.press i .volUp).seats.get i =
      { t.seats.get i with volume := min ((t.seats.get i).volume + 1) (t.seats.get i).cap } := by
  rw [press_volUp]
  split
  · next room => rw [Nat.min_eq_left room.2]
  · next full =>
    have top : min ((t.seats.get i).volume + 1) (t.seats.get i).cap = (t.seats.get i).volume := by
      have := fun hlt => full ⟨rfl, hlt⟩
      omega
    rw [top]

/-- Settles O28: volume presses seat by seat; a language press by the slot it finds, and what leaving a group does with it. -/
theorem buttonPresses : Obligations.ButtonPresses := by
  intro t i
  have langUp {c : Fin 12} (found : slotAbove t.enabled (t.seats.get i).chosen = some c) : t.press i .langUp = t.leave i c := by
    rw [SeatTable.press, found, language_some]
  have langDown {c : Fin 12} (found : slotBelow t.enabled (t.seats.get i).chosen = some c) :
      t.press i .langDown = t.leave i c := by
    rw [SeatTable.press, found, language_some]
  have left (c : Fin 12) := And.intro (get_leave_same t i c) fun j (hj : j ≠ i) => get_leave_other t c hj
  refine ⟨volUp_same t, ?_, fun j hj => ⟨?_, ?_⟩, volume_countsNow t i (.inl rfl), volume_countsNow t i (.inr rfl),
    fun c on above least => ?_, fun c on least => ?_, fun c on below greatest => ?_, fun c on greatest => ?_, fun off => ?_⟩
  · rw [press_volDown, if_pos rfl]
  · rw [press_volUp, if_neg fun h => hj h.1.symm]
  · rw [press_volDown, if_neg (Ne.symm hj)]
  · rw [langUp (slotAbove_next on above least)]
    exact left c
  · rw [langUp (slotAbove_wraps on least)]
    exact left c
  · rw [langDown (slotBelow_next on below greatest)]
    exact left c
  · rw [langDown (slotBelow_wraps on greatest)]
    exact left c
  · obtain ⟨above, below⟩ := slots_none (chosen := (t.seats.get i).chosen) off
    simp only [SeatTable.press, above, below]
    exact ⟨rfl, rfl⟩

end Sys2Proof.Machine
end

section
/-! SUPPORT. What a changed seat table leaves of the link and of the poll in progress, until the end of its event. -/

namespace Sys2Proof.Machine

section
variable (s : State) (t : SeatTable)

/-- A seat table taken leaves the fixed part but for the table, and hands reports alone (R47, R58). -/
theorem seatsTaken_hands :
    (∃ rs : List Report, (s.seatsTaken t).link = rs.foldl Link.report s.link) ∧ (s.seatsTaken t).pollDue = s.pollDue := by
  obtain ⟨u, hu, hw⟩ := seatsTaken_spec s t
  obtain ⟨rs, link⟩ := hu.link
  have pollDue : u.pollDue = s.pollDue := congrArg Fixed.pollDue hu.fixed
  rcases hw with hw | hw <;> rw [hw]
  · exact ⟨⟨rs, link⟩, pollDue⟩
  · obtain ⟨_, _, _, qs, told⟩ := tellListeners_eq u
    rw [told]
    exact ⟨⟨rs ++ qs, by rw [List.foldl_append, ← link]⟩, pollDue⟩

@[simp] theorem seatsTaken_formed : (s.seatsTaken t).link.formed = s.link.formed := by
  obtain ⟨⟨rs, link⟩, -⟩ := seatsTaken_hands s t
  obtain ⟨-, -, -, -, -, -, formed, -⟩ := foldl_report_same rs s.link
  rw [link, formed]

theorem seatsTaken_holds {q : Report} (hq : q.isPosition = false) (h : s.holdsReport q) : (s.seatsTaken t).holdsReport q := by
  obtain ⟨⟨rs, link⟩, -⟩ := seatsTaken_hands s t
  obtain ⟨-, -, -, -, -, sending, -⟩ := foldl_report_same rs s.link
  unfold State.holdsReport
  rw [link, sending]
  exact h.imp (foldl_report_keeps rs _ q hq) id

end

theorem EventFrame.awaiting {s t : State} (h : EventFrame s t) : t.seats.awaiting = s.seats.awaiting := by
  have hs := congrArg SeatTable.awaiting h.seatTable
  exact hs

/-- Seats with the same stored fields, as the frame of an event's end has them. -/
theorem stored_map {x y : Table Seat 64} (h : ∀ i, (y.get i).stored = (x.get i).stored) :
    y.map Seat.stored = x.map Seat.stored := by
  refine Table.ext_get fun i => ?_
  rw [Table.get_map, Table.get_map, h]

theorem settings_cells_of_wide {s t : State} (h : t.wide = s.wide) : t.settings = s.settings ∧ t.store.cells = s.store.cells :=
  ⟨congrArg WideView.settings h, congrArg WideView.cells h⟩

end Sys2Proof.Machine
end

section
/-! OBLIGATION. Polls and missed replies (R41, R43). -/

namespace Sys2Proof.Machine

/-! ### Polls -/

theorem pollOf_eq (t : SeatTable) (b : Fin 16) :
    t.pollOf b =
      { box := b
        slots := Table.ofFn fun p => ((t.seats.get (seatOf b p)).served.map Fin.val).getD 15
        volumes := Table.ofFn fun p => (t.seats.get (seatOf b p)).effective
        ack := (t.boxes.get b).lastSequence.getD false } := by
  unfold SeatTable.pollOf
  congr 2
  funext p
  cases (t.seats.get (seatOf b p)).served <;> rfl

theorem poll_next {s : State} (b : Fin 16) (h : s.running = true) :
    exec (.poll b) s =
      .next (if s.pollReady b then
        { s with pollDue := false, seats := { s.seats with lastPoll := some (s.seats.pollOf b), awaiting := some b } }
      else s).endEvent :=
  event_next s (fun s => if s.pollReady b then
    { s with pollDue := false, seats := { s.seats with lastPoll := some (s.seats.pollOf b), awaiting := some b } } else s) h

theorem pollReady_iff (s : State) (b : Fin 16) :
    s.pollReady b = true ↔ s.pollDue = true ∧ s.seats.awaiting = none ∧ s.clock.toNat % 16 = b.val := by
  simp only [State.pollReady, Bool.and_eq_true, Option.isNone_iff_eq_none, decide_eq_true_eq, and_assoc]

/-! ### Missed replies -/

theorem missedReply_next {s : State} (b : Fin 16) (h : s.running = true) :
    exec (.missedReply b) s = .next (if s.missDue b then s.missReply b else s).endEvent :=
  event_next s (fun s => if s.missDue b then s.missReply b else s) h

theorem missDue_iff (s : State) (b : Fin 16) : s.missDue b = true ↔ s.pollDue = true ∧ s.seats.awaiting = some b := by
  simp only [State.missDue, Bool.and_eq_true, decide_eq_true_eq]

theorem miss_early {b : SeatBox} (h : b.present = true) (few : b.missed + 1 < 3) :
    b.miss = { b with missed := b.missed + 1 } := by
  rw [SeatBox.miss, if_pos h, if_neg (Nat.not_le.2 few)]

theorem miss_third {b : SeatBox} (h : b.present = true) (third : 3 ≤ b.missed + 1) :
    b.miss = { b with present := false, missed := 0 } := by
  rw [SeatBox.miss, if_pos h, if_pos third]

section
variable {s : State} {b : Fin 16}

/-- A missed reply after which the box is what it was: its record is renewed, and no seat is heard of (R43). -/
theorem missReply_stays (h : (s.seats.boxes.get b).miss.present = (s.seats.boxes.get b).present) :
    s.missReply b =
      { s with
        seats := { s.seats with awaiting := none, boxes := s.seats.boxes.set b (s.seats.boxes.get b).miss } } := by
  unfold State.missReply
  dsimp only
  rw [if_neg (by rw [h]; simp)]

/-- A missed reply that makes the box ABSENT (R43). -/
theorem missReply_lost (present : (s.seats.boxes.get b).present = true) (h : (s.seats.boxes.get b).miss.present = false) :
    s.missReply b =
      (({ s with seats := { s.seats with awaiting := none } } : State).report (.boxEvent b none s.clock)).seatsTaken
        { s.seats with boxes := s.seats.boxes.set b (s.seats.boxes.get b).miss, awaiting := none } :=
  if_pos ⟨present, h⟩

/-- What every missed reply does to the table: the poll is settled, and the box's record renewed (R43). -/
theorem missReply_table (s : State) (b : Fin 16) :
    (s.missReply b).seats.awaiting = none ∧ (s.missReply b).pollDue = s.pollDue ∧
      (∀ i, ((s.missReply b).seats.seats.get i).stored = (s.seats.seats.get i).stored) ∧
      (s.missReply b).seats.boxes = s.seats.boxes.set b (s.seats.boxes.get b).miss := by
  unfold State.missReply
  dsimp only
  split
  · rw [seatsTaken_awaiting, (seatsTaken_hands _ _).2, seatsTaken_boxes]
    exact ⟨rfl, rfl, fun i => seatsTaken_stored _ _ i, rfl⟩
  · exact ⟨rfl, rfl, fun _ => rfl, rfl⟩

theorem missReply_reports (present : (s.seats.boxes.get b).present = true) (third : 3 ≤ (s.seats.boxes.get b).missed + 1)
    (room : s.link.reports.length < 16) : (s.missReply b).holdsReport (.boxEvent b none s.clock) := by
  rw [missReply_lost present (by rw [miss_third present third])]
  exact seatsTaken_holds _ _ rfl (report_holds _ _ room)

end

/-- Settles O26: the poll as `pollOf` forms it, and the missed reply by what it makes of the box's record. -/
theorem pollsAndMissedReplies : Obligations.PollsAndMissedReplies := by
  refine ⟨fun b s running => ⟨fun due idle turn => ?_, fun idle => ?_⟩,
    fun b s running => ⟨fun due awaited => ?_, fun idle => ?_⟩⟩
  · refine ⟨_, poll_next b running, ?_⟩
    rw [if_pos ((pollReady_iff s b).2 ⟨due, idle, turn⟩), pollOf_eq]
    exact endEvent_frame _
  · refine ⟨_, poll_next b running, ?_⟩
    rw [if_neg (by rw [pollReady_iff, not_and_or, not_and_or, Bool.not_eq_true]; exact idle)]
    exact endEvent_frame s
  · have next := missedReply_next b running
    rw [if_pos ((missDue_iff s b).2 ⟨due, awaited⟩)] at next
    obtain ⟨settings, cells⟩ := settings_cells_of_wide (exec_wide rfl next)
    obtain ⟨awaiting, pollDue, stored, boxes⟩ := missReply_table s b
    have frame := endEvent_frame (s.missReply b)
    refine ⟨_, next, frame.awaiting.trans awaiting, frame.pollDue.trans (pollDue.trans due),
      frame.stored.trans (stored_map stored), settings, cells, fun present few => ?_,
      fun present third => ⟨?_, fun room => frame.reports _ rfl (missReply_reports present third room)⟩, fun absent => ?_⟩
    · rw [missReply_stays (by rw [miss_early present few]), miss_early present few]
      exact endEvent_frame _
    · rw [frame.boxes, boxes, miss_third present third]
    · rw [frame.boxes, boxes, miss_absent absent, Table.set_get_self]
  · refine ⟨_, missedReply_next b running, ?_⟩
    rw [if_neg (by rw [missDue_iff, not_and_or, Bool.not_eq_true]; exact idle)]
    exact endEvent_frame s

end Sys2Proof.Machine
end

section
/-! OBLIGATION. Poll replies (R42, R44, R48). -/

namespace Sys2Proof.Machine

theorem pollReply_next {s : State} (r : PollReply) (h : s.running = true) :
    exec (.pollReply r) s = .next (if s.seats.valid r then s.takeReply r else s).endEvent :=
  event_next s (fun s => if s.seats.valid r then s.takeReply r else s) h

theorem valid_iff (t : SeatTable) (r : PollReply) :
    t.valid r = true ↔ t.awaiting = some r.box ∧ r.checked = true ∧ r.presses.length ≤ 4 := by
  simp only [SeatTable.valid, Bool.and_eq_true, decide_eq_true_eq, and_assoc]

/-- Two seats with the same stored fields but for the plug differ in the plug and the derived fields alone. -/
theorem Seat.beside_plug {a b : Seat} {plug : Bool} (h : a.stored = { b with plugged := plug }.stored) :
    { a with plugged := false, served := none, effective := 0 } =
      { b with plugged := false, served := none, effective := 0 } := by
  simp only [Seat.stored, Prod.mk.injEq] at h
  obtain ⟨-, chosen, volume, cap, muted, follow⟩ := h
  rw [chosen, volume, cap, muted, follow]

/-- A seat's plug as a reply of the box gives it (R42). -/
theorem plug_plugged (t : SeatTable) (b : Fin 16) (plugs : Table Bool 4) (i : Fin 64) :
    ((t.plug b plugs).seats.get i).plugged =
      if boxOf i = b then plugs.get ⟨i.val % 4, by omega⟩ else (t.seats.get i).plugged := by
  rw [get_plug]
  split <;> rfl

/-- Plugs read leave all else of a seat. -/
theorem plug_beside (t : SeatTable) (b : Fin 16) (plugs : Table Bool 4) (i : Fin 64) :
    ∃ plug, ((t.plug b plugs).seats.get i) = { t.seats.get i with plugged := plug } := by
  rw [get_plug]
  split
  · exact ⟨_, rfl⟩
  · exact ⟨(t.seats.get i).plugged, rfl⟩

section
variable {s : State} {r : PollReply}

theorem takeReply_present (h : (s.seats.boxes.get r.box).present = true) :
    s.takeReply r = s.seatsTaken (({ s.seats with awaiting := none } : SeatTable).takeReply r) := if_pos h

theorem takeReply_absent (h : (s.seats.boxes.get r.box).present = false) :
    s.takeReply r = (s.report (.boxEvent r.box (some r.plugs) s.clock)).seatsTaken
      (({ s.seats with awaiting := none } : SeatTable).findBox r) := if_neg (by rw [h]; nofun)

/-- The table after a valid reply beside the seats: the poll is answered and the box's record renewed (R42, R44). -/
theorem takeReply_table (s : State) (r : PollReply) :
    (s.takeReply r).seats.awaiting = none ∧
      (s.takeReply r).seats.boxes =
        s.seats.boxes.set r.box { present := true, missed := 0, lastSequence := some r.sequence } := by
  cases h : (s.seats.boxes.get r.box).present
  · rw [takeReply_absent h, seatsTaken_awaiting, seatsTaken_boxes]
    exact ⟨rfl, rfl⟩
  · obtain ⟨seats, rest⟩ := takeReply_rest { s.seats with awaiting := none } r
    rw [takeReply_present h, seatsTaken_awaiting, seatsTaken_boxes, rest]
    refine ⟨rfl, Table.ext_get fun b => ?_⟩
    rw [Table.get_modify, Table.get_set]
    split
    · next hb => subst hb; rw [h]
    · rfl

/-- From an ABSENT box, or with a repeated bit, a reply's presses are discarded (R42, R44). -/
theorem takeReply_discards
    (h : (s.seats.boxes.get r.box).present = false ∨ (s.seats.boxes.get r.box).lastSequence = some r.sequence) (i : Fin 64) :
    ((s.takeReply r).seats.seats.get i).stored = ((s.seats.plug r.box r.plugs).seats.get i).stored := by
  cases present : (s.seats.boxes.get r.box).present
  · rw [takeReply_absent present, seatsTaken_stored]
    rfl
  · have repeated := h.resolve_left (by rw [present]; nofun)
    rw [takeReply_present present, seatsTaken_stored, takeReply_seats, if_pos repeated]
    rfl

/-- From a PRESENT box with a new bit its presses are applied in order (R42). -/
theorem takeReply_applies (present : (s.seats.boxes.get r.box).present = true)
    (fresh : (s.seats.boxes.get r.box).lastSequence ≠ some r.sequence) (i : Fin 64) :
    ((s.takeReply r).seats.seats.get i).stored =
      (((({ s.seats with awaiting := none } : SeatTable).plug r.box r.plugs).pressAll r.box r.presses).seats.get i).stored := by
  rw [takeReply_present present, seatsTaken_stored, takeReply_seats, if_neg fresh]

theorem takeReply_plugged (s : State) (r : PollReply) (i : Fin 64) :
    ((s.takeReply r).seats.seats.get i).plugged =
      if boxOf i = r.box then r.plugs.get ⟨i.val % 4, by omega⟩ else (s.seats.seats.get i).plugged := by
  by_cases h : (s.seats.boxes.get r.box).present = false ∨ (s.seats.boxes.get r.box).lastSequence = some r.sequence
  · exact (congrArg Prod.fst (takeReply_discards h i)).trans (plug_plugged s.seats r.box r.plugs i)
  · simp only [not_or, Bool.not_eq_false] at h
    exact (congrArg Prod.fst (takeReply_applies h.1 h.2 i)).trans
      ((pressAll_plugged _ _ _ _).trans (plug_plugged { s.seats with awaiting := none } r.box r.plugs i))

theorem takeReply_found (absent : (s.seats.boxes.get r.box).present = false) (room : s.link.reports.length < 16) :
    (s.takeReply r).holdsReport (.boxEvent r.box (some r.plugs) s.clock) := by
  rw [takeReply_absent absent]
  exact seatsTaken_holds _ _ rfl (report_holds s _ room)

end

/-- Settles O27: what a valid reply makes of the table, seat by seat, with its presses or without them. -/
theorem replyTaken : Obligations.ReplyTaken := by
  intro r s running
  have next := pollReply_next r running
  obtain ⟨settings, cells⟩ := settings_cells_of_wide (exec_wide rfl next)
  refine ⟨_, next, settings, cells, fun invalid => ?_, fun awaited checked few => ?_⟩
  · have refused : ¬ s.seats.valid r = true := by
      rw [valid_iff, not_and_or, not_and_or, Bool.not_eq_true, Nat.not_le]
      exact invalid
    rw [if_neg refused]
    exact endEvent_frame s
  · rw [if_pos ((valid_iff _ _).2 ⟨awaited, checked, few⟩)]
    obtain ⟨awaiting, boxes⟩ := takeReply_table s r
    have frame := endEvent_frame (s.takeReply r)
    refine ⟨frame.awaiting.trans awaiting, frame.boxes.trans boxes, fun i => ?_, fun discarded i => ?_,
      fun present fresh i => (frame.seat i).trans (takeReply_applies present fresh i),
      fun absent room => frame.reports _ rfl (takeReply_found absent room)⟩
    · exact (congrArg Prod.fst (frame.seat i)).trans (takeReply_plugged s r i)
    · obtain ⟨plug, same⟩ := plug_beside s.seats r.box r.plugs i
      have stored := (frame.seat i).trans (takeReply_discards discarded i)
      rw [same] at stored
      exact Seat.beside_plug stored

end Sys2Proof.Machine
end

section
/-! OBLIGATION. SET_SEAT (R51, R52). -/

namespace Sys2Proof.Machine

/-- The outcome of a request is the end of the event in which its owner acts. -/
theorem command_comes_to {s u : State} {kind : Nat} {tag : Byte} {act : State → State} (h : s.takes kind tag)
    (hu : act (s.taken kind tag) = u) : s.command kind tag act = .next u.endEvent := by
  rw [command_next h, hu]

/-- A command comes to one outcome. -/
theorem next_unique {x : Result} {t u : State} (ht : x = .next t) (hu : x = .next u) : t = u := by
  cases ht.symm.trans hu
  rfl

/-- A request that takes a seat table and answers is answered. -/
theorem seatsTaken_answered (s : State) (kind : Nat) (tag : Byte) (t : SeatTable) (code : ResultCode) (data : ReplyData) :
    s.answered (((s.taken kind tag).seatsTaken t).reply kind tag code data).endEvent kind tag code data := by
  have held := reply_holds ((s.taken kind tag).seatsTaken t) kind tag code data
  rw [seatsTaken_formed] at held
  exact endEvent_answered held

/-! ### The table after a SET_SEAT, seat by seat (R52) -/

section
variable (t : SeatTable) {i : Fin 64} {f : SeatFields}

theorem get_setSeat_join {l : Fin 64} (hf : f.follow = some (some l.val)) (j : Fin 64) :
    (t.setSeat i f).seats.get j =
      if j = i then { (t.seats.get i).setLevels f with follow := some l, chosen := (t.seats.get l).chosen }
      else t.seats.get j := by
  rw [setSeat_eq, setLinks_join hf]
  split
  · next hj => subst hj; rw [get_join_same, (level_links t j f l).2, get_level_same]
  · next hj => rw [get_join_other _ l hj, get_level_other t f hj]

theorem get_setSeat_leave {c : Fin 12} (hf : f.follow = none ∨ f.follow = some none) (hc : f.chosen = some c.val) (j : Fin 64) :
    (t.setSeat i f).seats.get j =
      if j = i then { (t.seats.get i).setLevels f with chosen := c, follow := none }
      else if (t.seats.get j).follow = some i then { t.seats.get j with chosen := c } else t.seats.get j := by
  rw [setSeat_eq, setLinks_leave hf hc]
  split
  · next hj => subst hj; rw [get_leave_same, get_level_same]
  · next hj => rw [get_leave_other _ c hj, get_level_other t f hj]

theorem get_setSeat_unlink (hf : f.follow = some none) (hc : f.chosen = none) (j : Fin 64) :
    (t.setSeat i f).seats.get j =
      if j = i then { (t.seats.get i).setLevels f with follow := none } else t.seats.get j := by
  rw [setSeat_eq, setLinks_unlink hf hc]
  split
  · next hj => subst hj; rw [get_unlink_same, get_level_same]
  · next hj => rw [get_unlink_other _ hj, get_level_other t f hj]

theorem get_setSeat_level (hf : f.follow = none) (hc : f.chosen = none) (j : Fin 64) :
    (t.setSeat i f).seats.get j = if j = i then (t.seats.get i).setLevels f else t.seats.get j := by
  rw [setSeat_eq, setLinks_same hf hc]
  split
  · next hj => subst hj; rw [get_level_same]
  · next hj => rw [get_level_other t f hj]

end

/-! ### What the request comes to -/

section
variable {s : State} {tag : Byte} {f : SeatFields}

theorem setSeat_range {n : Nat} (h : s.takes 0x18 tag) (bad : 63 < n ∨ seatFieldsInRange f = false) :
    exec (.setSeat tag n f) s = .next ((s.taken 0x18 tag).reply 0x18 tag .range).endEvent := by
  refine command_comes_to h ?_
  dsimp only
  rcases bad with high | bad
  · rw [asFin_none high]
  · split
    · rfl
    · rw [if_pos bad]

theorem setSeat_tooDeep {i : Fin 64} (h : s.takes 0x18 tag) (inRange : seatFieldsInRange f = true)
    (deep : s.seats.tooDeep i f = true) :
    exec (.setSeat tag i.val f) s = .next ((s.taken 0x18 tag).reply 0x18 tag .linkDepth).endEvent := by
  refine command_comes_to h ?_
  simp only [asFin_val]
  rw [if_neg (by rw [inRange]; nofun), if_pos (show (s.taken 0x18 tag).seats.tooDeep i f = true from deep)]

/-- The state after a SET_SEAT that passed its checks, before the end of its event. -/
def State.seatSet (s : State) (tag : Byte) (i : Fin 64) (f : SeatFields) : State :=
  (s.taken 0x18 tag).seatsTaken (s.seats.setSeat i f)

theorem setSeat_passes {i : Fin 64} (h : s.takes 0x18 tag) (inRange : seatFieldsInRange f = true)
    (shallow : s.seats.tooDeep i f = false) :
    exec (.setSeat tag i.val f) s =
      .next ((s.seatSet tag i f).reply 0x18 tag .ok (.seat ((s.seatSet tag i f).seats.view i))).endEvent := by
  refine command_comes_to h ?_
  have notDeep : (s.taken 0x18 tag).seats.tooDeep i f = false := shallow
  simp only [asFin_val]
  rw [if_neg (by rw [inRange]; nofun), if_neg (by rw [notDeep]; nofun)]
  rfl

/-- What a SET_SEAT that passed its checks leaves: the table's stored fields, its boxes, and the reply
with the seat's record. -/
structure SeatSetTo (s t : State) (tag : Byte) (i : Fin 64) (u : SeatTable) : Prop where
  stored : ∀ j, (t.seats.seats.get j).stored = (u.seats.get j).stored
  boxes : t.seats.boxes = s.seats.boxes
  replied : ∃ view, s.answered t 0x18 tag .ok (.seat view) ∧ view.number = i ∧
    view.seat.stored = (t.seats.seats.get i).stored

theorem setSeat_done {i : Fin 64} {t : State} (h : s.takes 0x18 tag) (inRange : seatFieldsInRange f = true)
    (shallow : s.seats.tooDeep i f = false) (next : exec (.setSeat tag i.val f) s = .next t) :
    SeatSetTo s t tag i (s.seats.setSeat i f) := by
  obtain rfl := (next_unique next (setSeat_passes h inRange shallow))
  have frame := endEvent_frame ((s.seatSet tag i f).reply 0x18 tag .ok (.seat ((s.seatSet tag i f).seats.view i)))
  refine ⟨fun j => (frame.seat j).trans (seatsTaken_stored _ _ j), frame.boxes.trans ?_, ?_⟩
  · obtain ⟨seats, rest⟩ := setSeat_rest s.seats i inRange
    exact (seatsTaken_boxes _ _).trans (by rw [rest])
  · exact ⟨_, seatsTaken_answered s 0x18 tag _ .ok _, rfl, (frame.seat i).symm⟩

end

/-- Settles O29: the two refusals, and the outcome by the present follow and chosen slot. -/
theorem seatSet : Obligations.SeatSet := by
  intro tag n f s h
  obtain ⟨t, next⟩ : ∃ t, exec (.setSeat tag n f) s = .next t := ⟨_, command_next h _⟩
  obtain ⟨settings, cells⟩ := settings_cells_of_wide (exec_wide rfl next)
  refine ⟨t, next, settings, cells, fun bad => ?_, ?_⟩
  · have refused : 63 < n ∨ seatFieldsInRange f = false := by
      refine or_iff_not_imp_right.2 fun inRange => ?_
      obtain ⟨chosen, volume, cap, follow⟩ := (seatFieldsInRange_iff f).1 (by simpa using inRange)
      rcases bad with high | ⟨c, hc, high⟩ | ⟨v, hv, high⟩ | ⟨c, hc, high⟩ | ⟨l, hl, high⟩
      · exact high
      · exact absurd (chosen c hc) (Nat.not_le.2 high)
      · exact absurd (volume v hv) (Nat.not_le.2 high)
      · exact absurd (cap c hc) (Nat.not_le.2 high)
      · exact absurd (follow l hl) (Nat.not_le.2 high)
    obtain rfl := (next_unique next (setSeat_range h refused))
    exact command_answered (u := s) rfl rfl
  · rintro i rfl inRange
    intro old cap levels kept
    have levels_eq : (s.seats.seats.get i).setLevels f = levels := setLevels_eq old f
    refine ⟨fun l hf => ⟨fun deep => ?_, fun other free alone => ?_⟩, fun hf => ?_⟩
    · obtain rfl := (next_unique next (setSeat_tooDeep h inRange ((tooDeep_iff hf).2 deep)))
      exact command_answered (u := s) rfl rfl
    · have shallow : s.seats.tooDeep i f = false := by
        rw [← Bool.not_eq_true, tooDeep_iff hf]
        simp [other, free, alone]
      obtain ⟨stored, boxes, replied⟩ := setSeat_done h inRange shallow next
      simp only [get_setSeat_join s.seats hf] at stored
      refine ⟨?_, fun j hj => ?_, boxes, replied⟩
      · rw [stored, if_pos rfl, levels_eq]
      · exact (stored j).trans (by rw [if_neg hj])
    · obtain ⟨stored, boxes, replied⟩ := setSeat_done h inRange (tooDeep_free hf) next
      refine ⟨boxes, replied, fun c hc => ?_, fun hc => ?_⟩
      · simp only [get_setSeat_leave s.seats hf hc] at stored
        refine ⟨?_, fun j hj => ?_⟩
        · rw [stored, if_pos rfl, levels_eq]
        · have other := stored j
          rw [if_neg hj] at other
          split
          · next follows => rwa [if_pos follows] at other
          · next follows => rwa [if_neg follows] at other
      · rcases hf with hf | hf
        · simp only [get_setSeat_level s.seats hf hc] at stored
          refine ⟨fun j hj => (stored j).trans (by rw [if_neg hj]), fun other => ?_, fun _ => ?_⟩
          · rw [hf] at other; cases other
          · rw [stored, if_pos rfl, levels_eq]
        · simp only [get_setSeat_unlink s.seats hf hc] at stored
          refine ⟨fun j hj => (stored j).trans (by rw [if_neg hj]), fun _ => ?_, fun other => ?_⟩
          · rw [stored, if_pos rfl, levels_eq]
          · rw [hf] at other; cases other

end Sys2Proof.Machine
end

section
/-! OBLIGATION. SEAT_APPLY (R53, R54). -/

namespace Sys2Proof.Machine

/-! ### The fields of the outcome, seat by seat (R54) -/

section
variable {a : SeatApply} {seat : Seat} {i : Fin 64} {g : Settings}

theorem Seat.fields_of_stored {a b : Seat} (h : a.stored = b.stored) :
    a.plugged = b.plugged ∧ a.chosen = b.chosen ∧ a.volume = b.volume ∧ a.cap = b.cap ∧ a.muted = b.muted ∧
      a.follow = b.follow := by
  simpa only [Seat.stored, Prod.mk.injEq] using h

/-- The copying of leaders' slots leaves all but the chosen slots. -/
theorem copyLeaders_chosen (seats : Table Seat 64) (i : Fin 64) :
    ∃ c, (copyLeaders seats).get i = { seats.get i with chosen := c } := ⟨_, get_copyLeaders seats i⟩

/-- It leaves a seat that follows none as it is. -/
theorem copyLeaders_free {seats : Table Seat 64} {i : Fin 64} (h : (seats.get i).follow = none) :
    (copyLeaders seats).get i = seats.get i := by
  rw [get_copyLeaders, h]
  rfl

theorem apply_follow_leader {l : Fin 64} (hf : a.follow = .leader) (hl : a.first = l.val) :
    (seat.apply i a g).follow = if i = l then seat.follow else some l := by
  simp only [Seat.apply, hf, hl, asFin_val, Fin.ext_iff]

theorem apply_follow_keep (hf : a.follow = .keep) (hv : seatActionValid a.chosen 11 = true) :
    (seat.apply i a g).follow = if a.chosen = .keep then seat.follow else none := by
  simp only [Seat.apply, hf]
  cases hc : a.chosen with
  | unknown => rw [hc] at hv; cases hv
  | keep => rfl
  | set v => rfl
  | default => rfl

theorem apply_chosen (hv : seatActionValid a.chosen 11 = true) :
    (seat.apply i a g).chosen.val = seatActionValue a.chosen seat.chosen.val g.defaultSlot.val := by
  have inRange : seatActionValue a.chosen seat.chosen.val g.defaultSlot.val < 12 :=
    Nat.lt_succ_of_le (seatActionValue_le hv (Nat.le_of_lt_succ seat.chosen.isLt) (Nat.le_of_lt_succ g.defaultSlot.isLt))
  simp only [Seat.apply, asFin, dif_pos inRange, Option.getD_some]

/-- No seat's plug changes. -/
theorem outcome_plugged (t : SeatTable) (a : SeatApply) (g : Settings) (i : Fin 64) :
    ((copyLeaders (t.outcome a g)).get i).plugged = (t.seats.get i).plugged := by
  obtain ⟨c, same⟩ := copyLeaders_chosen (t.outcome a g) i
  rw [same, get_outcome]
  split <;> rfl

/-- A seat that is not selected and follows none stays as it is. -/
theorem outcome_unselected {t : SeatTable} (unselected : t.selects a i = false) (free : (t.seats.get i).follow = none) :
    (copyLeaders (t.outcome a g)).get i = t.seats.get i := by
  have same : (t.outcome a g).get i = t.seats.get i := by
    rw [get_outcome, if_neg (by rw [unselected]; nofun)]
  rw [copyLeaders_free (by rw [same]; exact free), same]

end

/-! ### What the request comes to -/

section
variable {s t : State} {tag : Byte} {f : SeatApply}

theorem seatApply_range (h : s.takes 0x19 tag) (bad : seatApplyValid f = false) :
    exec (.seatApply tag f) s = .next ((s.taken 0x19 tag).reply 0x19 tag .range).endEvent :=
  command_comes_to h (if_pos bad)

theorem seatApply_tooDeep (h : s.takes 0x19 tag) (valid : seatApplyValid f = true)
    (deep : linksTooDeep (s.seats.outcome f s.settings) = true) :
    exec (.seatApply tag f) s = .next ((s.taken 0x19 tag).reply 0x19 tag .linkDepth).endEvent :=
  command_comes_to h ((if_neg (by rw [valid]; nofun)).trans (if_pos deep))

theorem seatApply_passes (h : s.takes 0x19 tag) (valid : seatApplyValid f = true)
    (shallow : linksTooDeep (s.seats.outcome f s.settings) = false) :
    exec (.seatApply tag f) s =
      .next (((s.taken 0x19 tag).seatsTaken { s.seats with seats := copyLeaders (s.seats.outcome f s.settings) }).reply 0x19
        tag .ok (.seatCount (changedSeats s.seats.seats (copyLeaders (s.seats.outcome f s.settings))))).endEvent := by
  have notDeep : ¬ linksTooDeep ((s.taken 0x19 tag).seats.outcome f (s.taken 0x19 tag).settings) = true := by
    show ¬ linksTooDeep (s.seats.outcome f s.settings) = true
    rw [shallow]
    nofun
  exact command_comes_to h ((if_neg (by rw [valid]; nofun)).trans (if_neg notDeep))

/-- A SEAT_APPLY that passed its checks: the answer, the boxes and every seat's stored fields. -/
theorem seatApply_done (h : s.takes 0x19 tag) (valid : seatApplyValid f = true)
    (shallow : linksTooDeep (s.seats.outcome f s.settings) = false) (next : exec (.seatApply tag f) s = .next t) :
    s.answered t 0x19 tag .ok (.seatCount (changedSeats s.seats.seats (copyLeaders (s.seats.outcome f s.settings)))) ∧
      t.seats.boxes = s.seats.boxes ∧
      ∀ i, (t.seats.seats.get i).stored = ((copyLeaders (s.seats.outcome f s.settings)).get i).stored := by
  obtain rfl := next_unique next (seatApply_passes h valid shallow)
  have frame := endEvent_frame
    (((s.taken 0x19 tag).seatsTaken { s.seats with seats := copyLeaders (s.seats.outcome f s.settings) }).reply 0x19 tag .ok
      (.seatCount (changedSeats s.seats.seats (copyLeaders (s.seats.outcome f s.settings)))))
  exact ⟨seatsTaken_answered s 0x19 tag _ .ok _, frame.boxes.trans (seatsTaken_boxes _ _),
    fun i => (frame.seat i).trans (seatsTaken_stored _ _ i)⟩

end

/-- Settles O30: the two refusals, and the outcome field by field as `Seat.apply` and the copying of leaders' slots give it. -/
theorem seatsApplied : Obligations.SeatsApplied := by
  intro tag f s h outcome
  obtain ⟨t, next⟩ : ∃ t, exec (.seatApply tag f) s = .next t := ⟨_, command_next h _⟩
  obtain ⟨settings, cells⟩ := settings_cells_of_wide (exec_wide rfl next)
  refine ⟨t, next, settings, cells, fun bad => ?_, fun valid deep => ?_, fun valid shallow => ?_⟩
  · obtain rfl := next_unique next (seatApply_range h bad)
    exact command_answered (u := s) rfl rfl
  · obtain rfl := next_unique next (seatApply_tooDeep h valid deep)
    exact command_answered (u := s) rfl rfl
  · obtain ⟨answered, boxes, stored⟩ := seatApply_done h valid shallow next
    have links := (linksTooDeep_false_iff _).1 shallow
    obtain ⟨inRange, -⟩ := applyInRange valid
    have follows (j : Fin 64) : (t.seats.seats.get j).follow = (outcome.get j).follow := by
      obtain ⟨-, -, -, -, -, follow⟩ := Seat.fields_of_stored (stored j)
      obtain ⟨c, same⟩ := copyLeaders_chosen outcome j
      exact follow.trans (by rw [same])
    refine ⟨answered, boxes, fun i => ?_⟩
    obtain ⟨plugged, chosen, volume, cap, muted, -⟩ := Seat.fields_of_stored (stored i)
    refine ⟨stored i, plugged.trans (outcome_plugged _ _ _ _),
      fun unselected free => (stored i).trans (by rw [outcome_unselected unselected free]), fun selected => ?_, fun l hl => ?_⟩
    · have applied : outcome.get i = (s.seats.seats.get i).apply i f s.settings := by
        rw [get_outcome, if_pos selected]
      obtain ⟨c, same⟩ := copyLeaders_chosen outcome i
      rw [same, applied] at volume cap muted
      have follow := follows i
      rw [applied] at follow
      refine ⟨cap, ?_, muted, fun hf => ?_, fun l hf hl => ?_, fun hf => ?_, fun free => ?_⟩
      · rw [cap]; exact volume
      · rw [follow, Seat.apply, hf]
      · rw [follow, apply_follow_leader hf hl]
      · rw [follow, apply_follow_keep hf inRange]
      · rw [follows] at free
        rw [chosen, copyLeaders_free free, applied, apply_chosen inRange]
    · rw [follows] at hl
      obtain ⟨other, free⟩ := links i l hl
      obtain ⟨-, leader, -⟩ := Seat.fields_of_stored (stored l)
      refine ⟨?_, other, (follows l).trans free⟩
      rw [chosen, leader, copyLeaders_free free, get_copyLeaders, hl]
      rfl

end Sys2Proof.Machine
end

section
/-! SUPPORT. What commentary does without being suspended or resumed keeps its streams sound (R61, R62, R65, R71). -/

namespace Sys2Proof.Machine

/-- A stream that holds no segment while it is OFF (R62), and a next one behind a current one alone (R65, R71). -/
structure Stream.Sound (r : Stream) : Prop where
  off : r.state = .off → r.current = none
  behind : r.current = none → r.next = none

/-- Every stream is sound, and none holds a segment under a suspension (R72). -/
structure StreamsSound (s : State) : Prop where
  streams : ∀ i, (s.stream i).Sound
  silent : s.comm.state = .suspended → ∀ i, (s.stream i).current = none

/-- Soundness reads the streams and the engine state alone. -/
theorem StreamsSound.congr {s t : State} (h : StreamsSound s) (streams : t.comm.streams = s.comm.streams)
    (state : t.comm.state = .suspended ↔ s.comm.state = .suspended) : StreamsSound t where
  streams i := by rw [State.stream, streams]; exact h.streams i
  silent ht i := by rw [State.stream, streams]; exact h.silent (state.1 ht) i

/-- From `s` commentary has come to `t` with its streams sound, and is suspended in `t` exactly if it was in `s`. -/
structure Spoken (s t : State) : Prop where
  sound : StreamsSound t
  state : t.comm.state = .suspended ↔ s.comm.state = .suspended

namespace Spoken
variable {s t u : State}

theorem refl (h : StreamsSound s) : Spoken s s := ⟨h, Iff.rfl⟩

theorem leaf (h : Spoken s t) (streams : u.comm.streams = t.comm.streams)
    (state : u.comm.state = .suspended ↔ t.comm.state = .suspended) : Spoken s u :=
  ⟨h.sound.congr streams state, state.trans h.state⟩

theorem same (h : Spoken s t) (hc : u.comm = t.comm) : Spoken s u := h.leaf (by rw [hc]) (by rw [hc])

theorem fold {α : Type} {f : State → α → State} (hf : ∀ {t : State}, Spoken s t → ∀ a, Spoken s (f t a)) (l : List α)
    (h : Spoken s t) : Spoken s (l.foldl f t) := by
  induction l generalizing t with
  | nil => exact h
  | cons a l ih => exact ih (hf h a)

theorem foldPair {α β : Type} {f : State × β → α → State × β} (hf : ∀ {p}, Spoken s p.1 → ∀ a, Spoken s (f p a).1) (l : List α)
    {p : State × β} (h : Spoken s p.1) : Spoken s (l.foldl f p).1 := by
  induction l generalizing p with
  | nil => exact h
  | cons a l ih => exact ih (hf h a)

/-! ### One stream changed -/

/-- A change of one stream that leaves it sound, and silent under a suspension. -/
theorem step {i : Fin 12} {f : Stream → Stream} (h : Spoken s t) (k : StreamStep t u i f) (sound : (f (t.stream i)).Sound)
    (silent : t.comm.state = .suspended → (f (t.stream i)).current = none) : Spoken s u := by
  refine ⟨⟨fun j => ?_, fun hu j => ?_⟩, by rw [k.engine]; exact h.state⟩
  · rw [k.stream]
    split
    · next hj => subst hj; exact sound
    · exact h.sound.streams j
  · rw [k.engine] at hu
    rw [k.stream]
    split
    · next hj => subst hj; exact silent hu
    · exact h.sound.silent hu j

/-- A change of one stream that leaves its segments alone and does not turn it OFF. -/
theorem retouch {i : Fin 12} {f : Stream → Stream} (h : Spoken s t) (k : StreamStep t u i f)
    (current : (f (t.stream i)).current = (t.stream i).current) (next : (f (t.stream i)).next = (t.stream i).next)
    (off : (f (t.stream i)).state = .off → (t.stream i).state = .off) : Spoken s u := by
  obtain ⟨sound, silent⟩ := h.sound
  refine h.step k ⟨fun ho => ?_, fun hc => ?_⟩ fun ht => ?_
  · rw [current]; exact (sound i).off (off ho)
  · rw [next]; rw [current] at hc; exact (sound i).behind hc
  · rw [current]; exact silent ht i

/-- A change of one stream that takes its segments. -/
theorem clear {i : Fin 12} {f : Stream → Stream} (h : Spoken s t) (k : StreamStep t u i f)
    (current : (f (t.stream i)).current = none) (next : (f (t.stream i)).next = none) : Spoken s u :=
  h.step k ⟨fun _ => current, fun _ => next⟩ fun _ => current

/-- A stream that holds a segment is not suspended. -/
theorem unsuspended (h : Spoken s t) {i : Fin 12} {g : Segment} (hc : (t.stream i).current = some g) :
    t.comm.state ≠ .suspended := fun ht => by
  rw [h.sound.silent ht i] at hc
  cases hc

/-! ### Firings, requests and the engine state (R61, R66) -/

theorem withdraw (h : Spoken s t) (r : Requester) : Spoken s (t.withdraw r) := h.same rfl

theorem askVoice (h : Spoken s t) (r : Requester) : Spoken s (t.askVoice r) := h.same (askVoice_comm t r)

theorem settleEngine (h : Spoken s t) : Spoken s t.settleEngine := by
  obtain ⟨state, hs, hi⟩ := settleEngine_comm t
  rw [hs]
  exact h.leaf rfl hi

theorem loseSegment (h : Spoken s t) (firing : Nat) : Spoken s (t.loseSegment firing) := by
  obtain ⟨list, hc⟩ := loseSegment_comm t firing
  exact h.leaf (by rw [hc]) (by rw [hc])

theorem dropSegment (h : Spoken s t) (told : List Nat) (cause : DropCause) (g : Segment) :
    Spoken s (t.dropSegment told cause g).1 :=
  h.retouch (dropSegment_step t 0 told cause g) rfl rfl id

theorem reports (h : Spoken s t) (cause : DropCause) (segments : List Segment) :
    Spoken s (segments.foldl (fun s g => s.commReport (.dropped cause) g.cue) t) :=
  fold (f := fun s g => s.commReport (.dropped cause) g.cue) (fun hu _ => hu.same rfl) segments h

theorem dropSegments (h : Spoken s t) (cause : DropCause) (segments : List Segment) : Spoken s (t.dropSegments cause segments) :=
  fold (fun hu g => hu.loseSegment g.firing) _ (h.reports cause _)

/-! ### A stream's life (R67 to R71) -/

theorem endDelay (h : Spoken s t) (i : Fin 12) : Spoken s (t.endDelay i) := by
  cases hc : (t.stream i).current with
  | none =>
    unfold State.endDelay
    rw [hc]
    exact h
  | some g =>
    refine h.retouch (endDelay_step t i hc) rfl rfl fun ho => ?_
    dsimp only at ho
    split at ho <;> cases ho

/-- A segment is given to a stream while commentary is not suspended. -/
theorem given_sound {r : Stream} (h : r.Sound) (now : Clock) (g : Segment) : (r.given now g).Sound := by
  cases hc : r.current with
  | none =>
    rw [given_none hc]
    refine ⟨fun ho => ?_, nofun⟩
    dsimp only at ho
    split at ho
    · split at ho <;> cases ho
    · cases ho
  | some x =>
    rw [given_behind (by rw [hc]; nofun)]
    exact ⟨h.off, fun hn => by rw [hc] at hn; cases hn⟩

theorem makeCurrent (h : Spoken s t) (ht : t.comm.state ≠ .suspended) {i : Fin 12} (hc : (t.stream i).current = none)
    (g : Segment) : Spoken s (t.makeCurrent i g) :=
  h.step (makeCurrent_step t i g hc) (given_sound (h.sound.streams i) _ g) fun hs => absurd hs ht

theorem finishSegment (h : Spoken s t) (i : Fin 12) : Spoken s (t.finishSegment i) := by
  unfold State.finishSegment
  split
  · exact h
  · next g hc =>
    have left := setStream_step (t.withdraw (.stream i)) i fun r =>
      { r with state := .quiet, current := none, next := none, voice := none }
    have ended := left.trans (loseSegment_step _ i g.firing) (h := fun r =>
      { r with state := .quiet, current := none, next := none, voice := none }) rfl
    have emptied := (h.withdraw (.stream i)).clear ended rfl rfl
    dsimp only
    split
    · exact emptied.settleEngine
    · refine (emptied.makeCurrent ?_ ?_ _).settleEngine
      · rw [ended.engine]
        exact h.unsuspended hc
      · rw [ended.stream, if_pos rfl]

theorem gainDemand (h : Spoken s t) (i : Fin 12) : Spoken s (t.gainDemand i) := by
  unfold State.gainDemand
  split
  · split
    · exact (h.retouch (setStream_step t i _) rfl rfl fun ho => by cases ho).askVoice _
    · exact h.finishSegment i
  · exact h

theorem letGo (h : Spoken s t) (i : Fin 12) : Spoken s (t.letGo i) :=
  (h.retouch (setStream_step t i fun r => { r with voice := none }) rfl rfl id).same (letGo_comm t i)

theorem loseDemand (h : Spoken s t) (i : Fin 12) : Spoken s (t.loseDemand i) := by
  unfold State.loseDemand
  split
  · exact (h.letGo i).retouch (setStream_step _ i _) rfl rfl fun ho => by cases ho
  · exact (h.letGo i).retouch (setStream_step _ i _) rfl rfl fun ho => by cases ho
  · exact h

theorem deriveDemandOf (h : Spoken s t) (i : Fin 12) : Spoken s (t.deriveDemandOf i) := by
  have derived := h.retouch (setStream_step t i fun r => { r with demand := t.demandNow i }) rfl rfl id
  unfold State.deriveDemandOf
  dsimp only
  split
  · exact h
  · split
    · exact derived.gainDemand i
    · exact derived.loseDemand i

theorem deriveDemand (h : Spoken s t) : Spoken s t.deriveDemand := fold (fun hu i => hu.deriveDemandOf i) allSlots h

theorem grantStream (h : Spoken s t) (i : Fin 12) (v : Fin 16) : Spoken s (t.grantStream i v) := by
  unfold State.grantStream
  split
  · exact h
  · next g _ =>
    split
    · have started : Spoken s (t.startVoice v (.stream i) .notice g.clip (g.pageAt t.clock)).1 :=
        h.same (startVoice_blocks t v (.stream i) .notice g.clip (g.pageAt t.clock)).2
      revert started
      generalize t.startVoice v (.stream i) .notice g.clip (g.pageAt t.clock) = p
      intro started
      obtain ⟨a, o⟩ := p
      cases o
      · exact started.retouch (setStream_step a i _) rfl rfl fun ho => by cases ho
      · exact started.finishSegment i
      · exact started.finishSegment i
    · exact h.finishSegment i

/-! ### Placement (R64, R65) -/

theorem placeSegment {p : State × List Nat} (h : Spoken s p.1) (hs : s.comm.state ≠ .suspended) (q : Fin 12 × Segment) :
    Spoken s (State.placeSegment p q).1 :=
  h.step (placeSegment_step p q) (given_sound (h.sound.streams q.1) _ q.2) fun ht => absurd (h.state.1 ht) hs

theorem place (h : Spoken s t) (ht : t.comm.state ≠ .suspended) (cue mark : Nat) (fit : Option Nat) (set : ClipSet) :
    Spoken s (t.place cue mark fit set) := by
  have hs : s.comm.state ≠ .suspended := fun hs => ht (h.state.2 hs)
  unfold State.place
  dsimp only
  split
  · exact h
  · exact settleEngine (foldPair (fun hp q => hp.placeSegment hs q) _ (h.leaf rfl Iff.rfl))

theorem fireCommentary (h : Spoken s t) (cue mark : Nat) (set : ClipSet) : Spoken s (t.fireCommentary cue mark set) := by
  unfold State.fireCommentary
  split
  · dsimp only
    split
    · exact h.leaf rfl Iff.rfl
    · exact h.leaf rfl Iff.rfl
  · next ht => exact h.place ht _ _ _ _

/-! ### Enabled slots and stop (R62, R76) -/

theorem clearStream (h : Spoken s t) (i : Fin 12) (state : StreamState) : Spoken s (t.clearStream i state) :=
  (h.letGo i).clear (setStream_step _ i _) rfl rfl

theorem enableStream (h : Spoken s t) (i : Fin 12) : Spoken s (t.enableStream i) := by
  unfold State.enableStream
  split
  · split
    · exact h.retouch (setStream_step t i _) rfl rfl fun ho => by cases ho
    · exact h
  · exact h.clearStream i _

theorem applyEnabled (h : Spoken s t) : Spoken s t.applyEnabled :=
  ((fold (fun hu i => hu.enableStream i) allSlots h).dropSegments _ _).settleEngine

theorem stopStream (h : Spoken s t) (i : Fin 12) : Spoken s (t.stopStream i) := by
  unfold State.stopStream
  split
  · exact h
  · exact h.clearStream i _

theorem tellStopped (h : Spoken s t) (lost : List Segment) (pending : Option PendingFiring) :
    Spoken s (t.tellStopped lost pending) := by
  have told := h.reports .stopped (firstOfEach lost)
  refine settleEngine (fold (f := fun (s : State) (g : Segment) => s.loseSegment g.firing) (fun hu g => hu.loseSegment _) _ ?_)
  split
  · exact told.same rfl
  · exact told

theorem stopCommentary (h : Spoken s t) : Spoken s t.stopCommentary := by
  obtain ⟨lost, hl⟩ := stopCommentary_eq t
  have stopped := fold (fun hu i => hu.stopStream i) allSlots h
  rw [hl]
  refine tellStopped ?_ _ _
  unfold State.stoppedStreams
  revert stopped
  generalize allSlots.foldl State.stopStream t = u
  exact fun stopped => stopped.leaf rfl Iff.rfl

/-! ### Demand, need and enabled slots on their way (R45, R47, R145) -/

theorem deriveNeed (h : Spoken s t) : Spoken s t.deriveNeed := by
  unfold State.deriveNeed
  split
  · exact h
  · exact deriveDemand (h.same rfl)

theorem setQuiet (h : Spoken s t) (quiet : Bool) : Spoken s (t.setQuiet quiet) := deriveNeed (h.same rfl)

theorem tellListeners (h : Spoken s t) : Spoken s t.tellListeners := by
  obtain ⟨_, _, _, _, ht⟩ := tellListeners_eq t
  rw [ht]
  exact h.same rfl

theorem seatsTaken (h : Spoken s t) (table : SeatTable) : Spoken s (t.seatsTaken table) := by
  have taken : ∀ seats : SeatTable, Spoken s { t with seats := seats } := fun _ => h.same rfl
  unfold State.seatsTaken
  dsimp only
  split
  · exact (taken _).deriveDemand.tellListeners
  · exact taken _

theorem refreshEnabled (h : Spoken s t) : Spoken s t.refreshEnabled := by
  unfold State.refreshEnabled
  dsimp only
  split
  · exact h
  · have formed : ∀ seats : SeatTable, Spoken s { t with seats := seats } := fun _ => h.same rfl
    split
    · exact (formed _).applyEnabled.deriveDemand.tellListeners
    · exact (formed _).applyEnabled.deriveDemand

end Spoken

@[simp] theorem fireCommentary_ann (s : State) (cue mark : Nat) (set : ClipSet) :
    (s.fireCommentary cue mark set).ann = s.ann := by
  unfold State.fireCommentary
  split
  · dsimp only
    split <;> rfl
  · simp

@[simp] theorem seatsTaken_ann (s : State) (t : SeatTable) : (s.seatsTaken t).ann = s.ann := by
  unfold State.seatsTaken
  dsimp only
  split
  · rw [tellListeners_ann, deriveDemand_ann]
  · rfl

end Sys2Proof.Machine
end

section
/-! SUPPORT. A suspension and a resumption, stream by stream (R72, R75). -/

namespace Sys2Proof.Machine

section
variable (s : State) (i : Fin 12)

/-- A segment lost changes the cue list and the link alone. -/
theorem loseSegment_eq (firing : Nat) :
    ∃ list link, s.loseSegment firing = { s with comm := { s.comm with cueList := list }, link := link } := by
  unfold State.loseSegment
  split
  · exact ⟨s.comm.cueList, s.link, rfl⟩
  · split
    · dsimp only
      split
      · exact ⟨_, _, rfl⟩
      · exact ⟨_, s.link, rfl⟩
    · exact ⟨_, s.link, rfl⟩

/-! ### A stream cleared -/

/-- A stream without segments and without a voice. -/
def Stream.emptied (r : Stream) (state : StreamState) : Stream :=
  { r with state := state, current := none, next := none, voice := none }

theorem clearStream_stream (state : StreamState) (j : Fin 12) :
    (s.clearStream i state).stream j = if i = j then (s.stream j).emptied state else s.stream j := by
  have released : (s.letGo i).stream j = (s.setStream i fun r => { r with voice := none }).stream j := by
    rw [State.stream, letGo_comm]
    rfl
  unfold State.clearStream
  rw [stream_setStream, released, stream_setStream]
  split <;> rfl

theorem clearStream_comm (state : StreamState) :
    (s.clearStream i state).comm = { s.comm with streams := (s.clearStream i state).comm.streams } := by
  have rest : (s.letGo i).comm = { s.comm with streams := (s.letGo i).comm.streams } := by
    rw [letGo_comm]
    rfl
  exact congrArg (fun c : Commentary => { c with streams := (s.clearStream i state).comm.streams }) rest

theorem clearStream_requests (state : StreamState) :
    (s.clearStream i state).voices.requests = s.voices.requests.filter (· ≠ .stream i) := letGo_requests s i

theorem clearStream_voice (state : StreamState) (w : Fin 16) :
    (s.clearStream i state).voice w = if (s.stream i).voice = some w then (s.voice w).released else s.voice w :=
  letGo_voice s i w

/-! ### One stream suspended (R72) -/

/-- What the suspend record takes of a stream: its passage at the page of the elapsed time, or what follows it. -/
def State.suspendEntry : Option SuspendEntry :=
  (s.stream i).current.bind fun g =>
    let page := if (s.stream i).state = .delay then 0 else (s.clock - g.start).toNat / 60
    if page < g.pages then some { slot := i, segment := g, page := page, next := (s.stream i).next }
    else (s.stream i).next.map fun h => { slot := i, segment := h, page := 0, next := none }

theorem suspendStream_none (entries : List SuspendEntry) (h : (s.stream i).current = none) :
    State.suspendStream (s, entries) i = (s, entries) := by
  unfold State.suspendStream
  simp only [h]

/-- A stream with a segment is cleared, and its passage recorded. -/
theorem suspendStream_some (entries : List SuspendEntry) {g : Segment} (h : (s.stream i).current = some g) :
    ∃ list link, State.suspendStream (s, entries) i =
      ({ s.clearStream i .quiet with comm := { (s.clearStream i .quiet).comm with cueList := list }, link := link },
        entries ++ (s.suspendEntry i).toList) := by
  unfold State.suspendStream State.suspendEntry
  simp only [h, Option.bind_some]
  rw [show g.pageAt s.clock = (s.clock - g.start).toNat / 60 from rfl]
  generalize (if (s.stream i).state = .delay then 0 else (s.clock - g.start).toNat / 60) = page
  split
  · exact ⟨_, _, rfl⟩
  · obtain ⟨list, link, lost⟩ := loseSegment_eq (s.clearStream i .quiet) g.firing
    refine ⟨list, link, Prod.ext lost ?_⟩
    cases (s.stream i).next with
    | none => exact (List.append_nil _).symm
    | some h => rfl

end

/-- What a suspension makes of a stream. -/
def Stream.suspended (r : Stream) : Stream :=
  match r.current with
  | none => r
  | some _ => r.emptied .quiet

theorem suspended_none {r : Stream} (h : r.current = none) : r.suspended = r := by
  unfold Stream.suspended
  rw [h]

theorem suspended_some {r : Stream} (h : r.current ≠ none) : r.suspended = r.emptied .quiet := by
  unfold Stream.suspended
  split
  · next hc => exact absurd hc h
  · rfl

theorem suspended_current (r : Stream) : r.suspended.current = none := by
  unfold Stream.suspended
  split
  · assumption
  · rfl

/-- What one stream's suspension does: to the streams, the rest of commentary, the requests, the voices and the record. -/
structure Shelved (p q : State × List SuspendEntry) (i : Fin 12) : Prop where
  stream : ∀ j, q.1.stream j = if i = j then (p.1.stream j).suspended else p.1.stream j
  engine : q.1.comm.state = p.1.comm.state
  pending : q.1.comm.pendingFiring = p.1.comm.pendingFiring
  requests : ∀ r ∈ q.1.voices.requests, r ∈ p.1.voices.requests ∧ ((p.1.stream i).current ≠ none → r ≠ .stream i)
  voice : ∀ w, q.1.voice w =
    if (p.1.stream i).current ≠ none ∧ (p.1.stream i).voice = some w then (p.1.voice w).released else p.1.voice w
  entries : q.2 = p.2 ++ (p.1.suspendEntry i).toList
  clock : q.1.clock = p.1.clock
  tracker : q.1.tracker = p.1.tracker

theorem suspendStream_shelved (p : State × List SuspendEntry) (i : Fin 12) : Shelved p (State.suspendStream p i) i := by
  obtain ⟨s, entries⟩ := p
  have rest := (Commented.suspendStream (s, entries) i).rest
  have clock := congrArg State.clock rest
  have tracker := congrArg State.tracker rest
  cases hc : (s.stream i).current with
  | none =>
    rw [suspendStream_none s i entries hc]
    exact {
      stream := fun j => by
        split
        · next hj => subst hj; exact (suspended_none hc).symm
        · rfl
      engine := rfl
      pending := rfl
      requests := fun r hr => ⟨hr, fun hn => absurd hc hn⟩
      voice := fun w => (if_neg fun hn => hn.1 hc).symm
      entries := by simp [State.suspendEntry, hc]
      clock := rfl
      tracker := rfl }
  | some g =>
    have held : (s.stream i).current ≠ none := by rw [hc]; nofun
    obtain ⟨list, link, hs⟩ := suspendStream_some s i entries hc
    rw [hs] at clock tracker ⊢
    have cleared := clearStream_comm s i .quiet
    exact {
      stream := fun j => by
        refine (clearStream_stream s i .quiet j).trans ?_
        split
        · next hj => subst hj; exact (suspended_some held).symm
        · rfl
      engine := by dsimp only; rw [cleared]
      pending := by dsimp only; rw [cleared]
      requests := fun r hr => by
        have kept := List.mem_filter.1 ((clearStream_requests s i .quiet) ▸ hr)
        exact ⟨kept.1, fun _ => of_decide_eq_true kept.2⟩
      voice := fun w => by
        refine (clearStream_voice s i .quiet w).trans ?_
        simp only [held, ne_eq, not_false_eq_true, true_and]
      entries := rfl
      clock := clock
      tracker := tracker }

/-! ### Every stream suspended -/

/-- The streams of distinct slots suspended one after another. -/
structure AllShelved (p q : State × List SuspendEntry) (l : List (Fin 12)) : Prop where
  stream : ∀ j, q.1.stream j = if j ∈ l then (p.1.stream j).suspended else p.1.stream j
  engine : q.1.comm.state = p.1.comm.state
  pending : q.1.comm.pendingFiring = p.1.comm.pendingFiring
  requests : ∀ r ∈ q.1.voices.requests, r ∈ p.1.voices.requests ∧ ∀ i ∈ l, (p.1.stream i).current ≠ none → r ≠ .stream i
  released : ∀ w, q.1.voice w = p.1.voice w ∨ q.1.voice w = (p.1.voice w).released
  voice : ∀ i ∈ l, ∀ w, (p.1.stream i).current ≠ none → (p.1.stream i).voice = some w → q.1.voice w = (p.1.voice w).released
  entries : q.2 = p.2 ++ l.filterMap p.1.suspendEntry
  tracker : q.1.tracker = p.1.tracker

theorem suspendEntry_congr {s t : State} {i : Fin 12} (stream : t.stream i = s.stream i) (clock : t.clock = s.clock) :
    t.suspendEntry i = s.suspendEntry i := by
  unfold State.suspendEntry
  rw [stream, clock]

theorem suspendStreams_shelved {l : List (Fin 12)} (distinct : l.Nodup) (p : State × List SuspendEntry) :
    AllShelved p (l.foldl State.suspendStream p) l := by
  induction l generalizing p with
  | nil =>
    exact {
      stream := fun _ => rfl
      engine := rfl
      pending := rfl
      requests := fun _ hr => ⟨hr, nofun⟩
      released := fun _ => .inl rfl
      voice := nofun
      entries := (List.append_nil _).symm
      tracker := rfl }
  | cons i l ih =>
    obtain ⟨fresh, distinct⟩ := List.nodup_cons.1 distinct
    have first := suspendStream_shelved p i
    have later := ih distinct (State.suspendStream p i)
    have other : ∀ j ∈ l, (State.suspendStream p i).1.stream j = p.1.stream j := fun j hj => by
      rw [first.stream, if_neg fun hi : i = j => fresh (hi ▸ hj)]
    rw [List.foldl_cons]
    exact {
      stream := fun j => by
        rw [later.stream, first.stream]
        by_cases hj : i = j
        · subst hj
          simp [fresh]
        · simp [hj, Ne.symm hj]
      engine := later.engine.trans first.engine
      pending := later.pending.trans first.pending
      requests := fun r hr => by
        obtain ⟨waits, others⟩ := later.requests r hr
        obtain ⟨waited, own⟩ := first.requests r waits
        refine ⟨waited, fun j hj hc => ?_⟩
        rcases List.mem_cons.1 hj with rfl | hj
        · exact own hc
        · exact others j hj (by rwa [other j hj])
      released := fun w => by
        have hw := later.released w
        rw [first.voice] at hw
        split at hw
        · rw [Voice.released_released] at hw
          exact .inr (hw.elim id id)
        · exact hw
      voice := fun j hj w hc hv => by
        rcases List.mem_cons.1 hj with rfl | hj
        · have hw := later.released w
          rw [first.voice, if_pos ⟨hc, hv⟩, Voice.released_released] at hw
          exact hw.elim id id
        · rw [later.voice j hj w (by rwa [other j hj]) (by rwa [other j hj]), first.voice]
          split
          · exact Voice.released_released _
          · rfl
      entries := by
        have same : l.filterMap (State.suspendStream p i).1.suspendEntry = l.filterMap p.1.suspendEntry :=
          List.filterMap_congr fun j hj => suspendEntry_congr (other j hj) first.clock
        rw [later.entries, first.entries, same, List.append_assoc]
        cases hi : p.1.suspendEntry i <;> simp [hi]
      tracker := later.tracker.trans first.tracker }

/-- A suspension of commentary that is not suspended yet (R72). -/
theorem suspend_eq {s : State} (h : s.comm.state ≠ .suspended) :
    ∃ q, AllShelved (s, []) q allSlots ∧
      s.suspend = { q.1 with
        comm := { q.1.comm with state := .suspended, suspend := some { travel := q.1.tracker.travel, entries := q.2 } } } := by
  refine ⟨allSlots.foldl State.suspendStream (s, []), suspendStreams_shelved (List.nodup_finRange 12) (s, []), ?_⟩
  unfold State.suspend
  rw [if_neg h]

theorem suspend_again {s : State} (h : s.comm.state = .suspended) : s.suspend = s := if_pos h

theorem suspend_stream {s : State} (h : s.comm.state ≠ .suspended) (i : Fin 12) :
    s.suspend.stream i = (s.stream i).suspended := by
  obtain ⟨q, shelved, hs⟩ := suspend_eq h
  rw [hs]
  exact (shelved.stream i).trans (if_pos (List.mem_finRange i))

theorem Stream.Sound.suspended {r : Stream} (h : r.Sound) : r.suspended.Sound := by
  cases hc : r.current with
  | none => rwa [suspended_none hc]
  | some g =>
    rw [suspended_some (by rw [hc]; nofun)]
    exact ⟨fun _ => rfl, fun _ => rfl⟩

theorem StreamsSound.suspend {s : State} (h : StreamsSound s) : StreamsSound s.suspend := by
  by_cases hs : s.comm.state = .suspended
  · rwa [suspend_again hs]
  · refine ⟨fun i => ?_, fun _ i => ?_⟩
    · rw [suspend_stream hs]
      exact (h.streams i).suspended
    · rw [suspend_stream hs]
      exact suspended_current _

/-! ### One passage restarted (R75) -/

/-- A stream whose recorded passage is current again, so far back that its rewound page is due now. -/
def Stream.restarted (r : Stream) (now : Clock) (rewind : Nat) (e : SuspendEntry) : Stream :=
  { r with
    state := if r.demand = true then .waitVoice else .quiet
    current := some { e.segment with start := now - BitVec.ofNat 32 ((e.page - rewind) * 60) }
    next := e.next }

section
variable (p : State × List Nat) (e : SuspendEntry)

theorem restartEntry_disabled (h : p.1.seats.enabled.get e.slot = false) (i : Fin 12) :
    StreamStep p.1 (State.restartEntry p e).1 i id := by
  have dropped : ∀ (l : List Segment) (q : State × List Nat),
      StreamStep q.1 (l.foldl (fun (q : State × List Nat) g => q.1.dropSegment q.2 .disabled g) q).1 i id := by
    intro l
    induction l with
    | nil => exact fun q => cueList_step q.1 i ⟨_, rfl⟩ rfl
    | cons g l ih => exact fun q => (dropSegment_step q.1 i q.2 .disabled g).trans (ih _) rfl
  unfold State.restartEntry
  simp only [h, Bool.false_eq_true, if_false]
  exact dropped _ _

/-- The passage set in its stream, before its firing is told of it. -/
def State.recall (s : State) (e : SuspendEntry) : State :=
  s.setStream e.slot fun r =>
    { r with
      current := some { e.segment with start := s.clock - BitVec.ofNat 32 ((e.page - s.settings.resumeRewind) * 60) }
      next := e.next }

theorem restartEntry_enabled (h : p.1.seats.enabled.get e.slot = true) :
    (State.restartEntry p e).1 =
      if (((p.1.recall e).beginFiring e.segment.firing).stream e.slot).demand then
        (((p.1.recall e).beginFiring e.segment.firing).setStream e.slot fun r =>
          { r with state := .waitVoice }).askVoice (.stream e.slot)
      else ((p.1.recall e).beginFiring e.segment.firing).setStream e.slot fun r => { r with state := .quiet } := by
  unfold State.restartEntry
  simp only [h, if_true]
  exact apply_ite Prod.fst _ _ _

theorem recalled_step :
    StreamStep p.1 ((p.1.recall e).beginFiring e.segment.firing) e.slot fun r =>
      { r with
        current := some { e.segment with
          start := p.1.clock - BitVec.ofNat 32 ((e.page - p.1.settings.resumeRewind) * 60) }
        next := e.next } :=
  (setStream_step p.1 e.slot _).trans (beginFiring_step _ _ _) rfl

theorem restartEntry_step (h : p.1.seats.enabled.get e.slot = true) :
    StreamStep p.1 (State.restartEntry p e).1 e.slot (·.restarted p.1.clock p.1.settings.resumeRewind e) := by
  have recalled := recalled_step p e
  have demand : (((p.1.recall e).beginFiring e.segment.firing).stream e.slot).demand = (p.1.stream e.slot).demand := by
    rw [recalled.stream, if_pos rfl]
  rw [restartEntry_enabled p e h, demand]
  unfold Stream.restarted
  split
  · next hd =>
    refine (recalled.trans (setStream_step _ _ fun r => { r with state := .waitVoice })
      (h := fun r => { r with state := .waitVoice, current := _, next := e.next }) rfl).trans (askVoice_step _ _ _) ?_
    simp only [hd, if_true]
    rfl
  · next hd =>
    refine recalled.trans (setStream_step _ _ fun r => { r with state := .quiet }) ?_
    simp only [hd]
    rfl

theorem restartEntry_asks (h : p.1.seats.enabled.get e.slot = true) (hd : (p.1.stream e.slot).demand = true) :
    .stream e.slot ∈ (State.restartEntry p e).1.voices.requests := by
  have demand : (((p.1.recall e).beginFiring e.segment.firing).stream e.slot).demand = true := by
    rw [(recalled_step p e).stream, if_pos rfl]
    exact hd
  rw [restartEntry_enabled p e h, if_pos demand]
  exact (mem_askVoice _).2 (.inr rfl)

end

theorem Stream.restarted_sound (r : Stream) (now : Clock) (rewind : Nat) (e : SuspendEntry) :
    (r.restarted now rewind e).Sound := by
  refine ⟨fun ho => ?_, nofun⟩
  unfold Stream.restarted at ho
  dsimp only at ho
  split at ho <;> cases ho

/-! ### Commentary resumed (R73 to R75) -/

theorem Spoken.restartEntry {s : State} {p : State × List Nat} (h : Spoken s p.1) (hs : s.comm.state ≠ .suspended)
    (e : SuspendEntry) : Spoken s (State.restartEntry p e).1 := by
  cases enabled : p.1.seats.enabled.get e.slot with
  | true => exact h.step (restartEntry_step p e enabled) (Stream.restarted_sound _ _ _ e) fun ht => absurd (h.state.1 ht) hs
  | false => exact h.retouch (restartEntry_disabled p e enabled 0) rfl rfl id

theorem Spoken.placePending {s t : State} (h : Spoken s t) (ht : t.comm.state ≠ .suspended) : Spoken s t.placePending := by
  unfold State.placePending
  split
  · exact h.settleEngine
  · exact ((h.leaf (u := { t with comm := { t.comm with pendingFiring := none } }) rfl Iff.rfl).place ht _ _ _ _).settleEngine

/-- Commentary taken out of its suspension, with its record forgotten. -/
def State.awoken (s : State) : State := { s with comm := { s.comm with state := .idle, suspend := none } }

/-- The suspend record that a resume takes. -/
def State.record (s : State) : SuspendRecord := s.comm.suspend.getD { travel := s.tracker.travel, entries := [] }

theorem resume_eq {s : State} (h : s.comm.state = .suspended) :
    s.resume =
      if s.stale s.record then (s.awoken.dropSegments .stale (s.record.entries.flatMap SuspendEntry.segments)).placePending
      else if s.comm.pendingFiring.isSome then
        (s.awoken.dropSegments .replaced (s.record.entries.flatMap SuspendEntry.segments)).placePending
      else (s.record.entries.foldl State.restartEntry (s.awoken, [])).1.settleEngine := by
  unfold State.resume
  rw [if_neg (by simp [h])]
  rfl

theorem resume_awake {s : State} (h : s.comm.state ≠ .suspended) : s.resume = s := if_pos h

theorem StreamsSound.resume {s : State} (h : StreamsSound s) : StreamsSound s.resume ∧ s.resume.comm.state ≠ .suspended := by
  by_cases hs : s.comm.state = .suspended
  · have awoken : Spoken s.awoken s.awoken := .refl ⟨h.streams, nofun⟩
    have awake : s.awoken.comm.state ≠ .suspended := nofun
    have dropped := fun cause => awoken.dropSegments cause (s.record.entries.flatMap SuspendEntry.segments)
    have placed : ∀ cause, Spoken s.awoken
        (s.awoken.dropSegments cause (s.record.entries.flatMap SuspendEntry.segments)).placePending :=
      fun cause => (dropped cause).placePending fun ht => awake ((dropped cause).state.1 ht)
    have resumed : Spoken s.awoken s.resume := by
      rw [resume_eq hs]
      split
      · exact placed _
      · split
        · exact placed _
        · exact (Spoken.foldPair (fun hp e => hp.restartEntry awake e) _ awoken).settleEngine
    exact ⟨resumed.sound, fun ht => awake (resumed.state.1 ht)⟩
  · rw [resume_awake hs]
    exact ⟨h, hs⟩

end Sys2Proof.Machine
end

section
/-! SUPPORT. The active entry starts, sounds and ends: what of the announcement engine and of commentary that leaves alone
(R90 to R95). -/

namespace Sys2Proof.Machine

/-- From `s` to `t` the active entry has acted or has left: commentary and the waiting entries are as they were, and no entry of
another class has become active. -/
structure Plays (s t : State) : Prop where
  comm : t.comm = s.comm
  queue : t.ann.queue = s.ann.queue
  stack : t.ann.stack = s.ann.stack
  active : ∀ e, t.ann.active = some e → ∃ x, s.ann.active = some x ∧ x.cls = e.cls

namespace Plays
variable {s t u : State}

theorem same (h : Plays s t) (hc : u.comm = t.comm) (ha : u.ann = t.ann) : Plays s u :=
  ⟨hc.trans h.comm, by rw [ha]; exact h.queue, by rw [ha]; exact h.stack, by rw [ha]; exact h.active⟩

theorem refl (s : State) : Plays s s := ⟨rfl, rfl, rfl, fun e he => ⟨e, he, rfl⟩⟩

theorem setActive (h : Plays s t) {f : Entry → Entry} (hf : ∀ e, (f e).cls = e.cls) : Plays s (t.setActive f) where
  comm := h.comm
  queue := h.queue
  stack := h.stack
  active e he := by
    obtain ⟨x, hx, rfl⟩ := Option.map_eq_some_iff.1 he
    obtain ⟨y, hy, hc⟩ := h.active x hx
    exact ⟨y, hy, hc.trans (hf x).symm⟩

theorem annReport (h : Plays s t) (event : AnnEvent) (e : Entry) : Plays s (t.annReport event e) := h.same rfl rfl

theorem handMap (h : Plays s t) : Plays s t.handMap := by
  unfold State.handMap
  split
  · exact h
  · split
    · exact h
    · exact h.same rfl rfl

theorem releaseActive (h : Plays s t) : Plays s t.releaseActive := by
  have released : ∀ (voices : List (Fin 16)) (u : State), Plays s u → Plays s (voices.foldl State.release u) := by
    intro voices
    induction voices with
    | nil => exact fun _ => id
    | cons v voices ih => exact fun u hu => ih (u.release v) (hu.same rfl rfl)
  unfold State.releaseActive
  split
  · exact h
  · exact released _ _ (h.same rfl rfl)

/-- The active slot is empty when the active entry has left it. -/
theorem leaveActive (h : Plays s t) : Plays s t.leaveActive ∧ t.leaveActive.ann.active = none := by
  have left : Plays s (t.setAnn fun a => { a with active := none, hangTimer := none }) := 
    ⟨h.comm, h.queue, h.stack, fun _ he => by cases he⟩
  unfold State.leaveActive
  dsimp only
  split
  · exact ⟨left.same rfl rfl, rfl⟩
  · exact ⟨left, rfl⟩

theorem endActive (h : Plays s t) (o : AnnOutcome) : Plays s (t.endActive o) := by
  unfold State.endActive
  split
  · exact h
  · exact h.releaseActive.leaveActive.1.annReport _ _

theorem playActive (h : Plays s t) : Plays s t.playActive := by
  unfold State.playActive
  split
  · exact h
  · next e _ =>
    have formed : Plays s (t.fanOut e).1 := h.same (fanOut_blocks t e).2 (fanOut_blocks t e).1
    revert formed
    generalize t.fanOut e = p
    intro formed
    obtain ⟨a, f⟩ := p
    dsimp only
    have handed := (formed.setActive (f := fun e : Entry =>
      { e with phase := .playing, map := some f.map, voices := f.voices, chimeVoice := none
               speakerVoice := f.speaker.filter f.voices.contains }) fun _ => rfl).handMap
    split <;> split
    · exact handed.endActive _
    · exact (handed.annReport _ _).endActive _
    · exact handed
    · exact handed.annReport _ _

theorem startActive (h : Plays s t) : Plays s t.startActive := by
  unfold State.startActive
  split
  · exact h
  · next e _ =>
    have sounds : Plays s (t.soundNotice e) := by
      unfold State.soundNotice
      split
      · exact h.same rfl rfl
      · exact h
    dsimp only
    split
    · exact (sounds.setActive fun _ => by rfl).annReport _ _
    · split
      · next v _ =>
        have chimes : Plays s
            ((t.soundNotice e).startVoice v (.chime e.ticket) e.cls ((t.soundNotice e).settings.chime e.cls) 0).1 :=
          sounds.same (startVoice_blocks _ _ _ _ _ _).2 (startVoice_blocks _ _ _ _ _ _).1
        revert chimes
        generalize (t.soundNotice e).startVoice v (.chime e.ticket) e.cls ((t.soundNotice e).settings.chime e.cls) 0 = p
        intro chimes
        obtain ⟨a, o⟩ := p
        cases o
        · exact (chimes.setActive fun _ => by rfl).annReport _ _
        · exact (chimes.annReport _ _).playActive
        · exact (chimes.annReport _ _).playActive
      · exact (sounds.annReport _ _).playActive

end Plays
end Sys2Proof.Machine
end

section
/-! SUPPORT. The bounds of the announcement engine and the suspension of commentary, amid an event and after a selection (R61, R85
to R91). -/

namespace Sys2Proof.Machine

/-- What holds amid an event, while the active slot may stand empty before a selection. -/
structure Announced (s : State) : Prop where
  streams : StreamsSound s
  queue : s.ann.queue.length ≤ 8
  stack : s.ann.stack.length ≤ 4
  alone : ∀ e, s.ann.active = some e → (s.comm.state = .suspended ↔ e.cls ≠ .notice)

/-- The invariant is what holds amid an event, with nothing waiting and no suspension while the active slot is empty. -/
theorem annInv_iff (s : State) :
    AnnInv s ↔ Announced s ∧ (s.ann.active = none → s.ann.queue = [] ∧ s.ann.stack = [] ∧ s.comm.state ≠ .suspended) where
  mp h :=
    { left :=
        { streams := ⟨fun i => ⟨h.off i, h.behind i⟩, h.silent⟩
          queue := h.queue
          stack := h.stack
          alone := fun e he => h.suspended.trans
            ⟨fun ⟨x, hx, hc⟩ => by rw [he] at hx; cases hx; exact hc, fun hc => ⟨e, he, hc⟩⟩ }
      right := fun ha => ⟨(h.empty ha).1, (h.empty ha).2, fun hs => by
        obtain ⟨e, he, -⟩ := h.suspended.1 hs
        rw [ha] at he
        cases he⟩ }
  mpr := fun ⟨amid, empty⟩ =>
    { queue := amid.queue
      stack := amid.stack
      empty := fun ha => ⟨(empty ha).1, (empty ha).2.1⟩
      suspended := by
        cases ha : s.ann.active with
        | none => exact ⟨fun hs => absurd hs (empty ha).2.2, fun ⟨_, hx, _⟩ => nomatch hx⟩
        | some e =>
          refine (amid.alone e ha).trans ⟨fun hc => ⟨e, rfl, hc⟩, ?_⟩
          rintro ⟨x, hx, hc⟩
          cases hx
          exact hc
      silent := amid.streams.silent
      off := fun i => (amid.streams.streams i).off
      behind := fun i => (amid.streams.streams i).behind }

theorem AnnInv.amid {s : State} (h : AnnInv s) : Announced s := ((annInv_iff s).1 h).1

namespace Announced
variable {s t : State}

theorem plays (h : Announced s) (p : Plays s t) : Announced t where
  streams := h.streams.congr (by rw [p.comm]) (by rw [p.comm])
  queue := by rw [p.queue]; exact h.queue
  stack := by rw [p.stack]; exact h.stack
  alone e he := by
    obtain ⟨x, hx, hc⟩ := p.active e he
    rw [p.comm, ← hc]
    exact h.alone x hx

theorem annInv (h : Announced s) (ha : s.ann.active ≠ none) : AnnInv s := (annInv_iff s).2 ⟨h, fun hn => absurd hn ha⟩

/-! ### An entry becomes active (R90, R91) -/

/-- An entry heard alone suspends commentary and a NOTICE resumes it, whatever was active before. -/
theorem activate (streams : StreamsSound s) (queue : s.ann.queue.length ≤ 8) (stack : s.ann.stack.length ≤ 4) (e : Entry) :
    Announced (s.activate e) ∧ (s.activate e).ann.queue = s.ann.queue ∧ (s.activate e).ann.stack = s.ann.stack := by
  have started : ∀ {u v : State}, Announced u → Plays u v → u.ann.queue = s.ann.queue → u.ann.stack = s.ann.stack →
      Announced v ∧ v.ann.queue = s.ann.queue ∧ v.ann.stack = s.ann.stack :=
    fun hu p hq hs => ⟨hu.plays p, p.queue.trans hq, p.stack.trans hs⟩
  unfold State.activate
  generalize hv : (s.setAnn fun a => { a with active := some { e with phase := .queued } }).handClass = v
  have sound : StreamsSound v := by subst hv; exact streams.congr rfl Iff.rfl
  have ann : v.ann = { s.ann with active := some { e with phase := .queued } } := by subst hv; rfl
  dsimp only
  split
  · next hc =>
    obtain ⟨resumed, awake⟩ := sound.resume
    have annResumed := (resume_ann v).trans ann
    have notice : Announced v.resume :=
      { streams := resumed
        queue := by rw [annResumed]; exact queue
        stack := by rw [annResumed]; exact stack
        alone := fun x hx => by
          rw [annResumed] at hx
          cases hx
          exact ⟨fun hs => absurd hs awake, fun hn => absurd hc hn⟩ }
    split
    · exact started notice (Plays.refl _).startActive (by rw [annResumed]) (by rw [annResumed])
    · exact started notice ((Plays.refl _).same (askVoice_comm _ _) (askVoice_ann _ _)) (by rw [annResumed]) (by rw [annResumed])
  · next hc =>
    have annSuspended := (suspend_ann v).trans ann
    have alone : Announced v.suspend :=
      { streams := sound.suspend
        queue := by rw [annSuspended]; exact queue
        stack := by rw [annSuspended]; exact stack
        alone := fun x hx => by
          rw [annSuspended] at hx
          cases hx
          exact ⟨fun _ => hc, fun _ => suspend_state v⟩ }
    split
    · exact started alone (Plays.refl _).startActive (by rw [annSuspended]) (by rw [annSuspended])
    · exact started alone (Plays.refl _) (by rw [annSuspended]) (by rw [annSuspended])

/-! ### Selection (R89) -/

/-- Taking the candidate leaves one entry fewer waiting. -/
theorem takeCandidate_lengths {a b : Announcements} {e : Entry} (h : a.takeCandidate = some (e, b)) :
    b.queue.length ≤ a.queue.length ∧ b.stack.length ≤ a.stack.length ∧
      b.queue.length + b.stack.length + 1 = a.queue.length + a.stack.length ∧ b.active = a.active := by
  unfold Announcements.takeCandidate at h
  split at h
  · cases h
  · next hs hq => cases h; simp [hs, hq]
  · next hs hq => cases h; simp [hs, hq]
  · next hs hq => split at h <;> cases h <;> simp [hs, hq] <;> omega

theorem takeCandidate_none {a : Announcements} (h : a.takeCandidate = none) : a.queue = [] ∧ a.stack = [] := by
  unfold Announcements.takeCandidate at h
  split at h
  · next hs hq => exact ⟨hq, hs⟩
  · cases h
  · cases h
  · split at h <;> cases h

/-- With nothing left to select commentary resumes. -/
theorem resumed (streams : StreamsSound s) (ha : s.ann.active = none) (left : s.ann.queue = [] ∧ s.ann.stack = []) :
    AnnInv s.resume := by
  obtain ⟨resumed, awake⟩ := streams.resume
  refine (annInv_iff _).2 ⟨⟨resumed, ?_, ?_, ?_⟩, fun _ => ⟨?_, ?_, awake⟩⟩ <;> rw [resume_ann]
  · rw [left.1]; exact Nat.zero_le 8
  · rw [left.2]; exact Nat.zero_le 4
  · rw [ha]; exact fun _ he => nomatch he
  · exact left.1
  · exact left.2

/-- With a round for each waiting entry and one more, the rounds end with an entry active or with none left. -/
theorem selectRounds (n : Nat) (h : Announced s) (hn : s.ann.active = none → s.ann.queue.length + s.ann.stack.length < n) :
    AnnInv (State.selectRounds n s) := by
  induction n generalizing s with
  | zero => exact h.annInv fun ha => absurd (hn ha) (Nat.not_lt_zero _)
  | succ n ih =>
    unfold State.selectRounds
    split
    · next x hx => exact h.annInv (by rw [hx]; nofun)
    · next ha =>
      split
      · next hc =>
        have handed : StreamsSound s.handClass := h.streams.congr rfl Iff.rfl
        exact resumed handed ha (takeCandidate_none hc)
      · next e a hc =>
        obtain ⟨hq, hs, fewer, hact⟩ := takeCandidate_lengths hc
        have queue := hq.trans h.queue
        have stack := hs.trans h.stack
        have less := hn ha
        have taken : Announced (s.setAnn fun _ => a) :=
          { streams := h.streams.congr rfl Iff.rfl
            queue := queue
            stack := stack
            alone := fun x hx => by
              rw [setAnn_ann, hact, ha] at hx
              cases hx }
        dsimp only
        split
        · have expired : Plays (s.setAnn fun _ => a) ((s.setAnn fun _ => a).annEnded e .expired) :=
            (Plays.refl _).annReport (.ended e.ticket .expired) e
          refine ih (taken.plays expired) fun _ => ?_
          rw [expired.queue, expired.stack, setAnn_ann]
          omega
        · obtain ⟨active, sameQueue, sameStack⟩ := activate taken.streams queue stack e
          refine ih active fun _ => ?_
          rw [sameQueue, sameStack, setAnn_ann]
          omega

theorem select (h : Announced s) : AnnInv s.select := h.selectRounds _ fun _ => Nat.lt_succ_self _

/-! ### The active entry's life (R90 to R95) -/

/-- Whatever the active entry does, a selection restores the invariant. -/
theorem playsSelect (h : Announced s) (p : Plays s t) : AnnInv t.select := (h.plays p).select

end Announced

namespace AnnInv
variable {s t : State}

/-- The invariant reads commentary and the announcement engine alone. -/
theorem reads (h : AnnInv s) (hc : t.comm = s.comm) (ha : t.ann = s.ann) : AnnInv t where
  queue := by rw [ha]; exact h.queue
  stack := by rw [ha]; exact h.stack
  empty := by rw [ha]; exact h.empty
  suspended := by rw [ha, hc]; exact h.suspended
  silent hs i := by rw [State.stream, hc]; exact h.silent (hc ▸ hs) i
  off i := by rw [State.stream, hc]; exact h.off i
  behind i := by rw [State.stream, hc]; exact h.behind i

end AnnInv
end Sys2Proof.Machine
end

section
/-! SUPPORT. The operations that touch neither commentary nor the announcement engine. -/

namespace Sys2Proof.Machine

/-- Commentary and the announcement engine. -/
def State.speech (s : State) : Commentary × Announcements := (s.comm, s.ann)

section
variable (s : State)

@[simp] theorem reply_speech (k : Nat) (tag : Byte) (c : ResultCode) (d : ReplyData) :
    (s.reply k tag c d).speech = s.speech := rfl
@[simp] theorem report_speech (r : Report) : (s.report r).speech = s.speech := rfl
@[simp] theorem portDone_speech : s.portDone.speech = s.speech := rfl
@[simp] theorem shiftWrite_speech (a b : WritePhase) : (s.shiftWrite a b).speech = s.speech := by rw [shiftWrite_eq]; rfl

@[simp] theorem topUp_speech (v : Fin 16) : (s.topUp v).speech = s.speech := by
  unfold State.topUp
  dsimp only
  split <;> rfl

theorem lookUp_speech (v : Fin 16) (clip page : Nat) : (s.lookUp v clip page).1.speech = s.speech := by
  obtain ⟨m, hm⟩ := lookUp_beside s v clip page s.ann s.comm s.lights s.link s.mixer s.cues
  rw [show s.beside s.ann s.comm s.lights s.link s.mixer s.cues = s from rfl] at hm
  rw [hm]
  rfl

@[simp] theorem readPage_speech (p : Nat) (f : Bool) : (s.readPage p f).2.speech = s.speech := by
  obtain ⟨n, h⟩ := readPage_state s p f
  rw [h]
  rfl

@[simp] theorem readRoutePage_speech (p : Nat) (f : Bool) : (s.readRoutePage p f).2.speech = s.speech := by
  unfold State.readRoutePage
  split
  · rfl
  · exact readPage_speech s p f

@[simp] theorem checkPage_speech (p : Nat) (d : Option (List Byte)) (c i : Nat) (q : Bool) :
    (s.checkPage p d c i q).2.speech = s.speech := by
  obtain ⟨_, _, _, _, h⟩ := checkPage_state s p d c i q
  rw [h]
  rfl

@[simp] theorem voicePage_speech (v : Fin 16) (serial index page : Nat) (data : Option (List Byte)) :
    (s.voicePage v serial index page data).speech = s.speech := by
  unfold State.voicePage
  dsimp only
  split
  · split
    · rfl
    · exact (topUp_speech _ _).trans (checkPage_speech _ _ _ _ _ _)
  · rfl

@[simp] theorem residentPage_speech (b i p : Nat) (d : Option (List Byte)) (q : Bool) :
    (s.residentPage b i p d q).speech = s.speech := by
  unfold State.residentPage
  split
  · rfl
  · split
    · exact checkPage_speech _ _ _ _ _ _
    · rfl

@[simp] theorem blankChecked_speech (tag : Byte) (page : Nat) (bytes : List Byte) (d : Option (List Byte)) :
    (s.blankChecked tag page bytes d).speech = s.speech := by
  unfold State.blankChecked
  (repeat' split) <;> rfl

@[simp] theorem endListenersHold_speech : s.endListenersHold.speech = s.speech := by
  unfold State.endListenersHold
  dsimp only
  split <;> rfl

theorem takeLoad_speech (r : PortRead) (d : Option (List Byte)) : (s.takeLoad r d).speech = s.speech := by
  unfold State.takeLoad
  split
  · rfl
  · dsimp only
    split <;> rfl
  · exact residentPage_speech _ _ _ _ _ _
  · unfold State.takeLockPage
    split <;> rfl
  · rfl

theorem skipCue_speech (n : Nat) : (s.skipCue n).speech = s.speech := by
  unfold State.skipCue
  split
  · rfl
  · split <;> rfl

theorem rearm_speech : s.rearm.speech = s.speech := by
  unfold State.rearm
  dsimp only
  split <;> rfl

/-- The completion of a start-up samples the press-to-talk line alone (R104, R182). -/
theorem completeStartUp_speech :
    s.completeStartUp.speech = (s.comm, { s.ann with pressed := s.power.pttLine }) := by
  have told : ∀ (l : List FaultRecord) (u : State), (l.foldl (fun s f => s.report (.storeFault f)) u).speech = u.speech := by
    intro l
    induction l with
    | nil => exact fun _ => rfl
    | cons f l ih => exact fun u => (ih _).trans rfl
  have lined : ∀ u : State, (if u.power.ignition then u else u.armTimer).kick.speech = u.speech := by
    intro u
    split <;> rfl
  unfold State.completeStartUp
  dsimp only
  rw [lined, told]
  rfl

end

/-! ### The lengths of the queue (R87, R101) -/

theorem insertQueue_length (code : Fin 6) (queue : List Entry) (e : Entry) :
    (insertQueue code queue e).length = queue.length + 1 := by
  have split := congrArg List.length
    (List.takeWhile_append_dropWhile (p := fun q : Entry => decide (rank code q.cls ≤ rank code e.cls)) (l := queue))
  rw [List.length_append] at split
  unfold insertQueue
  rw [List.length_append, List.length_cons]
  omega

/-- Every entry is of one of the four classes. -/
theorem length_by_class (queue : List Entry) :
    (queue.filter fun e => decide (e.cls = .warning)).length + (queue.filter fun e => decide (e.cls = .live)).length +
      (queue.filter fun e => decide (e.cls = .stop)).length + (queue.filter fun e => decide (e.cls = .notice)).length =
      queue.length := by
  induction queue with
  | nil => rfl
  | cons e queue ih => cases hc : e.cls <;> simp [hc] <;> omega

theorem resort_length (code : Fin 6) (queue : List Entry) : (resort code queue).length = queue.length := by
  have sum := length_by_class queue
  fin_cases code <;> simp [resort, classOrder] <;> omega

/-- The entry that can be evicted waits in the queue (R87). -/
theorem evictable_mem {a : Announcements} {e : Entry} (h : a.evictable = some e) : e ∈ a.queue := by
  have found : ∀ (l : List Entry) (best : Option Entry) (e : Entry),
      l.foldl (fun best e =>
        match best with
        | none => some e
        | some b => if a.age e < a.age b then some e else some b) best = some e → e ∈ l ∨ best = some e := by
    intro l
    induction l with
    | nil => exact fun best e h => .inr h
    | cons x l ih =>
      intro best e h
      rcases ih _ e h with h | h
      · exact .inl (List.mem_cons_of_mem _ h)
      · dsimp only at h
        split at h
        · cases h; exact .inl List.mem_cons_self
        · split at h
          · cases h; exact .inl List.mem_cons_self
          · exact .inr h
  exact List.mem_of_mem_filter ((found _ _ _ h).resolve_right nofun)

end Sys2Proof.Machine
end

section
/-! SUPPORT. The announcement engine's bounds through admissions, presses, cancellations and the ends of voices (R85 to R99). -/

namespace Sys2Proof.Machine

namespace Announced
variable {s : State}

/-- What waits, with room for it, joins the queue and a selection follows (R87). -/
theorem joinQueue (h : Announced s) (room : s.ann.queue.length < 8) (e : Entry) : AnnInv (s.joinQueue e).1 := by
  rw [joinQueue_eq]
  refine select ⟨h.streams.congr rfl Iff.rfl, ?_, h.stack, h.alone⟩
  refine (insertQueue_length _ _ _).trans_le ?_
  exact room

/-- A pushed entry leaves a full stack full (R88). -/
theorem pushStack (h : Announced s) (e : Entry) : Announced (s.pushStack e) := by
  unfold State.pushStack
  split
  · exact h.plays ((Plays.refl s).annReport _ _)
  · generalize hr : ({ e with phase := .queued, map := none, speakerVoice := none, chimeVoice := none, restart := true,
                              voices := [] } : Entry) = r
    have pushed : Announced (s.setAnn fun a => { a with stack := (r :: a.stack).take 4 }) :=
      ⟨h.streams.congr rfl Iff.rfl, h.queue, List.length_take_le 4 _, h.alone⟩
    dsimp only
    split
    · exact pushed.plays ((Plays.refl _).annReport _ _)
    · exact pushed

end Announced

namespace AnnInv
variable {s t : State}

theorem speech (h : AnnInv s) (hv : t.speech = s.speech) : AnnInv t := h.reads (congrArg Prod.fst hv) (congrArg Prod.snd hv)

/-- What commentary does without being suspended or resumed. -/
theorem spoken (h : AnnInv s) (p : Spoken s s → Spoken s t) (ann : t.ann = s.ann) : AnnInv t := by
  obtain ⟨amid, empty⟩ := (annInv_iff s).1 h
  have done := p (.refl amid.streams)
  refine (annInv_iff t).2 ⟨⟨done.sound, ?_, ?_, ?_⟩, ?_⟩ <;> rw [ann]
  · exact amid.queue
  · exact amid.stack
  · exact fun e he => done.state.trans (amid.alone e he)
  · exact fun ha => ⟨(empty ha).1, (empty ha).2.1, fun hs => (empty ha).2.2 (done.state.1 hs)⟩

/-- The announcement engine with no more entries waiting and an active entry of the same class. -/
theorem fewer (h : AnnInv s) (p : t.comm = s.comm) (active : t.ann.active.map Entry.cls = s.ann.active.map Entry.cls)
    (queue : t.ann.queue.length ≤ s.ann.queue.length) (stack : t.ann.stack.length ≤ s.ann.stack.length) : AnnInv t := by
  obtain ⟨amid, empty⟩ := (annInv_iff s).1 h
  refine (annInv_iff t).2 ⟨⟨amid.streams.congr (by rw [p]) (by rw [p]), queue.trans amid.queue, stack.trans amid.stack, ?_⟩, ?_⟩
  · intro e he
    obtain ⟨x, hx, hc⟩ := Option.map_eq_some_iff.1 (active.symm.trans (congrArg (Option.map Entry.cls) he))
    rw [p, amid.alone x hx, hc]
  · intro ha
    obtain ⟨hq, hs, hn⟩ := empty (Option.map_eq_none_iff.1 (active.symm.trans (congrArg (Option.map Entry.cls) ha)))
    rw [hq] at queue
    rw [hs] at stack
    exact ⟨List.eq_nil_of_length_eq_zero (Nat.le_zero.1 queue), List.eq_nil_of_length_eq_zero (Nat.le_zero.1 stack),
      by rw [p]; exact hn⟩

theorem setActive (h : AnnInv s) {f : Entry → Entry} (hf : ∀ e, (f e).cls = e.cls) : AnnInv (s.setActive f) := by
  refine h.fewer rfl ?_ le_rfl le_rfl
  rw [setActive_ann]
  cases s.ann.active with
  | none => rfl
  | some e => exact congrArg some (hf e)

/-! ### The active entry starts, plays and ends (R90 to R95) -/

theorem startSelect (h : AnnInv s) : AnnInv s.startActive.select := h.amid.playsSelect (Plays.refl s).startActive

theorem endSelect (h : AnnInv s) (o : AnnOutcome) : AnnInv (s.endActive o).select :=
  h.amid.playsSelect ((Plays.refl s).endActive o)

theorem tellFree (h : AnnInv s) : AnnInv s.tellFree := by
  unfold State.tellFree
  split
  · exact h
  · split
    · exact h.startSelect
    · exact h

theorem grantNotice (h : AnnInv s) : AnnInv s.grantNotice := by
  unfold State.grantNotice
  split
  · exact h
  · split
    · exact h.startSelect
    · exact h

theorem handMap (h : AnnInv s) : AnnInv s.handMap := by
  unfold State.handMap
  split
  · exact h
  · split
    · exact h
    · exact h.reads rfl rfl

theorem annVoiceEnded (h : AnnInv s) (v : Fin 16) : AnnInv (s.annVoiceEnded v) := by
  unfold State.annVoiceEnded
  split
  · exact h
  · split
    · split
      · exact h.amid.playsSelect ((Plays.refl s).setActive fun _ => by rfl).playActive
      · exact h
    · split
      · dsimp only
        split
        · exact h.amid.playsSelect (((Plays.refl s).setActive fun _ => by rfl).endActive _)
        · exact (h.setActive fun _ => by rfl).handMap
      · exact h

theorem finishSegment (h : AnnInv s) (i : Fin 12) : AnnInv (s.finishSegment i) :=
  h.spoken (·.finishSegment i) (finishSegment_ann s i)

theorem ownerActs (h : AnnInv s) (owner : Option Owner) (v : Fin 16) : AnnInv (s.ownerActs owner v) := by
  unfold State.ownerActs
  refine tellFree ?_
  split
  · exact h.finishSegment _
  · exact h.annVoiceEnded v
  · exact h.annVoiceEnded v
  · exact h

theorem dropVoice (h : AnnInv s) (v : Fin 16) : AnnInv (s.dropVoice v) := h.reads rfl rfl

theorem voiceEnded (h : AnnInv s) (v : Fin 16) : AnnInv (s.voiceEnded v) := (h.dropVoice v).ownerActs _ v

/-! ### The end of an event (R116) -/

theorem grants (n : Nat) (h : AnnInv s) : AnnInv (State.grants n s) := by
  induction n generalizing s with
  | zero => exact h
  | succ n ih =>
    have withdrawn : ∀ r, AnnInv (s.withdraw r) := fun r => h.reads rfl rfl
    unfold State.grants
    split
    · exact ih (withdrawn _).grantNotice
    · exact ih ((withdrawn _).spoken (·.grantStream _ _) (grantStream_ann _ _ _)).tellFree
    · exact h

theorem endEvent (h : AnnInv s) : AnnInv s.endEvent := by
  have granted : AnnInv s.arbitrate := by
    unfold State.arbitrate
    exact h.grants _
  unfold State.endEvent
  revert granted
  generalize s.arbitrate = a
  intro granted
  obtain ⟨seats, hp, -⟩ := publish_eq a
  have published : AnnInv a.publish := granted.reads (by rw [hp]) (by rw [hp])
  revert published
  generalize a.publish = b
  intro published
  obtain ⟨p, w, hw, -⟩ := settlePort_eq b
  exact published.reads (t := b.settlePort.kick) (by rw [kick_comm, hw]) (by rw [kick_ann, hw])

/-! ### Admissions (R85 to R87) -/

theorem preempt (h : AnnInv s) (e : Entry) : AnnInv (s.preempt e).1 := by
  have left : Announced s.releaseActive.leaveActive := h.amid.plays (Plays.refl s).releaseActive.leaveActive.1
  have admitted : ∀ u : State, Announced u → ∀ e : Entry, AnnInv ((u.giveTicket e).1.activate (u.giveTicket e).2).select :=
    fun u hu e => (Announced.activate (s := (u.giveTicket e).1) (hu.streams.congr rfl Iff.rfl) hu.queue hu.stack _).1.select
  unfold State.preempt
  dsimp only
  refine admitted _ ?_ e
  split
  · exact left
  · split
    · exact left.plays ((Plays.refl _).annReport _ _)
    · exact left.pushStack _

theorem admitEntry (h : AnnInv s) (e : Entry) : AnnInv (s.admitEntry e).1 := by
  unfold State.admitEntry
  split
  · exact h
  · split
    · exact h.preempt e
    · split
      · next room => exact h.amid.joinQueue room e
      · split
        · exact h
        · next old evicted =>
          split
          · have shorter := List.length_erase_of_mem (evictable_mem evicted)
            have held := List.length_pos_of_mem (evictable_mem evicted)
            have bound := h.queue
            have gone : Announced (s.setAnn fun a => { a with queue := a.queue.erase old }) :=
              ⟨h.amid.streams.congr rfl Iff.rfl, by rw [setAnn_ann]; dsimp only; omega, h.stack, h.amid.alone⟩
            refine (gone.plays ((Plays.refl _).annReport _ _)).joinQueue ?_ e
            show (s.ann.queue.erase old).length < 8
            omega
          · exact h

theorem admitSilently (h : AnnInv s) (e : Entry) : AnnInv (s.admitSilently e) := by
  have admitted := h.admitEntry e
  unfold State.admitSilently
  revert admitted
  generalize s.admitEntry e = p
  intro admitted
  obtain ⟨u, o⟩ := p
  cases o
  · exact admitted
  · exact admitted
  · exact admitted.reads rfl rfl

/-! ### Press-to-talk, cancellation and the route's entries (R96 to R99, R101) -/

theorem livePress (h : AnnInv s) : AnnInv s.livePress := by
  have pressed : AnnInv (s.setAnn fun a => { a with pressed := true }) := h.fewer rfl rfl le_rfl le_rfl
  unfold State.livePress
  dsimp only
  split
  · split
    · refine AnnInv.setActive ?_ fun _ => by rfl
      exact pressed.fewer rfl rfl le_rfl le_rfl
    · split
      · exact pressed
      · exact pressed.admitSilently _
  · split
    · exact pressed
    · exact pressed.admitSilently _

theorem annEndeds (h : AnnInv s) (o : AnnOutcome) (entries : List Entry) :
    AnnInv (entries.foldl (fun s e => s.annEnded e o) s) := by
  induction entries generalizing s with
  | nil => exact h
  | cons e entries ih => exact ih (h.reads rfl rfl)

theorem withdrawLive (h : AnnInv s) : AnnInv s.withdrawLive := by
  unfold State.withdrawLive
  dsimp only
  refine annEndeds (s := s.setAnn _) (h.fewer rfl rfl ?_ ?_) _ _
  · exact List.length_filter_le _ _
  · exact List.length_filter_le _ _

theorem dropCueEntries (h : AnnInv s) : AnnInv s.dropCueEntries := by
  unfold State.dropCueEntries
  dsimp only
  refine annEndeds (s := s.setAnn _) (h.fewer rfl rfl ?_ ?_) _ _
  · exact List.length_filter_le _ _
  · exact List.length_filter_le _ _

theorem liveRelease (h : AnnInv s) : AnnInv s.liveRelease := by
  have released : AnnInv (s.setAnn fun a => { a with pressed := false }) := h.fewer rfl rfl le_rfl le_rfl
  unfold State.liveRelease
  dsimp only
  split
  · split
    · split
      · split
        · exact released.endSelect _
        · refine AnnInv.setActive ?_ fun _ => by rfl
          exact released.fewer rfl rfl le_rfl le_rfl
      · exact released.endSelect _
      · exact released
      · exact released
    · exact released.withdrawLive
  · exact released.withdrawLive

theorem cancelEntry (h : AnnInv s) (e : Entry) : AnnInv (s.cancelEntry e) := by
  unfold State.cancelEntry
  split
  · exact h.endSelect _
  · have removed : AnnInv (s.removeWaiting e.ticket) :=
      h.fewer rfl rfl (List.length_filter_le _ _) (List.length_filter_le _ _)
    exact removed.reads rfl rfl

theorem setCode (h : AnnInv s) (code : Fin 6) : AnnInv (s.setAnn fun a => a.setCode code) :=
  h.fewer rfl rfl (resort_length code s.ann.queue).le le_rfl

end AnnInv
end Sys2Proof.Machine
end

section
/-! SUPPORT. The bounds of the announcement engine through cues, fixes, routes, settings, reloads and start-ups. -/

namespace Sys2Proof.Machine
namespace AnnInv
variable {s t : State}

theorem closed : Closed AnnInv where
  queue _ _ _ h := h.reads rfl rfl
  link _ _ h := h.reads rfl rfl
  ending _ h := h.endEvent

theorem reply (h : AnnInv s) (kind : Nat) (tag : Byte) (code : ResultCode) (data : ReplyData) :
    AnnInv (s.reply kind tag code data) :=
  h.reads rfl rfl

/-! ### What the seats, the mixer and the settings hand to commentary (R46, R63, R79, R145) -/

theorem deriveNeed (h : AnnInv s) : AnnInv s.deriveNeed := h.spoken (·.deriveNeed) (deriveNeed_ann s)

theorem setQuiet (h : AnnInv s) (quiet : Bool) : AnnInv (s.setQuiet quiet) := h.spoken (·.setQuiet quiet) (setQuiet_ann s quiet)

theorem refreshEnabled (h : AnnInv s) : AnnInv s.refreshEnabled := h.spoken (·.refreshEnabled) (refreshEnabled_ann s)

theorem seatsTaken (h : AnnInv s) (table : SeatTable) : AnnInv (s.seatsTaken table) :=
  h.spoken (·.seatsTaken table) (seatsTaken_ann s table)

theorem stopCommentary (h : AnnInv s) : AnnInv s.stopCommentary := h.spoken (·.stopCommentary) (stopCommentary_ann s)

theorem missReply (h : AnnInv s) (box : Fin 16) : AnnInv (s.missReply box) := by
  have told : ∀ (seats : SeatTable) (r : Report), AnnInv (({ s with seats := seats } : State).report r) :=
    fun _ _ => h.reads rfl rfl
  unfold State.missReply
  dsimp only
  split
  · exact (told _ _).seatsTaken _
  · exact h.reads rfl rfl

theorem takeReply (h : AnnInv s) (r : PollReply) : AnnInv (s.takeReply r) := by
  have told : ∀ p : Report, AnnInv (s.report p) := fun _ => h.reads rfl rfl
  unfold State.takeReply
  dsimp only
  split
  · exact h.seatsTaken _
  · exact (told _).seatsTaken _

/-! ### Cues and the rules of the chainage (R30 to R36) -/

theorem handCue (h : AnnInv s) {n : Nat} {c : Cue} (hc : s.handCue n c = some t) : AnnInv t := by
  unfold State.handCue at hc
  split at hc
  · obtain ⟨p, -, rfl⟩ := Option.map_eq_some_iff.1 hc
    exact h.spoken (·.fireCommentary _ _ _) (fireCommentary_ann _ _ _ _)
  · obtain ⟨p, -, rfl⟩ := Option.map_eq_some_iff.1 hc
    exact h.admitSilently _
  · obtain ⟨p, -, rfl⟩ := Option.map_eq_some_iff.1 hc
    exact h.admitSilently _
  · split at hc
    · cases hc
    · obtain ⟨p, -, rfl⟩ := Option.map_eq_some_iff.1 hc
      exact h.reads rfl rfl
  · cases hc; exact h.setQuiet _
  · cases hc; exact h.setQuiet _

theorem fireCue (h : AnnInv s) (forced : Bool) (n : Nat) : AnnInv (State.fireCue forced s n) := by
  unfold State.fireCue
  split
  · exact h
  · next c _ =>
    have fired : AnnInv (s.setCues fun cs => cs.set n { c with state := .fired }) := h.reads rfl rfl
    dsimp only
    split
    · next u hu => exact (fired.handCue hu).reads rfl rfl
    · exact fired.reads rfl rfl

theorem fireCues (l : List Nat) (h : AnnInv s) : AnnInv (l.foldl (State.fireCue false) s) := by
  induction l generalizing s with
  | nil => exact h
  | cons n l ih => exact ih (h.fireCue false n)

theorem advance (h : AnnInv s) : AnnInv s.advance := by
  unfold State.advance
  split
  · exact h.fireCues _
  · exact h

theorem skipCues (l : List Nat) (h : AnnInv s) : AnnInv (l.foldl State.skipCue s) := by
  induction l generalizing s with
  | nil => exact h
  | cons n l ih => exact ih (h.speech (skipCue_speech s n))

theorem jumpForward (h : AnnInv s) : AnnInv s.jumpForward := by
  unfold State.jumpForward
  split
  · exact (h.skipCues _).advance
  · exact h

theorem jumpBackward (h : AnnInv s) (distance : Nat) : AnnInv (s.jumpBackward distance) := by
  unfold State.jumpBackward
  split
  · apply AnnInv.advance
    split
    · exact h.speech (rearm_speech s)
    · exact h
  · exact h

/-! ### The tracker and the modes (R1 to R15, R124, R125, R137) -/

theorem pulse (h : AnnInv s) (arrival : BitVec 32) : AnnInv (s.pulse arrival) := by
  have moved : ∀ t : Tracker, AnnInv { s with tracker := t } := fun _ => h.reads rfl rfl
  unfold State.pulse
  split
  · dsimp only
    split
    · exact (moved _).advance
    · exact moved _
  · exact h.reads rfl rfl

theorem hardFix (h : AnnInv s) (projected : Nat) : AnnInv (s.hardFix projected) := by
  have moved : ∀ t : Tracker, AnnInv { s with tracker := t } := fun _ => h.reads rfl rfl
  unfold State.hardFix
  dsimp only
  split
  · exact (moved _).jumpBackward _
  · exact (moved _).jumpForward

theorem enterRun (h : AnnInv s) : AnnInv s.enterRun :=
  AnnInv.advance (h.reads rfl rfl)

theorem leaveByMotion (h : AnnInv s) : AnnInv s.leaveByMotion := h.enterRun.reads rfl rfl

theorem motionTest (h : AnnInv s) : AnnInv s.motionTest := by
  unfold State.motionTest
  split
  · split
    · exact h.leaveByMotion
    · exact h.reads rfl rfl
  · exact h

theorem endWindow (h : AnnInv s) : AnnInv s.endWindow := by
  unfold State.endWindow
  exact motionTest (advance (h.reads rfl rfl))

theorem waitingLookup (h : AnnInv s) (v : Fin 16) : AnnInv (s.waitingLookup v) := by
  unfold State.waitingLookup
  split
  · exact h
  · next clip page _ =>
    have looked : AnnInv (s.lookUp v clip page).1 := h.speech (lookUp_speech s v clip page)
    revert looked
    generalize s.lookUp v clip page = p
    intro looked
    obtain ⟨u, o⟩ := p
    cases o
    · exact looked
    all_goals exact looked.ownerActs _ v

theorem waitingLookups (l : List (Fin 16)) (h : AnnInv s) : AnnInv (l.foldl State.waitingLookup s) := by
  induction l generalizing s with
  | nil => exact h
  | cons v l ih => exact ih (h.waitingLookup v)

theorem endReload (h : AnnInv s) (r : Reload) : AnnInv (s.endReload r) := by
  unfold State.endReload
  generalize List.finRange 16 = voices
  dsimp only
  split
  · exact leaveByMotion (waitingLookups voices (h.reads rfl rfl))
  · exact waitingLookups voices (h.reads rfl rfl)

theorem directoryPage (h : AnnInv s) (use : ReadUse) (d : Option (List Byte)) (erasing : Bool) :
    AnnInv (s.directoryPage use d erasing) := by
  unfold State.directoryPage
  split
  · exact h
  · dsimp only
    split
    · exact h.endReload _
    · exact h.reads rfl rfl

/-! ### Routes (R22 to R27) -/

theorem routeChange (h : AnnInv s) : AnnInv s.routeChange := by
  obtain ⟨comm, ann, -⟩ := leaveRoute_blocks s
  have stopped := (h.reads comm ann).stopCommentary.dropCueEntries
  have dark : ∀ l : Lights, AnnInv { s.leaveRoute.stopCommentary.dropCueEntries with lights := l } :=
    fun _ => stopped.reads rfl rfl
  rw [routeChange_eq]
  exact ((dark _).setQuiet false).refreshEnabled

theorem beginLoad (h : AnnInv s) (n : Nat) (e : Extent) : AnnInv (s.beginLoad n e) := h.reads rfl rfl

theorem loadPage (h : AnnInv s) (e : Extent) (load : Load) (page : List Byte) : AnnInv (s.loadPage e load page) := by
  unfold State.loadPage
  dsimp only
  split
  · unfold State.routeReady
    exact refreshEnabled (h.reads rfl rfl)
  · exact h.reads rfl rfl
  · split <;> exact h.reads rfl rfl

theorem routePage (h : AnnInv s) (serial index page : Nat) (data : Option (List Byte)) :
    AnnInv (s.routePage serial index page data) := by
  unfold State.routePage
  split
  · split
    · split
      · exact h.reads rfl rfl
      · exact h.loadPage _ _ _
    · exact h
  · exact h

/-! ### Settings (R179) -/

theorem settingWritten (h : AnnInv s) (id : Nat) : AnnInv (s.settingWritten id) := by
  unfold State.settingWritten
  split
  case h_2 => exact h.advance
  case h_3 => exact h.advance.motionTest
  case h_4 => exact h.refreshEnabled
  case h_5 => exact h.seatsTaken _
  case h_6 =>
    have mixed : AnnInv { s with mixer := s.mixer.speakerWritten s.voices.voices s.settings.speakerSlot } := h.reads rfl rfl
    exact mixed.deriveNeed.spoken (·.deriveDemand) (deriveDemand_ann _)
  case h_9 => exact h.setCode _
  case h_11 =>
    unfold State.delayWritten
    split <;> exact h.reads rfl rfl
  case h_13 => exact deriveNeed (h.reads rfl rfl)
  all_goals exact h.reads rfl rfl

/-! ### Power (R181 to R186) -/

/-- The values after start-up meet the bounds (R80, R104). -/
theorem fresh {g : Settings} (comm : t.comm = freshCommentary g) (active : t.ann.active = none) (queue : t.ann.queue = [])
    (stack : t.ann.stack = []) : AnnInv t := by
  have empty : ∀ i, (t.stream i).current = none ∧ (t.stream i).next = none := by
    intro i
    rw [State.stream, comm]
    simp [freshCommentary]
  refine (annInv_iff t).2 ⟨⟨⟨fun i => ⟨fun _ => (empty i).1, fun _ => (empty i).2⟩, fun _ i => (empty i).1⟩, ?_, ?_, ?_⟩, ?_⟩
  · rw [queue]; exact Nat.zero_le _
  · rw [stack]; exact Nat.zero_le _
  · intro e he; rw [active] at he; cases he
  · exact fun _ => ⟨queue, stack, by rw [comm]; exact fun h => by cases h⟩

theorem beginStartUp (s : State) (kind : StartKind) (latches : Latches) : AnnInv (s.beginStartUp kind latches) := by
  unfold State.beginStartUp
  exact fresh rfl rfl rfl rfl

theorem enterStandby (s : State) : AnnInv s.enterStandby := fresh (g := s.settings) rfl rfl rfl rfl

theorem wakeInput (h : AnnInv s) (w : WakeCause) : AnnInv (s.wakeInput w) := by
  unfold State.wakeInput
  split
  · exact h
  · unfold State.abortEntry
    dsimp only
    split <;> exact h.reads rfl rfl
  · exact beginStartUp s _ _
  · split
    · exact h.reads rfl rfl
    · exact h

theorem afterWrite (h : AnnInv s) : AnnInv s.afterWrite := by
  unfold State.afterWrite
  split
  · exact enterStandby s
  · exact h

theorem writeDone (h : AnnInv s) {store : Store} {act : State → State} (ha : ∀ u, (act u).speech = u.speech) :
    AnnInv (s.writeDone store act) := by
  unfold State.writeDone
  exact afterWrite (endEvent ((h.reads rfl rfl).speech (ha _)))

theorem receive (h : AnnInv s) (b : Byte) : AnnInv (s.receive b) := by
  unfold State.receive
  split
  · split
    · exact closed.setLink (h.wakeInput _) _
    · exact closed.setLink h _
  · exact closed.setLink h _

theorem completeStartUp (h : AnnInv s) : AnnInv s.completeStartUp := by
  obtain ⟨comm, ann⟩ := Prod.ext_iff.1 (completeStartUp_speech s)
  have sampled : s.completeStartUp.ann = { s.ann with pressed := s.power.pttLine } := ann
  refine h.fewer comm ?_ ?_ ?_ <;> rw [sampled]

theorem loadArrives (h : AnnInv s) (failed : Bool) : AnnInv (s.loadArrives failed) := by
  unfold State.loadArrives
  split
  · exact h
  · next r _ =>
    obtain ⟨n, hn⟩ := readPage_state s r.page failed
    dsimp only
    rw [hn]
    have loaded : AnnInv (({ s with freeSerial := n } : State).takeLoad r (s.readPage r.page failed).1) :=
      (h.reads (t := { s with freeSerial := n }) rfl rfl).speech (takeLoad_speech _ _ _)
    split
    · exact loaded.reads rfl rfl
    · exact completeStartUp (loaded.reads rfl rfl)

/-! ### Every command -/

theorem ofEvent {act : State → State} (ha : ∀ u, AnnInv u → AnnInv (act u)) (he : s.event act = .next t) (h : AnnInv s) :
    AnnInv t :=
  closed.event h ha he

theorem ofCommand {kind : Nat} {tag : Byte} {act : State → State} (ha : ∀ u, AnnInv u → AnnInv (act u))
    (he : s.command kind tag act = .next t) (h : AnnInv s) : AnnInv t :=
  closed.command h ha he

theorem ofQuery {kind : Nat} {tag : Byte} {act : State → State} (ha : ∀ u, (act u).speech = u.speech)
    (he : s.query kind tag act = .next t) (h : AnnInv s) : AnnInv t :=
  closed.query h (fun u hu => hu.speech (ha u)) he

theorem replyAdmission (h : AnnInv s) (tag : Byte) (o : Admission) : AnnInv (s.replyAdmission tag o) := by
  cases o <;> exact h.reply _ _ _ _

theorem duePlaying (h : AnnInv s) (v : Fin 16) : AnnInv (s.duePlaying v) := by
  unfold State.duePlaying
  dsimp only
  split
  · exact h.voiceEnded v
  · split
    · exact h.speech ((topUp_speech _ _).trans rfl)
    · split
      · exact h.reads rfl rfl
      · exact h.voiceEnded v

theorem dueStopping (h : AnnInv s) (v : Fin 16) : AnnInv (s.dueStopping v) := by
  unfold State.dueStopping
  dsimp only
  split
  · exact (h.dropVoice v).tellFree
  · split <;> exact h.reads rfl rfl

/-- Every command keeps the bounds. -/
theorem ofExec {c : Instr} (he : exec c s = .next t) (h : AnnInv s) : AnnInv t := by
  cases c
  -- Requests that change neither commentary nor the announcement engine.
  case getPosition | getCues | getSeats | getStreams | getAnnouncements | clearStoreFaults | volatileOn
      | volatileOff | lockdown | freezeLocks | getStoreState | setLight | applyScene | clearScene | setMaster | getLights
      | getStatus | restart | getSetting | standby | fixSoft | detourBegin =>
    simp only [exec, execGetPosition, execGetCues, execGetSeats, execGetStreams, execGetAnnouncements,
      execClearStoreFaults, execVolatileOn, execVolatileOff, execLockdown, execFreezeLocks, execGetStoreState, execSetLight,
      execApplyScene, execClearScene, execSetMaster, execGetLights, execGetStatus, execRestart, execGetSetting, execStandby,
      execFixSoft, execDetourBegin] at he
    exact ofQuery (fun u => by (repeat' split) <;> rfl) he h
  case storeRead | storeProgram | storeErase | reloadDirectory | lockPersistent | unlockAll | saveSettings =>
    simp only [exec, execStoreRead, execStoreProgram, execStoreErase, execReloadDirectory, execLockPersistent, execUnlockAll,
      execSaveSettings] at he
    exact ofCommand (fun u hu => hu.speech (by (repeat' split) <;> rfl)) he h
  case positionReport | poll | lightRampAdvance | flashPhaseEnd | ignitionOffTimer | settingsEraseComplete | duckRampAdvance
      | outputRampAdvance =>
    simp only [exec, execPositionReport, execPoll, execLightRampAdvance, execFlashPhaseEnd, execIgnitionOffTimer,
      execSettingsEraseComplete, execDuckRampAdvance, execOutputRampAdvance] at he
    exact ofEvent (fun u hu => hu.speech (by (repeat' split) <;> rfl)) he h
  case listenersHoldEnd | writeBegin | voicePageArrival | storeReadData | blankCheckData | residentPageArrival =>
    simp only [exec, execListenersHoldEnd, execWriteBegin, execVoicePageArrival, execStoreReadData, execBlankCheckData,
      execResidentPageArrival] at he
    exact ofEvent (fun u hu => hu.speech (by (repeat' split) <;> simp)) he h
  -- The announcement engine's requests.
  case setPrecedence tag code =>
    simp only [exec, execSetPrecedence] at he
    refine closed.query h (fun u hu => ?_) he
    split
    · exact hu.reply _ _ _ _
    · exact (hu.setCode _).reply _ _ _ _
  case announce tag cls clipSet maxWait =>
    simp only [exec, execAnnounce] at he
    refine ofCommand (fun u hu => ?_) he h
    split
    · exact hu.reply _ _ _ _
    · split
      · exact hu.reply _ _ _ _
      · split
        · exact hu.reply _ _ _ _
        · exact (hu.admitEntry _).replyAdmission _ _
  case cancelAnnounce tag ticket =>
    simp only [exec, execCancelAnnounce] at he
    refine ofCommand (fun u hu => ?_) he h
    split
    · exact hu.reply _ _ _ _
    · split
      · exact hu.reply _ _ _ _
      · exact (hu.reply _ _ _ _).cancelEntry _
  -- The ends of delays, segments, waits, hangs, pages and fades.
  case streamDelayEnd slot =>
    simp only [exec, execStreamDelayEnd] at he
    refine ofEvent (fun u hu => ?_) he h
    split
    · exact hu.spoken (·.endDelay slot) (endDelay_ann u slot)
    · exact hu
  case segmentTimeEnd slot =>
    simp only [exec, execSegmentTimeEnd] at he
    refine ofEvent (fun u hu => ?_) he h
    split
    · exact hu.finishSegment slot
    · exact hu
  case noticeMaxWait =>
    simp only [exec, execNoticeMaxWait] at he
    refine ofEvent (fun u hu => ?_) he h
    split
    · exact hu.endSelect _
    · exact hu
  case hangTimerExpiry =>
    simp only [exec, execHangTimerExpiry] at he
    refine ofEvent (fun u hu => ?_) he h
    split
    · exact hu.endSelect _
    · exact hu
  case voicePageDue v =>
    simp only [exec, execVoicePageDue] at he
    refine ofEvent (fun u hu => ?_) he h
    split
    · split
      · exact hu.duePlaying v
      · exact hu.dueStopping v
    · exact hu
  case fadeEnd v =>
    simp only [exec, execFadeEnd] at he
    refine ofEvent (fun u hu => ?_) he h
    split
    · exact (hu.dropVoice v).tellFree
    · exact hu
  -- Seats.
  case missedReply box =>
    simp only [exec, execMissedReply] at he
    refine ofEvent (fun u hu => ?_) he h
    split
    · exact hu.missReply box
    · exact hu
  case pollReply r =>
    simp only [exec, execPollReply] at he
    refine ofEvent (fun u hu => ?_) he h
    split
    · exact hu.takeReply r
    · exact hu
  case setSeat tag seat f =>
    simp only [exec, execSetSeat] at he
    refine ofCommand (fun u hu => ?_) he h
    split
    · exact hu.reply _ _ _ _
    · split
      · exact hu.reply _ _ _ _
      · split
        · exact hu.reply _ _ _ _
        · exact (hu.seatsTaken _).reply _ _ _ _
  case seatApply tag f =>
    simp only [exec, execSeatApply] at he
    refine ofCommand (fun u hu => ?_) he h
    split
    · exact hu.reply _ _ _ _
    · split
      · exact hu.reply _ _ _ _
      · exact (hu.seatsTaken _).reply _ _ _ _
  -- Pulses, fixes, modes and cues: the advance rule and the jump rules.
  case odometerPulse => exact ofEvent (fun u hu => hu.pulse _) he h
  case speedWindow =>
    simp only [exec, execSpeedWindow] at he
    refine ofEvent (fun u hu => ?_) he h
    split
    · exact hu.endWindow
    · exact hu
  case fixHard =>
    simp only [exec, execFixHard] at he
    refine ofCommand (fun u hu => ?_) he h
    split
    · exact hu.reply _ _ _ _
    · exact (hu.reply _ _ _ _).hardFix _
  case detourEnd =>
    simp only [exec, execDetourEnd] at he
    refine ofCommand (fun u hu => ?_) he h
    split
    · exact advance (hu.reads rfl rfl)
    · exact hu.reply _ _ _ _
  case forceCue =>
    simp only [exec, execForceCue] at he
    refine ofCommand (fun u hu => ?_) he h
    split
    · exact hu.reply _ _ _ _
    · split
      · exact hu.reply _ _ _ _
      · split
        · exact (hu.reply _ _ _ _).fireCue _ _
        · exact hu.reply _ _ _ _
  case enterService tag =>
    simp only [exec, execEnterService] at he
    refine ofCommand (fun u hu => ?_) he h
    split
    · exact hu.reply _ _ _ _
    · split
      · exact stopCommentary (hu.reads rfl rfl)
      · exact hu.reply _ _ _ _
  case leaveService =>
    simp only [exec, execLeaveService] at he
    refine ofCommand (fun u hu => ?_) he h
    split
    · exact hu.reply _ _ _ _
    · split
      · exact hu.reply _ _ _ _
      · exact (hu.reply _ _ _ _).enterRun
  case directoryPageArrival =>
    simp only [exec, execDirectoryPageArrival] at he
    refine ofEvent (fun u hu => ?_) he h
    split
    · exact hu
    · split
      · exact directoryPage (hu.speech ((portDone_speech _).trans (readPage_speech _ _ _))) _ _ _
      · exact hu
  -- Routes, settings and zones.
  case selectRoute tag route =>
    simp only [exec, execSelectRoute] at he
    refine ofCommand (fun u hu => ?_) he h
    split
    · exact hu.reply _ _ _ _
    · split
      · exact (hu.reply _ _ _ _).routeChange
      · split
        · exact hu.reply _ _ _ _
        · exact (hu.reply _ _ _ _).routeChange.beginLoad _ _
  case routePageArrival failed =>
    simp only [exec, execRoutePageArrival] at he
    refine ofEvent (fun u hu => ?_) he h
    split
    · next page serial index _ =>
      have read : AnnInv (u.readRoutePage page failed).2.portDone :=
        hu.speech ((portDone_speech _).trans (readRoutePage_speech u page failed))
      exact read.routePage _ _ _ _
    · exact hu
  case setSetting tag id value =>
    simp only [exec, execSetSetting] at he
    refine ofCommand (fun u hu => ?_) he h
    split
    · exact hu.reply _ _ _ _
    · split
      · exact hu.reply _ _ _ _
      · split
        · exact hu.reply _ _ _ _
        · next g _ =>
          have written : AnnInv { u with settings := g } := hu.reads rfl rfl
          exact (written.settingWritten id).reply _ _ _ _
  case setZone tag zone gain commentary =>
    simp only [exec, execSetZone] at he
    refine ofCommand (fun u hu => ?_) he h
    split
    · exact hu.reply _ _ _ _
    · have zoned : ∀ m : Mixer, AnnInv { u with mixer := m } := fun _ => hu.reads rfl rfl
      exact (zoned _).deriveNeed.reply _ _ _ _
  -- The receiver and the transmitter.
  case lineErrorByte | frameTimeout | badKind =>
    simp only [exec, execLineErrorByte, execFrameTimeout, execBadKind] at he
    cases he
    split
    · exact h.reads rfl rfl
    · exact h
  case linkByte =>
    simp only [exec, execLinkByte] at he
    cases he
    split
    · exact closed.kick (h.receive _)
    · split
      · exact h.wakeInput _
      · exact h
  case frameSent =>
    simp only [exec, execFrameSent] at he
    cases he
    split
    · exact h
    · split
      · exact beginStartUp _ _ _
      · exact h.reads rfl rfl
    · exact h.reads rfl rfl
  -- Start-ups and the input lines.
  case powerOn => cases he; exact beginStartUp _ _ _
  case startupPageArrival =>
    simp only [exec, execStartupPageArrival] at he
    cases he
    split
    · exact h.loadArrives _
    · exact h
  case pttPress =>
    simp only [exec, execPttPress] at he
    cases he
    split
    · exact h
    · have woken := AnnInv.wakeInput (s := { s with power := { s.power with pttLine := true } }) (h.reads rfl rfl) .ptt
      split
      · exact woken.livePress.endEvent
      · exact woken
  case pttRelease =>
    simp only [exec, execPttRelease] at he
    cases he
    split
    · have released : AnnInv { s with power := { s.power with pttLine := false } } := h.reads rfl rfl
      split
      · exact released.liveRelease.endEvent
      · exact released
    · exact h
  case ignitionRise =>
    simp only [exec, execIgnitionRise] at he
    cases he
    split
    · exact h
    · have woken := AnnInv.wakeInput (s := { s with power := { s.power with ignition := true, offTimer := none } })
        (h.reads rfl rfl) .ignition
      split
      · exact woken.endEvent
      · exact woken
  case ignitionFall =>
    simp only [exec, execIgnitionFall] at he
    cases he
    split
    · split <;> exact h.reads rfl rfl
    · exact h
  case entryPhaseEnd =>
    simp only [exec, execEntryPhaseEnd] at he
    cases he
    split
    · split
      · exact enterStandby _
      · exact h.reads rfl rfl
    · exact h
  -- Writes done.
  case pageProgramComplete | sectorEraseComplete | lockProgramComplete | lockEraseComplete | settingsSaved =>
    simp only [exec, execPageProgramComplete, execSectorEraseComplete, execLockProgramComplete, execLockEraseComplete,
      execSettingsSaved] at he
    cases he
    split
    · split
      · exact h.writeDone fun _ => rfl
      · exact h
    · exact h

end AnnInv
end Sys2Proof.Machine
end

section
/-! OBLIGATION. The bounds of the announcement engine and the condition of suspension. -/

namespace Sys2Proof.Machine

/-- Settles O39: the segments in the streams are followed through commentary by `Spoken`, the entries through the announcement
engine by `Announced` and `Plays`, and every command keeps both by `AnnInv.ofExec`. -/
theorem announcementsStayBounded : Obligations.AnnouncementsStayBounded :=
  AnnInv.closed.kept (fun _ h => h.reads rfl rfl) fun _ _ _ h he => h.ofExec he

end Sys2Proof.Machine
end

section
/-! SUPPORT. The requests and the voices through the end of a delay and of a segment (R67, R71). -/

namespace Sys2Proof.Machine

/-- What an event leaves alone whose engines alone act. -/
theorem Engines.event_keeps {s t : State} (h : Engines s t) :
    t.endEvent.tracker = s.tracker ∧ t.endEvent.settings = s.settings ∧ t.endEvent.store.cells = s.store.cells ∧
      t.endEvent.power = s.power := by
  have frame := endEvent_frame t
  have acts := Acts.ofEngines h
  exact ⟨frame.tracker.trans acts.tracker, frame.settings.trans acts.settings,
    frame.cells.trans (congrArg Store.cells acts.store), frame.power.trans acts.power⟩

theorem freeVoice_congr {s t : State} (h : t.voices.voices = s.voices.voices) : t.freeVoice = s.freeVoice := by
  unfold State.freeVoice
  rw [h]

section
variable (s : State) (i : Fin 12)

theorem beginFiring_voices (firing : Nat) : (s.beginFiring firing).voices = s.voices := by
  unfold State.beginFiring
  split
  · rfl
  · split <;> rfl

theorem askVoice_table (r : Requester) : (s.askVoice r).voices.voices = s.voices.voices := by
  unfold State.askVoice
  split <;> rfl

theorem beginFiring_stream (firing : Nat) (j : Fin 12) : (s.beginFiring firing).stream j = s.stream j := by
  rw [(beginFiring_step s j firing).stream, if_pos rfl]
  rfl

theorem endDelay_table : (s.endDelay i).voices.voices = s.voices.voices := by
  unfold State.endDelay
  split
  · rfl
  · next g _ =>
    dsimp only
    split
    · exact (askVoice_table _ _).trans (congrArg _ (beginFiring_voices s g.firing))
    · exact congrArg _ (beginFiring_voices s g.firing)

/-- Without demand nobody asks for a voice. -/
theorem endDelay_quiet (hd : (s.stream i).demand = false) : (s.endDelay i).voices = s.voices := by
  unfold State.endDelay
  split
  · rfl
  · next g _ =>
    simp only [beginFiring_stream, hd, Bool.false_eq_true, if_false]
    exact beginFiring_voices s g.firing

theorem makeCurrent_table (g : Segment) : (s.makeCurrent i g).voices.voices = s.voices.voices := by
  unfold State.makeCurrent
  dsimp only
  split
  · exact endDelay_table _ _
  · rfl

theorem makeCurrent_quiet (g : Segment) (h : reached s.clock g.start = true → (s.stream i).demand = false) :
    (s.makeCurrent i g).voices = s.voices := by
  unfold State.makeCurrent
  dsimp only
  split
  · next now =>
    refine endDelay_quiet _ i ?_
    rw [stream_setStream, if_pos rfl]
    exact h now
  · rfl

/-! ### The end of a segment (R71) -/

/-- Stream `i` without its segment, which its firing has lost, and without a request. -/
def State.vacate (firing : Nat) : State := ((s.withdraw (.stream i)).setStream i (·.emptied .quiet)).loseSegment firing

theorem vacate_voices (firing : Nat) :
    (s.vacate i firing).voices = { s.voices with requests := s.voices.requests.filter (· ≠ .stream i) } :=
  loseSegment_voices _ firing

theorem vacate_stream (firing : Nat) : (s.vacate i firing).stream i = (s.stream i).emptied .quiet := by
  refine ((loseSegment_step _ i firing).stream i).trans ?_
  rw [if_pos rfl, id, stream_setStream, if_pos rfl]
  rfl

theorem vacate_clock (firing : Nat) : (s.vacate i firing).clock = s.clock := by
  obtain ⟨_, _, h⟩ := loseSegment_eq ((s.withdraw (.stream i)).setStream i (·.emptied .quiet)) firing
  rw [State.vacate, h]
  rfl

/-- A next segment with the start it has once it becomes current (R71). -/
def Segment.begun (h : Segment) (now : Clock) : Segment := { h with start := later h.start now }

theorem finishSegment_last {g : Segment} (hc : (s.stream i).current = some g) (hn : (s.stream i).next = none) :
    s.finishSegment i = (s.vacate i g.firing).settleEngine := by
  unfold State.finishSegment
  simp only [hc, hn]
  rfl

theorem finishSegment_next {g h : Segment} (hc : (s.stream i).current = some g) (hn : (s.stream i).next = some h) :
    s.finishSegment i = ((s.vacate i g.firing).makeCurrent i (h.begun s.clock)).settleEngine := by
  rw [← vacate_clock s i g.firing]
  unfold State.finishSegment
  simp only [hc, hn]
  rfl

/-- The next segment is given to the vacated stream. -/
theorem finishSegment_given {g h : Segment} (hc : (s.stream i).current = some g) (hn : (s.stream i).next = some h) :
    (s.finishSegment i).stream i = ((s.stream i).emptied .quiet).given s.clock (h.begun s.clock) := by
  have empty : ((s.vacate i g.firing).stream i).current = none := by rw [vacate_stream]; rfl
  rw [finishSegment_next s i hc hn, settleEngine_stream, (makeCurrent_step _ i _ empty).stream, if_pos rfl, vacate_stream,
    vacate_clock]

theorem finishSegment_table {g : Segment} (hc : (s.stream i).current = some g) :
    (s.finishSegment i).voices.voices = s.voices.voices := by
  cases hn : (s.stream i).next with
  | none => rw [finishSegment_last s i hc hn, settleEngine_voices, vacate_voices]
  | some h => rw [finishSegment_next s i hc hn, settleEngine_voices, makeCurrent_table, vacate_voices]

/-- A next segment that still waits, or whose stream has no demand, asks for no voice. -/
theorem finishSegment_quiet {g h : Segment} (hc : (s.stream i).current = some g) (hn : (s.stream i).next = some h)
    (quiet : reached s.clock (later h.start s.clock) = true → (s.stream i).demand = false) :
    (s.finishSegment i).voices = { s.voices with requests := s.voices.requests.filter (· ≠ .stream i) } := by
  rw [finishSegment_next s i hc hn, settleEngine_voices, makeCurrent_quiet, vacate_voices]
  rw [vacate_clock, vacate_stream]
  exact quiet

theorem finishSegment_asks {g h : Segment} (hc : (s.stream i).current = some g) (hn : (s.stream i).next = some h)
    (now : reached s.clock (later h.start s.clock) = true) (hd : (s.stream i).demand = true) :
    .stream i ∈ (s.finishSegment i).voices.requests := by
  rw [finishSegment_next s i hc hn, settleEngine_voices]
  refine makeCurrent_asks _ i _ ?_ ?_
  · rw [vacate_clock]
    exact now
  · rw [vacate_stream]
    exact hd

end

theorem filter_ungranted {s : State} (i : Fin 12) (h : s.voices.requests = [] ∨ s.freeVoice = none) :
    s.voices.requests.filter (· ≠ .stream i) = [] ∨ s.freeVoice = none := by
  rcases h with h | h
  · exact .inl (by rw [h]; rfl)
  · exact .inr h

end Sys2Proof.Machine
end

section
/-! OBLIGATION. The ends of delays and of segments. -/

namespace Sys2Proof.Machine

theorem exec_streamDelayEnd {s : State} (i : Fin 12) (running : s.running = true) :
    exec (.streamDelayEnd i) s = .next (if s.delayDue i then s.endDelay i else s).endEvent := by
  simp only [exec, execStreamDelayEnd]
  rw [event_next _ _ running]

theorem exec_segmentTimeEnd {s : State} (i : Fin 12) (running : s.running = true) :
    exec (.segmentTimeEnd i) s = .next (if s.segmentDue i then s.finishSegment i else s).endEvent := by
  simp only [exec, execSegmentTimeEnd]
  rw [event_next _ _ running]

section
variable {s : State} {i : Fin 12} {g : Segment}

theorem delayDue_of (hs : (s.stream i).state = .delay) (hc : (s.stream i).current = some g)
    (due : reached s.clock g.start = true) : s.delayDue i = true := by
  simp [State.delayDue, hs, hc, due]

theorem segmentDue_of (hs : (s.stream i).state = .quiet ∨ (s.stream i).state = .waitVoice) (hc : (s.stream i).current = some g)
    (due : reached s.clock (g.start + BitVec.ofNat 32 (g.pages * 60)) = true) : s.segmentDue i = true := by
  rcases hs with hs | hs <;> simp [State.segmentDue, hs, hc, after, due]

/-- A delay that ends with demand while no voice is FREE leaves the stream waiting (R67). -/
theorem endDelay_waits (hc : (s.stream i).current = some g) (full : s.freeVoice = none) (demand : (s.stream i).demand = true) :
    ((s.endDelay i).endEvent.stream i).state = .waitVoice ∧ ((s.endDelay i).endEvent.stream i).current = some g ∧
      Requester.stream i ∈ (s.endDelay i).endEvent.voices.requests := by
  have ended := (endDelay_step s i hc).stream i
  rw [if_pos rfl] at ended
  obtain ⟨comm, -, voices, -⟩ := (endEvent_frame (s.endDelay i)).ungranted
    (.inr ((freeVoice_congr (endDelay_table s i)).trans full))
  rw [State.stream, comm, ← State.stream, ended, voices]
  exact ⟨if_pos demand, hc, endDelay_asks s i hc demand⟩

/-- One that ends without demand leaves it in virtual playback. -/
theorem endDelay_rests (hc : (s.stream i).current = some g) (idle : s.voices.requests = [])
    (demand : (s.stream i).demand = false) :
    ((s.endDelay i).endEvent.stream i).state = .quiet ∧ ((s.endDelay i).endEvent.stream i).current = some g ∧
      (s.endDelay i).endEvent.voices = s.voices := by
  have ended := (endDelay_step s i hc).stream i
  rw [if_pos rfl] at ended
  have quiet := endDelay_quiet s i demand
  obtain ⟨comm, -, voices, -⟩ := (endEvent_frame (s.endDelay i)).ungranted (.inl (by rw [quiet]; exact idle))
  rw [State.stream, comm, ← State.stream, ended, voices]
  exact ⟨if_neg (by rw [demand]; exact Bool.false_ne_true), hc, quiet⟩

/-- A segment that ends with none behind it leaves its stream empty (R71). -/
theorem finishSegment_empties (hc : (s.stream i).current = some g) (last : (s.stream i).next = none)
    (free : s.voices.requests = [] ∨ s.freeVoice = none) :
    (s.finishSegment i).endEvent.stream i = (s.stream i).emptied .quiet ∧
      (s.finishSegment i).endEvent.voices = { s.voices with requests := s.voices.requests.filter (· ≠ .stream i) } := by
  have emptied : (s.finishSegment i).stream i = (s.stream i).emptied .quiet := by
    rw [finishSegment_last s i hc last, settleEngine_stream, vacate_stream]
  have withdrawn : (s.finishSegment i).voices = { s.voices with requests := s.voices.requests.filter (· ≠ .stream i) } := by
    rw [finishSegment_last s i hc last, settleEngine_voices, vacate_voices]
  obtain ⟨comm, -, voices, -⟩ := (endEvent_frame (s.finishSegment i)).ungranted
    (by rw [withdrawn, freeVoice_congr (finishSegment_table s i hc)]; exact filter_ungranted i free)
  rw [State.stream, comm, ← State.stream]
  exact ⟨emptied, voices.trans withdrawn⟩

/-- A next segment that still waits, or has no demand, becomes current without a request. -/
theorem finishSegment_rests {h : Segment} (hc : (s.stream i).current = some g) (next : (s.stream i).next = some h)
    (free : s.voices.requests = [] ∨ s.freeVoice = none)
    (quiet : reached s.clock (later h.start s.clock) = true → (s.stream i).demand = false) :
    (s.finishSegment i).endEvent.stream i = ((s.stream i).emptied .quiet).given s.clock (h.begun s.clock) ∧
      Requester.stream i ∉ (s.finishSegment i).endEvent.voices.requests := by
  have withdrawn := finishSegment_quiet s i hc next quiet
  obtain ⟨comm, -, voices, -⟩ := (endEvent_frame (s.finishSegment i)).ungranted
    (by rw [withdrawn, freeVoice_congr (finishSegment_table s i hc)]; exact filter_ungranted i free)
  rw [State.stream, comm, voices, withdrawn]
  exact ⟨finishSegment_given s i hc next, by simp⟩

/-- One whose start has come asks for a voice under demand, and waits while none is FREE. -/
theorem finishSegment_waits {h : Segment} (hc : (s.stream i).current = some g) (next : (s.stream i).next = some h)
    (full : s.freeVoice = none) (now : reached s.clock (later h.start s.clock) = true) (demand : (s.stream i).demand = true) :
    (s.finishSegment i).endEvent.stream i = ((s.stream i).emptied .quiet).given s.clock (h.begun s.clock) ∧
      Requester.stream i ∈ (s.finishSegment i).endEvent.voices.requests := by
  obtain ⟨comm, -, voices, -⟩ := (endEvent_frame (s.finishSegment i)).ungranted
    (.inr ((freeVoice_congr (finishSegment_table s i hc)).trans full))
  rw [State.stream, comm, voices]
  exact ⟨finishSegment_given s i hc next, finishSegment_asks s i hc next now demand⟩

end

/-- Settles O33: a delay ends by `endDelay_waits` or `endDelay_rests`, a segment by `finishSegment_empties`, or its next one
becomes current by `finishSegment_rests` or `finishSegment_waits`. -/
theorem streamDelayAndTimeEnd : Obligations.StreamDelayAndTimeEnd := by
  intro i s running
  refine ⟨fun g hs hc due => ?_, fun g hs hc due free => ?_, fun early => ?_, fun early => ?_⟩
  · have acts := exec_streamDelayEnd i running
    rw [if_pos (delayDue_of hs hc due)] at acts
    obtain ⟨tracker, settings, cells, power⟩ := (endDelay_engines (.refl s) i).event_keeps
    exact ⟨_, acts, tracker, settings, cells, power, endDelay_waits hc, endDelay_rests hc⟩
  · have acts := exec_segmentTimeEnd i running
    rw [if_pos (segmentDue_of hs hc due)] at acts
    obtain ⟨tracker, settings, cells, power⟩ := (finishSegment_engines (.refl s) i).event_keeps
    refine ⟨_, acts, tracker, settings, cells, power, fun last => ?_, fun h next => ?_⟩
    · obtain ⟨stream, voices⟩ := finishSegment_empties hc last free
      rw [stream]
      exact ⟨rfl, rfl, rfl, voices⟩
    · have given := given_none (r := (s.stream i).emptied .quiet) rfl s.clock (h.begun s.clock)
      refine ⟨fun later => ?_, fun now demand => ?_, fun now demand full => ?_⟩
      · obtain ⟨stream, withdrawn⟩ := finishSegment_rests hc next free fun now => by rw [later] at now; cases now
        rw [stream, given]
        exact ⟨if_neg (by rw [show reached s.clock (h.begun s.clock).start = false from later]; exact Bool.false_ne_true),
          rfl, rfl, withdrawn⟩
      · obtain ⟨stream, withdrawn⟩ := finishSegment_rests hc next free fun _ => demand
        rw [stream, given]
        refine ⟨(if_pos now).trans (if_neg ?_), rfl, rfl, withdrawn⟩
        rw [show ((s.stream i).emptied .quiet).demand = false from demand]
        exact Bool.false_ne_true
      · obtain ⟨stream, asked⟩ := finishSegment_waits hc next full now demand
        rw [stream, given]
        exact ⟨(if_pos now).trans (if_pos demand), rfl, rfl, asked⟩
  · refine ⟨s.endEvent, ?_, endEvent_frame s⟩
    rw [exec_streamDelayEnd i running, if_neg (by simp [early])]
  · refine ⟨s.endEvent, ?_, endEvent_frame s⟩
    rw [exec_segmentTimeEnd i running, if_neg (by simp [early])]

end Sys2Proof.Machine
end

section
/-! SUPPORT. A suspension reads commentary, the clock and the travel alone (R72). -/

namespace Sys2Proof.Machine

/-- Commentary with a segment of a firing lost, the report of its end aside (R66). -/
def Commentary.lose (c : Commentary) (firing : Nat) : Commentary :=
  match c.cueList.find? fun f : Firing => f.id = firing with
  | none => c
  | some f =>
    if f.segments ≤ 1 then { c with cueList := c.cueList.filter fun f : Firing => f.id ≠ firing }
    else { c with cueList := c.cueList.map fun f : Firing => if f.id = firing then { f with segments := f.segments - 1 } else f }

theorem loseSegment_comm_eq (s : State) (firing : Nat) : (s.loseSegment firing).comm = s.comm.lose firing := by
  unfold State.loseSegment Commentary.lose
  cases s.comm.cueList.find? fun f : Firing => f.id = firing with
  | none => rfl
  | some f =>
    dsimp only
    split
    · split <;> rfl
    · rfl

/-- From equal commentary and equal clocks one stream's suspension leaves equal commentary and equal entries. -/
theorem suspendStream_congr {p q : State × List SuspendEntry} (comm : q.1.comm = p.1.comm) (clock : q.1.clock = p.1.clock)
    (entries : q.2 = p.2) (i : Fin 12) :
    (State.suspendStream q i).1.comm = (State.suspendStream p i).1.comm ∧
      (State.suspendStream q i).2 = (State.suspendStream p i).2 := by
  obtain ⟨s, es⟩ := p
  obtain ⟨t, fs⟩ := q
  have stream : t.stream i = s.stream i := by rw [State.stream, comm]; rfl
  have cleared : (t.clearStream i .quiet).comm = (s.clearStream i .quiet).comm := by
    have free : (t.letGo i).comm = (s.letGo i).comm := by
      rw [letGo_comm, letGo_comm]
      exact congrArg (fun c : Commentary => { c with streams := c.streams.modify i fun r => { r with voice := none } }) comm
    exact congrArg (fun c : Commentary =>
      { c with streams := c.streams.modify i fun r => { r with state := .quiet, current := none, next := none } }) free
  subst entries
  cases hc : (s.stream i).current with
  | none =>
    rw [suspendStream_none s i _ hc, suspendStream_none t i _ (by rw [stream]; exact hc)]
    exact ⟨comm, rfl⟩
  | some g =>
    unfold State.suspendStream
    dsimp only at clock ⊢
    rw [stream, clock, hc]
    dsimp only
    generalize (if (s.stream i).state = .delay then 0 else g.pageAt s.clock) = page
    split
    · exact ⟨cleared, rfl⟩
    · refine ⟨?_, rfl⟩
      rw [loseSegment_comm_eq, loseSegment_comm_eq]
      exact congrArg (Commentary.lose · g.firing) cleared

theorem suspendStreams_congr (l : List (Fin 12)) {p q : State × List SuspendEntry} (comm : q.1.comm = p.1.comm)
    (clock : q.1.clock = p.1.clock) (entries : q.2 = p.2) :
    (l.foldl State.suspendStream q).1.comm = (l.foldl State.suspendStream p).1.comm ∧
      (l.foldl State.suspendStream q).2 = (l.foldl State.suspendStream p).2 := by
  induction l generalizing p q with
  | nil => exact ⟨comm, entries⟩
  | cons i l ih =>
    obtain ⟨comm', entries'⟩ := suspendStream_congr comm clock entries i
    have clock' := ((suspendStream_shelved q i).clock.trans clock).trans (suspendStream_shelved p i).clock.symm
    exact ih comm' clock' entries'

theorem suspend_comm_congr {s t : State} (comm : t.comm = s.comm) (clock : t.clock = s.clock) (tracker : t.tracker = s.tracker) :
    t.suspend.comm = s.suspend.comm := by
  by_cases hs : s.comm.state = .suspended
  · rw [suspend_again hs, suspend_again (by rw [comm]; exact hs), comm]
  · obtain ⟨streams, entries⟩ := suspendStreams_congr allSlots (p := (s, [])) (q := (t, [])) comm clock rfl
    have travelled := (suspendStreams_shelved (List.nodup_finRange 12) (s, [])).tracker
    have travelled' := (suspendStreams_shelved (List.nodup_finRange 12) (t, [])).tracker
    unfold State.suspend
    rw [if_neg hs, if_neg (by rw [comm]; exact hs)]
    dsimp only [allSlots] at streams entries ⊢
    rw [streams, entries, travelled, travelled', tracker]

/-- A suspension asks for no voice. -/
theorem suspend_requests {s : State} (h : s.voices.requests = []) : s.suspend.voices.requests = [] := by
  by_cases hs : s.comm.state = .suspended
  · rwa [suspend_again hs]
  · obtain ⟨q, shelved, eq⟩ := suspend_eq hs
    rw [eq]
    refine List.eq_nil_iff_forall_not_mem.2 fun r hr => ?_
    have waited := (shelved.requests r hr).1
    rw [h] at waited
    cases waited

/-! ### The press that suspends (R90, R96) -/

/-- A LIVE entry that starts enters PLAYING and leaves commentary and the voices alone. -/
theorem startActive_live {s : State} {e : Entry} (ha : s.ann.active = some e) (hc : e.cls = .live) :
    s.startActive.comm = s.comm ∧ s.startActive.voices = s.voices ∧ s.startActive.ann.active.isSome = true := by
  have notice : e.cls ≠ .notice := by rw [hc]; decide
  unfold State.startActive State.soundNotice
  simp only [ha, if_pos hc, if_neg notice]
  refine ⟨rfl, rfl, ?_⟩
  show (s.setActive _).ann.active.isSome = true
  rw [setActive_ann, ha]
  rfl

/-- A LIVE entry that becomes active suspends commentary; it asks for no voice (R90). -/
theorem activate_live {s : State} {e : Entry} (hc : e.cls = .live) :
    (s.activate e).comm = s.suspend.comm ∧ (s.voices.requests = [] → (s.activate e).voices.requests = []) ∧
      (s.activate e).ann.active.isSome = true := by
  generalize hu : (s.setAnn fun a => { a with active := some { e with phase := .queued } }).handClass = u
  have notice : e.cls ≠ .notice := by rw [hc]; decide
  have comm : u.suspend.comm = s.suspend.comm := by subst hu; exact suspend_comm_congr rfl rfl rfl
  have requests : s.voices.requests = [] → u.suspend.voices.requests = [] := fun h => suspend_requests (by subst hu; exact h)
  have active : u.suspend.ann.active = some { e with phase := .queued } := by rw [suspend_ann]; subst hu; rfl
  unfold State.activate
  simp only [hu, if_neg notice]
  split
  · obtain ⟨comm', voices, isSome⟩ := startActive_live active hc
    exact ⟨comm'.trans comm, fun h => by rw [voices]; exact requests h, isSome⟩
  · exact ⟨comm, requests, by rw [active]; rfl⟩

/-- With nothing held a press makes its LIVE entry active, and commentary is suspended (R96). -/
theorem livePress_suspends {s : State} (ha : s.ann.active = none) (hq : s.ann.queue = []) (hs : s.ann.stack = [])
    (hr : s.voices.requests = []) : s.livePress.comm = s.suspend.comm ∧ s.livePress.voices.requests = [] := by
  generalize hu : s.setAnn (fun a => { a with pressed := true }) = u
  have ha' : u.ann.active = none := by subst hu; exact ha
  have hq' : u.ann.queue = [] := by subst hu; exact hq
  have hs' : u.ann.stack = [] := by subst hu; exact hs
  have held : u.ann.held = [] := by simp [Announcements.held, ha', hq', hs']
  have noLive : u.ann.liveHeld = false := by rw [Announcements.liveHeld, held]; rfl
  have noDuplicate : u.ann.duplicate u.liveEntry = none := by rw [Announcements.duplicate, held]; rfl
  have noneActive : u.ann.preempts u.liveEntry = false := by rw [Announcements.preempts, ha']
  have pressed : s.livePress = (u.joinQueue u.liveEntry).1 := by
    rw [← admitSilently_joins noDuplicate noneActive (by rw [hq']; decide)]
    unfold State.livePress
    simp only [hu, ha', noLive, Bool.false_eq_true, if_false]
  obtain ⟨a, -, -, joined⟩ := joinQueue_empty (e := u.liveEntry) ha' hq' hs'
  have live : (u.ann.only u.liveEntry).cls = .live := rfl
  have unexpired : u.expired u.liveEntry = false := rfl
  obtain ⟨comm, requests, active⟩ := activate_live (s := u.setAnn fun _ => a) live
  rw [pressed, joined, unexpired, if_neg Bool.false_ne_true,
    selectRounds_active 1 (Option.isSome_iff_ne_none.1 active)]
  refine ⟨comm.trans ?_, requests ?_⟩
  · subst hu
    exact suspend_comm_congr rfl rfl rfl
  · subst hu
    exact hr

end Sys2Proof.Machine
end

section
/-! SUPPORT. What a resumption leaves and reports (R66, R73, R74). -/

namespace Sys2Proof.Machine

/-- A report once in the queue stays in it. -/
theorem Engines.keeps {s t : State} (h : Engines s t) {r : Report} (hp : r.isPosition = false) (hr : r ∈ s.link.reports) :
    r ∈ t.link.reports := by
  obtain ⟨rs, link⟩ := h.link
  rw [link]
  exact foldl_report_keeps rs _ r hp hr

/-- Discarded segments change the cue list and the link alone. -/
theorem dropSegments_eq (s : State) (cause : DropCause) (segments : List Segment) :
    ∃ list link, s.dropSegments cause segments = { s with comm := { s.comm with cueList := list }, link := link } := by
  have told : ∀ (l : List Segment) (t : State), ∃ link,
      l.foldl (fun s g => s.commReport (.dropped cause) g.cue) t = { t with link := link } := by
    intro l
    induction l with
    | nil => exact fun t => ⟨t.link, rfl⟩
    | cons g l ih => exact fun t => ih (t.commReport (.dropped cause) g.cue)
  have lost : ∀ (l : List Segment) (t : State), ∃ list link,
      l.foldl (fun s g => s.loseSegment g.firing) t = { t with comm := { t.comm with cueList := list }, link := link } := by
    intro l
    induction l with
    | nil => exact fun t => ⟨t.comm.cueList, t.link, rfl⟩
    | cons g l ih =>
      intro t
      obtain ⟨list, link, h⟩ := loseSegment_eq t g.firing
      obtain ⟨list', link', h'⟩ := ih (t.loseSegment g.firing)
      refine ⟨list', link', h'.trans ?_⟩
      rw [h]
  obtain ⟨link, reported⟩ := told (firstOfEach segments) s
  obtain ⟨list, link', dropped⟩ := lost segments { s with link := link }
  refine ⟨list, link', ?_⟩
  unfold State.dropSegments
  rw [reported, dropped]

/-- The first segment is the first of its firing. -/
theorem firstOfEach_cons (g : Segment) (segments : List Segment) : ∃ rest, firstOfEach (g :: segments) = g :: rest := by
  have extends' : ∀ (l acc : List Segment), ∃ rest,
      l.foldl (fun acc g => if acc.any fun h : Segment => h.firing = g.firing then acc else acc ++ [g]) acc = acc ++ rest := by
    intro l
    induction l with
    | nil => exact fun acc => ⟨[], (List.append_nil acc).symm⟩
    | cons h l ih =>
      intro acc
      rw [List.foldl_cons]
      split
      · exact ih acc
      · obtain ⟨rest, hr⟩ := ih (acc ++ [h])
        exact ⟨h :: rest, by rw [hr, List.append_assoc]; rfl⟩
  exact extends' segments [g]

/-- With room in the queue the first discarded segment's firing is reported DROPPED. -/
theorem dropSegments_reports (s : State) (cause : DropCause) (g : Segment) (segments : List Segment)
    (room : s.link.reports.length < 16) :
    .commentaryEvent (.dropped cause) g.cue s.clock ∈ (s.dropSegments cause (g :: segments)).link.reports := by
  obtain ⟨rest, first⟩ := firstOfEach_cons g segments
  have told : .commentaryEvent (.dropped cause) g.cue s.clock ∈ (s.commReport (.dropped cause) g.cue).link.reports := by
    have queued := report_room s.link (.commentaryEvent (.dropped cause) g.cue s.clock) room
    rw [State.commReport, report_link, queued]
    exact List.mem_append_right _ (List.mem_singleton_self _)
  unfold State.dropSegments
  rw [first]
  refine Engines.keeps (.fold (f := fun s (g : Segment) => s.loseSegment g.firing)
    (fun t g => loseSegment_engines (.refl t) _) _ ?_) rfl told
  exact .fold (f := fun s (g : Segment) => s.commReport (.dropped cause) g.cue)
    (fun t g => commReport_engines (.refl t) _ _) rest (.refl _)

/-! ### The pending firing and the record -/

/-- What commentary has put by: the pending firing and the record of a suspension. -/
def State.putBy (s : State) : Option PendingFiring × Option SuspendRecord := (s.comm.pendingFiring, s.comm.suspend)

section
variable (s : State) (i : Fin 12)

theorem beginFiring_putBy (firing : Nat) : (s.beginFiring firing).putBy = s.putBy := by
  unfold State.beginFiring
  split
  · rfl
  · split <;> rfl

theorem loseSegment_putBy (firing : Nat) : (s.loseSegment firing).putBy = s.putBy := by
  obtain ⟨_, _, h⟩ := loseSegment_eq s firing
  rw [h]
  rfl

theorem askVoice_putBy (r : Requester) : (s.askVoice r).putBy = s.putBy := by
  rw [State.putBy, askVoice_comm]
  rfl

theorem settleEngine_putBy : s.settleEngine.putBy = s.putBy := by
  obtain ⟨_, h, -⟩ := settleEngine_comm s
  rw [h]
  rfl

theorem dropSegment_putBy (told : List Nat) (cause : DropCause) (g : Segment) :
    (s.dropSegment told cause g).1.putBy = s.putBy := by
  unfold State.dropSegment
  split <;> exact loseSegment_putBy _ _

theorem endDelay_putBy : (s.endDelay i).putBy = s.putBy := by
  unfold State.endDelay
  split
  · rfl
  · dsimp only
    split
    · exact (askVoice_putBy _ _).trans (beginFiring_putBy s _)
    · exact beginFiring_putBy s _

theorem makeCurrent_putBy (g : Segment) : (s.makeCurrent i g).putBy = s.putBy := by
  unfold State.makeCurrent
  dsimp only
  split
  · exact endDelay_putBy _ i
  · rfl

end

theorem foldPair_putBy {α β : Type} {f : State × β → α → State × β} (hf : ∀ p a, (f p a).1.putBy = p.1.putBy) (l : List α)
    (p : State × β) : (l.foldl f p).1.putBy = p.1.putBy := by
  induction l generalizing p with
  | nil => rfl
  | cons a l ih => exact (ih (f p a)).trans (hf p a)

theorem placeSegment_putBy (p : State × List Nat) (q : Fin 12 × Segment) : (State.placeSegment p q).1.putBy = p.1.putBy := by
  unfold State.placeSegment
  dsimp only
  split
  · exact makeCurrent_putBy _ _ _
  · split
    · rfl
    · exact dropSegment_putBy _ _ _ _

theorem restartEntry_putBy (p : State × List Nat) (e : SuspendEntry) : (State.restartEntry p e).1.putBy = p.1.putBy := by
  unfold State.restartEntry
  dsimp only
  split
  · split
    · exact (askVoice_putBy _ _).trans (beginFiring_putBy _ _)
    · exact beginFiring_putBy _ _
  · exact foldPair_putBy (f := fun (p : State × List Nat) g => p.1.dropSegment p.2 .disabled g)
      (fun p g => dropSegment_putBy _ _ _ _) _ _

theorem place_putBy (s : State) (cue mark : Nat) (fit : Option Nat) (set : ClipSet) :
    (s.place cue mark fit set).putBy = s.putBy := by
  unfold State.place
  dsimp only
  split
  · rfl
  · exact (settleEngine_putBy _).trans (foldPair_putBy placeSegment_putBy _ _)

/-! ### The state of the engine -/

theorem place_awake {s : State} (h : s.comm.state ≠ .suspended) (cue mark : Nat) (fit : Option Nat) (set : ClipSet) :
    (s.place cue mark fit set).comm.state ≠ .suspended := by
  unfold State.place
  dsimp only
  split
  · exact h
  · next _ =>
    generalize hu : ({ s with comm := _ } : State) = u
    obtain ⟨state, settled, suspended⟩ := settleEngine_comm ((s.formSegments s.comm.nextFiring cue mark fit set).foldl
      State.placeSegment (u, [])).1
    rw [settled]
    refine fun hs => h ?_
    rw [← (show u.comm.state = s.comm.state by subst hu; rfl), ← (placeSegments_others _ (u, [])).2.1]
    exact suspended.1 hs

theorem restartEntries_state (l : List SuspendEntry) (p : State × List Nat) :
    (l.foldl State.restartEntry p).1.comm.state = p.1.comm.state := by
  induction l generalizing p with
  | nil => rfl
  | cons e l ih =>
    refine (ih _).trans ?_
    cases enabled : p.1.seats.enabled.get e.slot with
    | true => exact (restartEntry_step p e enabled).engine
    | false => exact (restartEntry_disabled p e enabled 0).engine

/-- Outside SUSPENDED the engine runs exactly while a stream holds a segment (R61). -/
theorem settleEngine_state {s : State} (h : s.comm.state ≠ .suspended) :
    s.settleEngine.comm.state =
      if s.settleEngine.comm.streams.any (fun q : Stream => q.current.isSome) then .running else .idle := by
  unfold State.settleEngine
  rw [if_neg h]

/-- A dropped record, the pending firing placed in its stead. -/
def State.relieved (s : State) (cause : DropCause) : State :=
  s.awoken.dropSegments cause (s.record.entries.flatMap SuspendEntry.segments)

theorem placePending_settled {s : State} (h : s.comm.state ≠ .suspended) (hs : s.comm.suspend = none) :
    ∃ u : State, u.comm.state ≠ .suspended ∧ u.putBy = (none, none) ∧ s.placePending = u.settleEngine := by
  unfold State.placePending
  split
  · next hp => exact ⟨s, h, by rw [State.putBy, hp, hs], rfl⟩
  · next p hp =>
    refine ⟨_, place_awake (s := { s with comm := { s.comm with pendingFiring := none } }) h _ _ _ _, ?_, rfl⟩
    rw [place_putBy, State.putBy, hs]

/-- A resumption ends with nothing put by and the engine settled (R73 to R75). -/
theorem resume_settled {s : State} (h : s.comm.state = .suspended) :
    ∃ u : State, u.comm.state ≠ .suspended ∧ u.putBy = (none, none) ∧ s.resume = u.settleEngine := by
  have awake : s.awoken.comm.state ≠ .suspended := nofun
  have relieved : ∀ cause, ∃ u : State, u.comm.state ≠ .suspended ∧ u.putBy = (none, none) ∧
      (s.relieved cause).placePending = u.settleEngine := by
    intro cause
    obtain ⟨list, link, dropped⟩ := dropSegments_eq s.awoken cause (s.record.entries.flatMap SuspendEntry.segments)
    unfold State.relieved
    rw [dropped]
    exact placePending_settled awake rfl
  rw [resume_eq h]
  split
  · exact relieved .stale
  · split
    · exact relieved .replaced
    · next pending =>
      refine ⟨_, by rw [restartEntries_state]; exact awake, ?_, rfl⟩
      rw [foldPair_putBy restartEntry_putBy]
      simp only [Option.isSome_iff_ne_none, ne_eq, not_not] at pending
      rw [State.putBy]
      exact congrArg (fun p => (p, none)) pending

/-! ### The pending firing placed (R74) -/

theorem resume_relieved {s : State} (h : s.comm.state = .suspended)
    (hp : s.stale s.record = true ∨ s.comm.pendingFiring ≠ none) : ∃ cause, s.resume = (s.relieved cause).placePending := by
  rw [resume_eq h]
  split
  · exact ⟨.stale, rfl⟩
  · next fresh =>
    refine ⟨.replaced, if_pos ?_⟩
    exact Option.isSome_iff_ne_none.2 (hp.resolve_left fresh)

/-- The segment that the pending firing forms for a slot, with the resume as its firing time. -/
def State.pendingSegment (s : State) (p : PendingFiring) (i : Fin 12) : Option Segment :=
  if s.seats.enabled.get i = true then
    (p.clipSet.find? fun e : ClipSetEntry => decide (e.slot = i)).bind
      (s.formSegment s.comm.nextFiring p.cue p.mark s.fitResult)
  else none

theorem pendingSegment_eq_some {s : State} {p : PendingFiring} {i : Fin 12} {g : Segment} :
    s.pendingSegment p i = some g ↔ (i, g) ∈ s.formSegments s.comm.nextFiring p.cue p.mark s.fitResult p.clipSet := by
  rw [mem_formSegments, State.pendingSegment]
  split
  · next enabled => simp [enabled, Option.bind_eq_some_iff]
  · next disabled => simp [disabled]

/-- Placed in empty streams, each enabled slot's segment becomes its current one. -/
theorem resume_pending {s : State} {p : PendingFiring} (h : s.comm.state = .suspended) (hp : s.comm.pendingFiring = some p)
    (empty : ∀ j, (s.stream j).current = none) (i : Fin 12) :
    (s.pendingSegment p i = none → s.resume.stream i = s.stream i) ∧
      ∀ g, s.pendingSegment p i = some g →
        s.resume.stream i = (s.stream i).given s.clock g ∧
          (reached s.clock g.start = true → (s.stream i).demand = true → .stream i ∈ s.resume.voices.requests) := by
  obtain ⟨cause, resumed⟩ := resume_relieved h (.inr (by rw [hp]; nofun))
  obtain ⟨list, link, dropped⟩ := dropSegments_eq s.awoken cause (s.record.entries.flatMap SuspendEntry.segments)
  have pending : (s.relieved cause).comm.pendingFiring = some p := by unfold State.relieved; rw [dropped]; exact hp
  generalize hu : ({ s.relieved cause with comm := { (s.relieved cause).comm with pendingFiring := none } } : State) = u
  have placed : s.resume = (u.place p.cue p.mark u.fitResult p.clipSet).settleEngine := by
    rw [resumed]
    unfold State.placePending
    simp only [pending, hu]
  have stream : ∀ j, u.stream j = s.stream j := by subst hu; unfold State.relieved; rw [dropped]; exact fun _ => rfl
  have clock : u.clock = s.clock := by subst hu; unfold State.relieved; rw [dropped]; rfl
  have awake : u.comm.state ≠ .suspended := by subst hu; unfold State.relieved; rw [dropped]; nofun
  have formed : u.pendingSegment p i = s.pendingSegment p i := by subst hu; unfold State.relieved; rw [dropped]; rfl
  rw [placed, settleEngine_stream, settleEngine_voices]
  refine ⟨fun absent => ?_, fun g present => ?_⟩
  · rw [place_other, stream]
    intro g hg
    rw [← pendingSegment_eq_some, formed, absent] at hg
    cases hg
  · obtain ⟨-, given, asks⟩ := place_given awake (pendingSegment_eq_some.1 (formed.trans present))
    rw [given, stream, clock]
    rw [stream, clock] at asks
    exact ⟨rfl, asks (empty i)⟩

/-! ### The passages restarted (R75) -/

/-- What a resumption makes of the stream of a recorded passage. -/
def State.recalls (s : State) (e : SuspendEntry) (r : Stream) : Stream :=
  if s.seats.enabled.get e.slot = true then r.restarted s.clock s.settings.resumeRewind e else r

theorem restartEntry_recalls (p : State × List Nat) (e : SuspendEntry) :
    StreamStep p.1 (State.restartEntry p e).1 e.slot (p.1.recalls e) := by
  cases enabled : p.1.seats.enabled.get e.slot with
  | true =>
    rw [show p.1.recalls e = _ from funext fun r => if_pos enabled]
    exact restartEntry_step p e enabled
  | false =>
    rw [show p.1.recalls e = id from funext fun r => if_neg (by simp [enabled])]
    exact restartEntry_disabled p e enabled e.slot

theorem recalls_congr {s t : State} (h : Engines s t) (e : SuspendEntry) : t.recalls e = s.recalls e := by
  have acts := Acts.ofEngines h
  unfold State.recalls
  rw [acts.seats, acts.clock, acts.settings]

theorem restartEntries_others (l : List SuspendEntry) (p : State × List Nat) :
    (∀ i, (∀ e ∈ l, e.slot ≠ i) → (l.foldl State.restartEntry p).1.stream i = p.1.stream i) ∧
      ∀ r ∈ p.1.voices.requests, r ∈ (l.foldl State.restartEntry p).1.voices.requests := by
  induction l generalizing p with
  | nil => exact ⟨fun _ _ => rfl, fun _ => id⟩
  | cons e l ih =>
    have first := restartEntry_recalls p e
    obtain ⟨streams, requests⟩ := ih (State.restartEntry p e)
    refine ⟨fun i hi => ?_, fun r hr => requests r (first.requests r hr)⟩
    rw [List.foldl_cons, streams i fun q hq => hi q (List.mem_cons_of_mem _ hq), first.stream, if_neg (hi e List.mem_cons_self)]

/-- Passages of distinct slots are each restarted in their stream. -/
theorem restartEntries_recalls {l : List SuspendEntry} (distinct : (l.map SuspendEntry.slot).Nodup) (p : State × List Nat)
    {e : SuspendEntry} (h : e ∈ l) :
    (l.foldl State.restartEntry p).1.stream e.slot = p.1.recalls e (p.1.stream e.slot) ∧
      (p.1.seats.enabled.get e.slot = true → (p.1.stream e.slot).demand = true →
        .stream e.slot ∈ (l.foldl State.restartEntry p).1.voices.requests) := by
  induction l generalizing p with
  | nil => cases h
  | cons x l ih =>
    obtain ⟨fresh, distinct⟩ := List.nodup_cons.1 distinct
    have first := restartEntry_recalls p x
    have engines := restartEntry_engines p x
    rw [List.foldl_cons]
    rcases List.mem_cons.1 h with rfl | h
    · obtain ⟨streams, requests⟩ := restartEntries_others l (State.restartEntry p e)
      refine ⟨?_, fun enabled demand => requests _ (restartEntry_asks p e enabled demand)⟩
      rw [streams e.slot fun q hq hs => fresh (hs ▸ List.mem_map_of_mem hq), first.stream, if_pos rfl]
    · have other : (State.restartEntry p x).1.stream e.slot = p.1.stream e.slot := by
        rw [first.stream, if_neg fun hs : x.slot = e.slot => fresh (hs ▸ List.mem_map_of_mem h)]
      have later := ih distinct (State.restartEntry p x) h
      rwa [other, recalls_congr engines, (Acts.ofEngines engines).seats] at later

end Sys2Proof.Machine
end

section
/-! OBLIGATION. Suspension and resumption. -/

namespace Sys2Proof.Machine

/-- What a suspension leaves of one stream, of its request and of its voice. -/
theorem suspend_clears {s : State} (h : s.comm.state ≠ .suspended) (i : Fin 12) :
    ((s.stream i).current = none → s.suspend.stream i = s.stream i) ∧
      ((s.stream i).current ≠ none →
        s.suspend.stream i = { s.stream i with state := .quiet, current := none, next := none, voice := none } ∧
        Requester.stream i ∉ s.suspend.voices.requests ∧
        ∀ v, (s.stream i).voice = some v → s.suspend.voice v = (s.voice v).released) := by
  obtain ⟨q, shelved, suspended⟩ := suspend_eq h
  have listed : i ∈ allSlots := List.mem_finRange i
  rw [suspend_stream h]
  refine ⟨suspended_none, fun held => ⟨suspended_some held, ?_, fun v hv => ?_⟩⟩
  · rw [suspended]
    exact fun hr => (shelved.requests _ hr).2 i listed held rfl
  · rw [suspended]
    exact shelved.voice i listed v held hv

/-- A press with nothing held and no voice asked for (R96). -/
theorem pttPress_suspends {s : State} (awake : s.power.state = .awake) (line : s.power.pttLine = false)
    (active : s.ann.active = none) (queue : s.ann.queue = []) (stack : s.ann.stack = []) (requests : s.voices.requests = []) :
    ∃ t, exec .pttPress s = .next t ∧ t.comm = s.suspend.comm := by
  generalize hp : ({ s with power := { s.power with pttLine := true } } : State) = p
  have awake' : p.power.state = .awake := by subst hp; exact awake
  have running : p.running = true := by unfold State.running; rw [awake']
  have woken : p.wakeInput .ptt = p := by unfold State.wakeInput; rw [awake']
  obtain ⟨comm, idle⟩ : p.livePress.comm = p.suspend.comm ∧ p.livePress.voices.requests = [] := by
    subst hp
    exact livePress_suspends active queue stack requests
  refine ⟨p.livePress.endEvent, ?_, ?_⟩
  · simp only [exec, execPttPress, line, Bool.false_eq_true, if_false, hp, running, if_true, woken]
  · rw [((endEvent_frame p.livePress).ungranted (.inl idle)).1, comm]
    subst hp
    exact suspend_comm_congr rfl rfl rfl

/-- The first passage of a record that a resumption drops is reported, with the cause. -/
theorem resume_reports {s : State} {r : SuspendRecord} (h : s.comm.state = .suspended) (hr : s.comm.suspend = some r)
    {e : SuspendEntry} {es : List SuspendEntry} (he : r.entries = e :: es) (room : s.link.reports.length < 16) :
    (s.stale r = true → .commentaryEvent (.dropped .stale) e.segment.cue s.clock ∈ s.resume.link.reports) ∧
      (s.stale r = false → s.comm.pendingFiring ≠ none →
        .commentaryEvent (.dropped .replaced) e.segment.cue s.clock ∈ s.resume.link.reports) := by
  have record : s.record = r := by unfold State.record; rw [hr]; rfl
  have told : ∀ cause, .commentaryEvent (.dropped cause) e.segment.cue s.clock ∈
      (s.relieved cause).placePending.link.reports := by
    intro cause
    refine (placePending_engines (.refl (s.relieved cause))).keeps rfl ?_
    unfold State.relieved
    rw [record, he, List.flatMap_cons]
    exact dropSegments_reports s.awoken cause e.segment (e.next.toList ++ es.flatMap SuspendEntry.segments) room
  rw [resume_eq h, record]
  refine ⟨fun stale => ?_, fun fresh pending => ?_⟩
  · rw [if_pos stale, ← record]
    exact told .stale
  · rw [if_neg (by simp [fresh]), if_pos (Option.isSome_iff_ne_none.2 pending), ← record]
    exact told .replaced

/-- A stale record without a pending firing leaves the streams and the voices as they were. -/
theorem resume_stale {s : State} (h : s.comm.state = .suspended) (stale : s.stale s.record = true)
    (pending : s.comm.pendingFiring = none) : s.resume.comm.streams = s.comm.streams ∧ s.resume.voices = s.voices := by
  obtain ⟨list, link, dropped⟩ := dropSegments_eq s.awoken .stale (s.record.entries.flatMap SuspendEntry.segments)
  have settled : s.resume = (s.relieved .stale).settleEngine := by
    rw [resume_eq h, if_pos stale, State.relieved, dropped]
    unfold State.placePending
    simp only [show s.awoken.comm.pendingFiring = none from pending]
  obtain ⟨state, eq, -⟩ := settleEngine_comm (s.relieved .stale)
  rw [settled, eq, State.relieved, dropped]
  exact ⟨rfl, rfl⟩

/-- A record that is neither stale nor replaced is restarted passage by passage. -/
theorem resume_restarts {s : State} {r : SuspendRecord} (h : s.comm.state = .suspended) (hr : s.comm.suspend = some r)
    (pending : s.comm.pendingFiring = none) (fresh : s.stale r = false) (distinct : (r.entries.map SuspendEntry.slot).Nodup) :
    (∀ e ∈ r.entries, s.resume.stream e.slot = s.recalls e (s.stream e.slot) ∧
        (s.seats.enabled.get e.slot = true → (s.stream e.slot).demand = true → .stream e.slot ∈ s.resume.voices.requests)) ∧
      ∀ i, (∀ e ∈ r.entries, e.slot ≠ i) → s.resume.stream i = s.stream i := by
  have record : s.record = r := by unfold State.record; rw [hr]; rfl
  have restarted : s.resume = (r.entries.foldl State.restartEntry (s.awoken, [])).1.settleEngine := by
    rw [resume_eq h, record, if_neg (by simp [fresh]), if_neg (by simp [pending])]
  rw [restarted, settleEngine_voices]
  simp only [settleEngine_stream]
  exact ⟨fun e he => restartEntries_recalls distinct (s.awoken, []) he, (restartEntries_others r.entries (s.awoken, [])).1⟩

/-- Settles O34: a suspension clears the streams one after another by `suspend_eq`; a resumption ends settled by
`resume_settled`, and drops its record, places the pending firing or restarts the passages. -/
theorem suspendAndResume : Obligations.SuspendAndResume := by
  refine ⟨fun s => suspend_again, fun s => resume_awake, fun s h => ?_, fun s r h hr => ?_⟩
  · obtain ⟨q, shelved, suspended⟩ := suspend_eq h
    refine ⟨suspend_state s, ?_, ?_, suspend_clears h, pttPress_suspends⟩
    · rw [suspended]
      exact shelved.pending
    · rw [suspended]
      dsimp only
      rw [shelved.tracker, shelved.entries]
      rfl
  · have record : s.record = r := by unfold State.record; rw [hr]; rfl
    have isStale : s.stale r = true ↔ s.settings.resumeLimit < (s.tracker.travel - r.travel).toNat := decide_eq_true_iff
    obtain ⟨u, awake, putBy, resumed⟩ := resume_settled h
    obtain ⟨pendingGone, recordGone⟩ : s.resume.comm.pendingFiring = none ∧ s.resume.comm.suspend = none := by
      rw [← Prod.mk.injEq, ← putBy, ← settleEngine_putBy, ← resumed]
      rfl
    refine ⟨recordGone, pendingGone, ?_, fun e es he room => ?_, fun p i hp empty => ?_, fun pending stale => ?_,
      fun pending fresh distinct => ?_⟩
    · rw [resumed]
      exact settleEngine_state awake
    · obtain ⟨stale, replaced⟩ := resume_reports h hr he room
      exact ⟨fun hs => stale (isStale.2 hs), fun hs => replaced (Bool.eq_false_iff.2 fun stale => hs (isStale.1 stale))⟩
    · obtain ⟨absent, present⟩ := resume_pending h hp empty i
      refine ⟨absent, fun g hg => ?_⟩
      obtain ⟨given, asks⟩ := present g hg
      exact ⟨given.trans (given_none (empty i) _ g), asks⟩
    · exact resume_stale h (by rw [record]; exact isStale.2 stale) pending
    · obtain ⟨recalled, others⟩ := resume_restarts h hr pending
        (Bool.eq_false_iff.2 fun stale => fresh (isStale.1 stale)) distinct
      refine ⟨fun e he => ⟨fun enabled => ?_, fun disabled => ?_⟩, others⟩
      · obtain ⟨stream, asks⟩ := recalled e he
        exact ⟨stream.trans (if_pos enabled), asks enabled⟩
      · exact (recalled e he).1.trans (if_neg (by rw [disabled]; exact Bool.false_ne_true))

end Sys2Proof.Machine
end

section
/-! SUPPORT. The choices of the arbiter: the lowest FREE voice, the first requester (R116). -/

namespace Sys2Proof

theorem Table.lowest_eq_some {α : Type} {n : Nat} {t : Table α n} {p : α → Bool} {i : Fin n} :
    t.lowest p = some i ↔ p (t.get i) = true ∧ ∀ j, j < i → p (t.get j) = false := by
  unfold Table.lowest
  rw [List.find?_eq_some_iff_getElem]
  constructor
  · rintro ⟨holds, k, hk, at_k, before⟩
    obtain rfl : i.val = k := by rw [← at_k]; simp
    refine ⟨holds, fun j hj => ?_⟩
    simpa using before j.val hj
  · rintro ⟨holds, before⟩
    refine ⟨holds, i.val, by simp, by simp, fun j hj => ?_⟩
    simpa using before ⟨j, hj.trans i.isLt⟩ hj

end Sys2Proof

namespace Sys2Proof.Machine

theorem freeVoice_eq_some {s : State} {v : Fin 16} :
    s.freeVoice = some v ↔ (s.voice v).state = .free ∧ ∀ w, w < v → (s.voice w).state ≠ .free := by
  unfold State.freeVoice
  rw [Table.lowest_eq_some]
  simp only [decide_eq_true_eq, decide_eq_false_iff_not]
  rfl

theorem freeVoice_none {s : State} (h : ∀ w, (s.voice w).state ≠ .free) : s.freeVoice = none :=
  Option.eq_none_iff_forall_not_mem.2 fun v hv => h v (freeVoice_eq_some.1 hv).1

/-! ### Slots ordered by listeners -/

section
variable {counts : Table Nat 12} {i j : Fin 12}

theorem mem_insertByCount {l : List (Fin 12)} : j ∈ insertByCount counts i l ↔ j = i ∨ j ∈ l := by
  induction l with
  | nil => simp [insertByCount]
  | cons k l ih =>
    unfold insertByCount
    split
    · simp
    · simp only [List.mem_cons, ih]
      tauto

theorem mem_byListeners {l : List (Fin 12)} : j ∈ byListeners counts l ↔ j ∈ l := by
  induction l with
  | nil => exact Iff.rfl
  | cons k l ih =>
    refine mem_insertByCount.trans ?_
    rw [List.mem_cons]
    exact or_congr_right ih

/-- First comes the slot with the most listeners, the lowest among equal ones. -/
theorem head_byListeners {l : List (Fin 12)} (rising : l.Pairwise (· < ·)) (hi : i ∈ l)
    (best : ∀ j, j ≠ i → j ∈ l → counts.get j < counts.get i ∨ (counts.get j = counts.get i ∧ i < j)) :
    (byListeners counts l).head? = some i := by
  induction l with
  | nil => cases hi
  | cons k l ih =>
    obtain ⟨above, rising⟩ := List.pairwise_cons.1 rising
    rw [show byListeners counts (k :: l) = insertByCount counts k (byListeners counts l) from rfl]
    rcases List.mem_cons.1 hi with rfl | hi
    · have most : ∀ j ∈ byListeners counts l, counts.get j ≤ counts.get i := by
        intro j hj
        have hj := mem_byListeners.1 hj
        rcases best j (above j hj).ne' (List.mem_cons_of_mem _ hj) with less | ⟨equal, -⟩
        · exact less.le
        · exact equal.le
      revert most
      cases byListeners counts l with
      | nil => exact fun _ => rfl
      | cons j rest =>
        intro most
        unfold insertByCount
        rw [if_pos (most j List.mem_cons_self)]
        rfl
    · have other : k ≠ i := (above i hi).ne
      have head := ih rising hi fun j hne hj => best j hne (List.mem_cons_of_mem _ hj)
      obtain ⟨rest, listed⟩ := List.head?_eq_some_iff.1 head
      have fewer : ¬counts.get i ≤ counts.get k := by
        rcases best k other List.mem_cons_self with less | ⟨-, lower⟩
        · omega
        · exact absurd lower (above i hi).asymm
      rw [listed]
      unfold insertByCount
      rw [if_neg fewer]
      rfl

end

theorem firstRequest_announcement {s : State} (h : .announcement ∈ s.voices.requests) : s.firstRequest = some .announcement := by
  unfold State.firstRequest
  rw [if_pos (by simpa using h)]

theorem firstRequest_speaker {s : State} (ha : .announcement ∉ s.voices.requests)
    (h : .stream s.settings.speakerSlot ∈ s.voices.requests) : s.firstRequest = some (.stream s.settings.speakerSlot) := by
  unfold State.firstRequest firstStream
  rw [if_neg (by simpa using ha), if_pos (by simpa using h)]
  rfl

theorem firstRequest_listeners {s : State} {i : Fin 12} (ha : .announcement ∉ s.voices.requests)
    (hs : .stream s.settings.speakerSlot ∉ s.voices.requests) (hi : .stream i ∈ s.voices.requests)
    (best : ∀ j, j ≠ i → .stream j ∈ s.voices.requests →
      s.seats.counts.get j < s.seats.counts.get i ∨ (s.seats.counts.get j = s.seats.counts.get i ∧ i < j)) :
    s.firstRequest = some (.stream i) := by
  have rising : (allSlots.filter fun j => s.voices.requests.contains (.stream j)).Pairwise (· < ·) :=
    (List.pairwise_lt_finRange 12).filter _
  have waits : ∀ j, j ∈ (allSlots.filter fun j => s.voices.requests.contains (.stream j)) ↔ .stream j ∈ s.voices.requests := by
    intro j
    simp [allSlots]
  unfold State.firstRequest firstStream
  rw [if_neg (by simpa using ha), if_neg (by simpa using hs),
    head_byListeners rising ((waits i).2 hi) fun j hne hj => best j hne ((waits j).1 hj)]
  rfl

/-- The only request is the first. -/
theorem firstRequest_only {s : State} {i : Fin 12} (h : s.voices.requests = [.stream i]) : s.firstRequest = some (.stream i) := by
  have alone : .announcement ∉ s.voices.requests := by rw [h]; simp
  by_cases hs : i = s.settings.speakerSlot
  · rw [hs] at h ⊢
    exact firstRequest_speaker alone (by rw [h]; exact List.mem_singleton_self _)
  · refine firstRequest_listeners alone (by rw [h]; simpa using Ne.symm hs) (by rw [h]; exact List.mem_singleton_self _) ?_
    intro j hne hj
    rw [h] at hj
    simp only [List.mem_singleton, Requester.stream.injEq] at hj
    exact absurd hj hne

end Sys2Proof.Machine
end

section
/-! SUPPORT. One voice read from, started and granted (R106, R107, R108). -/

namespace Sys2Proof.Machine

theorem voice_setVoice (s : State) (v w : Fin 16) (f : Voice → Voice) :
    (s.setVoice v f).voice w = if v = w then f (s.voice w) else s.voice w := Table.get_modify _ _ _ _

theorem voice_setVoice_self (s : State) (v : Fin 16) (f : Voice → Voice) : (s.setVoice v f).voice v = f (s.voice v) := by
  rw [voice_setVoice, if_pos rfl]

theorem voice_setVoice_other (s : State) {v w : Fin 16} (h : w ≠ v) (f : Voice → Voice) :
    (s.setVoice v f).voice w = s.voice w := by
  rw [voice_setVoice, if_neg h.symm]

/-- What a posted read changes of its voice. -/
theorem topUp_voice (s : State) (v : Fin 16) :
    ∃ outstanding nextFetch, (s.topUp v).voice v = { s.voice v with outstanding := outstanding, nextFetch := nextFetch } := by
  unfold State.topUp
  dsimp only
  split
  · exact ⟨_, _, voice_setVoice_self s v _⟩
  · exact ⟨_, _, rfl⟩

theorem topUp_other (s : State) {v w : Fin 16} (h : w ≠ v) : (s.topUp v).voice w = s.voice w := by
  unfold State.topUp
  dsimp only
  split
  · exact voice_setVoice_other s h _
  · rfl

theorem topUp_engine (s : State) (v : Fin 16) :
    (s.topUp v).voices = { s.voices with voices := (s.topUp v).voices.voices } := by
  unfold State.topUp
  dsimp only
  split <;> rfl

/-- From `s` to `t` voice `v` has begun a clip at a page, for the owner it had; nothing else of the voices has changed. -/
structure Begun (s t : State) (v : Fin 16) (clip page : Nat) : Prop where
  owner : (t.voice v).owner = (s.voice v).owner
  clip : (t.voice v).clip = some clip
  startPage : (t.voice v).startPage = page
  active : (t.voice v).state = .priming ∨ (t.voice v).state = .playing
  others : ∀ w, w ≠ v → t.voice w = s.voice w
  requests : t.voices.requests = s.voices.requests

theorem Begun.topUp {s t : State} {v : Fin 16} {clip page : Nat} (h : Begun s t v clip page) :
    Begun s (t.topUp v) v clip page := by
  obtain ⟨_, _, voice⟩ := topUp_voice t v
  exact {
    owner := by rw [voice]; exact h.owner
    clip := by rw [voice]; exact h.clip
    startPage := by rw [voice]; exact h.startPage
    active := by rw [voice]; exact h.active
    others := fun w hw => (topUp_other t hw).trans (h.others w hw)
    requests := by rw [topUp_engine]; exact h.requests }

/-- A lookup that finds the clip, and the page in it, begins it (R106). -/
theorem lookUp_begins {s : State} {clip page : Nat} {e : ClipEntry} (v : Fin 16) (hc : s.clip clip = some e)
    (hp : page < e.count) : (s.lookUp v clip page).2 = .started ∧ Begun s (s.lookUp v clip page).1 v clip page := by
  unfold State.lookUp
  simp only [hc, if_neg (Nat.not_le.2 hp)]
  generalize (if page = 0 then State.residentPages _ clip else none) = pages
  cases pages with
  | none =>
    refine ⟨rfl, Begun.topUp ⟨?_, ?_, ?_, ?_, fun w hw => ?_, rfl⟩⟩
    case refine_5 => simp only [voice_setVoice_other _ hw]
    all_goals simp only [voice_setVoice_self, true_or]
  | some pages =>
    refine ⟨rfl, Begun.topUp ⟨?_, ?_, ?_, ?_, fun w hw => ?_, rfl⟩⟩
    case refine_5 => simp only [voice_setVoice_other _ hw]
    all_goals simp only [voice_setVoice_self, or_true]

/-- A start outside a reload begins its clip for its new owner. -/
theorem startVoice_begins {s : State} {clip page : Nat} {e : ClipEntry} (v : Fin 16) (owner : Owner) (cls : AnnClass)
    (hr : s.store.reload = none) (hc : s.clip clip = some e) (hp : page < e.count) :
    (s.startVoice v owner cls clip page).2 = .started ∧
      ((s.startVoice v owner cls clip page).1.voice v).owner = some owner ∧
      ((s.startVoice v owner cls clip page).1.voice v).clip = some clip ∧
      ((s.startVoice v owner cls clip page).1.voice v).startPage = page ∧
      (((s.startVoice v owner cls clip page).1.voice v).state = .priming ∨
        ((s.startVoice v owner cls clip page).1.voice v).state = .playing) ∧
      (∀ w, w ≠ v → (s.startVoice v owner cls clip page).1.voice w = s.voice w) ∧
      (s.startVoice v owner cls clip page).1.voices.requests = s.voices.requests := by
  generalize ho : s.setVoice v (fun r => { r with owner := some owner, serial := r.serial + 1 }) = o
  generalize hu : ({ o with mixer := { o.mixer with
    destinations := o.mixer.destinations.set v (some (startDestination owner cls o.settings.speakerSlot)) } } : State) = u
  have started : s.startVoice v owner cls clip page = u.lookUp v clip page := by
    subst hu ho
    unfold State.startVoice
    simp only [setVoice_store, hr]
  obtain ⟨outcome, begun⟩ := lookUp_begins v (show u.clip clip = some e by subst hu ho; exact hc) hp
  rw [started]
  refine ⟨outcome, begun.owner.trans ?_, begun.clip, begun.startPage, begun.active, fun w hw => (begun.others w hw).trans ?_,
    begun.requests.trans ?_⟩
  · subst hu ho
    exact congrArg Voice.owner (voice_setVoice_self s v _)
  · subst hu ho
    exact voice_setVoice_other s hw _
  · subst hu ho
    rfl

/-- The stream plays its segment on voice `v`, from the page that the time since its start gives; every other stream and voice
is as it was. -/
structure PlaysOn (s t : State) (i : Fin 12) (v : Fin 16) (g : Segment) : Prop where
  stream : t.stream i = { s.stream i with state := .playing, voice := some v }
  owner : (t.voice v).owner = some (.stream i)
  clip : (t.voice v).clip = some g.clip
  startPage : (t.voice v).startPage = (s.clock - g.start).toNat / 60
  active : (t.voice v).state = .priming ∨ (t.voice v).state = .playing
  others : ∀ w, w ≠ v → t.voice w = s.voice w
  streams : ∀ j, j ≠ i → t.stream j = s.stream j

/-- A granted stream plays (R68). -/
theorem grantStream_plays {s : State} {i : Fin 12} {v : Fin 16} {g : Segment} {e : ClipEntry} (hc : (s.stream i).current = some g)
    (hr : s.store.reload = none) (he : s.clip g.clip = some e) (more : (s.clock - g.start).toNat / 60 < g.pages)
    (hp : (s.clock - g.start).toNat / 60 < e.count) :
    PlaysOn s (s.grantStream i v) i v g ∧ (s.grantStream i v).voices.requests = s.voices.requests := by
  obtain ⟨outcome, owner, clip, startPage, active, others, requests⟩ := startVoice_begins v (.stream i) .notice hr he hp
  have comm := (startVoice_blocks s v (.stream i) .notice g.clip (g.pageAt s.clock)).2
  change (s.startVoice v (.stream i) .notice g.clip (g.pageAt s.clock)).2 = .started at outcome
  have granted : s.grantStream i v =
      (s.startVoice v (.stream i) .notice g.clip (g.pageAt s.clock)).1.setStream i fun r =>
        { r with state := .playing, voice := some v } := by
    unfold State.grantStream
    simp only [hc, if_pos (show g.pageAt s.clock < g.pages from more)]
    revert outcome
    generalize s.startVoice v (.stream i) .notice g.clip (g.pageAt s.clock) = p
    obtain ⟨u, o⟩ := p
    rintro rfl
    rfl
  have stream : ∀ j, (s.grantStream i v).stream j =
      if i = j then { s.stream j with state := .playing, voice := some v } else s.stream j := by
    intro j
    rw [granted, stream_setStream, State.stream, comm]
    rfl
  refine ⟨⟨(stream i).trans (if_pos rfl), ?_, ?_, ?_, ?_, ?_, fun j hj => (stream j).trans (if_neg hj.symm)⟩, ?_⟩ <;> rw [granted]
  · exact owner
  · exact clip
  · exact startPage
  · exact active
  · exact others
  · exact requests

/-! ### The end of the arbitration -/

/-- While a voice is not FREE the announcement engine starts nothing on being told. -/
theorem tellFree_busy {s : State} {v : Fin 16} (h : (s.voice v).state ≠ .free) : s.tellFree = s := by
  have busy : s.allFree ≠ true := fun all => h (of_decide_eq_true ((Table.all_iff _ _).1 all v))
  unfold State.tellFree
  split
  · rfl
  · exact if_neg fun ⟨_, _, all⟩ => busy all

theorem grants_full (n : Nat) {s : State} (h : s.freeVoice = none) : State.grants n s = s := by
  cases n with
  | zero => rfl
  | succ n => rw [State.grants, h]

/-- The last FREE voice granted to a stream ends the arbitration. -/
theorem arbitrate_stream {s : State} {i : Fin 12} {v : Fin 16} {g : Segment} {e : ClipEntry} (free : s.freeVoice = some v)
    (busy : ∀ w, w ≠ v → (s.voice w).state ≠ .free) (first : s.firstRequest = some (.stream i))
    (hc : (s.stream i).current = some g) (hr : s.store.reload = none) (he : s.clip g.clip = some e)
    (more : (s.clock - g.start).toNat / 60 < g.pages) (hp : (s.clock - g.start).toNat / 60 < e.count) :
    PlaysOn s s.arbitrate i v g ∧ s.arbitrate.voices.requests = s.voices.requests.filter (· ≠ .stream i) := by
  generalize hu : s.withdraw (.stream i) = u
  have stream : ∀ j, u.stream j = s.stream j := by subst hu; exact fun _ => rfl
  have voice : ∀ w, u.voice w = s.voice w := by subst hu; exact fun _ => rfl
  have clock : u.clock = s.clock := by subst hu; rfl
  obtain ⟨plays, requests⟩ := grantStream_plays (s := u) (v := v) (by rw [stream]; exact hc) (by subst hu; exact hr)
    (by subst hu; exact he) (by rw [clock]; exact more) (by rw [clock]; exact hp)
  have taken : ∀ w, ((u.grantStream i v).voice w).state ≠ .free := by
    intro w
    by_cases hw : w = v
    · subst hw
      rcases plays.active with active | active <;> rw [active] <;> decide
    · rw [plays.others w hw, voice]
      exact busy w hw
  have ended : s.arbitrate = u.grantStream i v := by
    unfold State.arbitrate
    rw [show grantLimit = 99 + 1 from rfl, State.grants, free, first]
    dsimp only
    rw [hu, tellFree_busy (taken v), grants_full 99 (freeVoice_none taken)]
  rw [ended]
  refine ⟨⟨?_, plays.owner, plays.clip, ?_, plays.active, fun w hw => ?_, fun j hj => ?_⟩, ?_⟩
  · rw [plays.stream, stream]
  · rw [plays.startPage, clock]
  · rw [plays.others w hw, voice]
  · rw [plays.streams j hj, stream]
  · rw [requests]
    subst hu
    rfl

/-- With no other request waiting, a delay that ends with demand leaves the stream's request alone. -/
theorem endDelay_asks_alone {s : State} {i : Fin 12} {g : Segment} (hc : (s.stream i).current = some g)
    (hd : (s.stream i).demand = true) (idle : s.voices.requests = []) : (s.endDelay i).voices.requests = [.stream i] := by
  unfold State.endDelay
  simp only [hc, beginFiring_stream, hd, if_true]
  unfold State.askVoice
  rw [setStream_voices, beginFiring_voices, idle]
  rfl

/-- After the arbitration the end of an event changes neither commentary nor the voices. -/
theorem endEvent_settles (s : State) : s.endEvent.comm = s.arbitrate.comm ∧ s.endEvent.voices = s.arbitrate.voices := by
  unfold State.endEvent
  generalize s.arbitrate = a
  obtain ⟨seats, published, -⟩ := publish_eq a
  obtain ⟨port, write, settled, -⟩ := settlePort_eq a.publish
  rw [kick_comm, kick_voices, settled, published]
  exact ⟨rfl, rfl⟩

end Sys2Proof.Machine
end

section
/-! OBLIGATION. The voice arbiter. -/

namespace Sys2Proof.Machine

/-- Settles O41: the choice by `freeVoice_eq_some` and the three lemmas of `firstRequest`, the grant by `arbitrate_stream`. -/
theorem voiceArbiterOrder : Obligations.VoiceArbiterOrder := by
  refine ⟨fun s => ⟨fun v => freeVoice_eq_some, firstRequest_announcement,
    fun ha => ⟨firstRequest_speaker ha, fun i hs hi best => firstRequest_listeners ha hs hi best⟩, arbitrate_none⟩, ?_⟩
  intro s i v g e free busy hc hr he more hp
  refine ⟨fun first => ?_, fun running idle hs demand due => ?_⟩
  · obtain ⟨plays, requests⟩ := arbitrate_stream free busy first hc hr he more hp
    exact ⟨⟨plays.stream, plays.owner, plays.clip, plays.startPage, plays.active, plays.others, plays.streams⟩, requests⟩
  · have ended := (endDelay_step s i hc).stream
    have voice : ∀ w, (s.endDelay i).voice w = s.voice w := fun w => by rw [State.voice, endDelay_table]; rfl
    have acts := Acts.ofEngines (endDelay_engines (.refl s) i)
    have asked := endDelay_asks_alone hc demand idle
    have first := firstRequest_only asked
    have current : ((s.endDelay i).stream i).current = some g := by rw [ended, if_pos rfl]; exact hc
    obtain ⟨plays, requests⟩ := arbitrate_stream ((freeVoice_congr (endDelay_table s i)).trans free)
      (fun w hw => by rw [voice]; exact busy w hw) first current (by rw [acts.store]; exact hr)
      (by rw [State.clip, acts.store]; exact he) (by rw [acts.clock]; exact more) (by rw [acts.clock]; exact hp)
    obtain ⟨comm, voices⟩ := endEvent_settles (s.endDelay i)
    refine ⟨(s.endDelay i).endEvent, ?_, ?_, ?_⟩
    · rw [exec_streamDelayEnd i running, if_pos (delayDue_of hs hc due)]
    · have stream : ∀ j, (s.endDelay i).endEvent.stream j = (s.endDelay i).arbitrate.stream j := fun j => by
        rw [State.stream, comm]; rfl
      have record : ∀ w, (s.endDelay i).endEvent.voice w = (s.endDelay i).arbitrate.voice w := fun w => by
        rw [State.voice, voices]; rfl
      dsimp only
      simp only [stream, record]
      refine ⟨?_, plays.owner, plays.clip, ?_, plays.active, fun w hw => ?_, fun j hj => ?_⟩
      · rw [plays.stream, ended, if_pos rfl]
      · rw [plays.startPage, acts.clock]
      · rw [plays.others w hw, voice]
      · rw [plays.streams j hj, ended, if_neg hj.symm]
    · rw [voices, requests, asked]
      simp

end Sys2Proof.Machine
end

section
/-! SUPPORT. A page arrives at its voice, a page is due, a voice ends (R108 to R113). -/

namespace Sys2Proof.Machine

/-! ### The check of a page (R112, R131) -/

section
variable {s : State} {page clip index : Nat} {data : Option (List Byte)} {quiet : Bool}

/-- A page fails when its sector is under erase and it is returned all the same, or when its check fails. -/
theorem clipPageFault_ne_none :
    s.clipPageFault page data clip index ≠ none ↔
      (data ≠ none ∧ s.store.erasing (page / 512) = true) ∨ readFault data clip index ≠ none := by
  have erased : (data.isSome && s.store.erasing (sectorOf page)) = true ↔ data ≠ none ∧ s.store.erasing (page / 512) = true := by
    rw [Bool.and_eq_true, Option.isSome_iff_ne_none]
    rfl
  unfold State.clipPageFault
  split
  · next h => simp [erased.1 h]
  · next h =>
    rw [erased] at h
    simp only [h, false_or]

theorem checkPage_passes (h : s.clipPageFault page data clip index = none) :
    s.checkPage page data clip index quiet = (.audio (data.getD []), s) := by
  unfold State.checkPage
  rw [h]

theorem checkPage_fails (h : s.clipPageFault page data clip index ≠ none) :
    (s.checkPage page data clip index quiet).1 = .silent ∧
      (s.checkPage page data clip index quiet).2.voices.integrity = min (s.voices.integrity + 1) 15 := by
  obtain ⟨kind, fault⟩ := Option.ne_none_iff_exists'.1 h
  unfold State.checkPage State.pageFailed
  rw [fault]
  dsimp only
  refine ⟨rfl, ?_⟩
  split
  · rfl
  · split <;> rfl

/-- A checked page leaves every voice, the requests and the clock alone. -/
theorem checkPage_voices :
    (s.checkPage page data clip index quiet).2.voices.voices = s.voices.voices ∧
      (s.checkPage page data clip index quiet).2.voices.requests = s.voices.requests ∧
      (s.checkPage page data clip index quiet).2.clock = s.clock := by
  obtain ⟨_, _, _, _, h⟩ := checkPage_state s page data clip index quiet
  rw [h]
  exact ⟨rfl, rfl, rfl⟩

end

/-! ### A page arrives (R108, R109) -/

/-- A voice with an arrived page in its queue, playing if that primes it. -/
def Voice.receives (r : Voice) (p : Page) (now : Clock) : Voice :=
  { r with queue := r.queue ++ [p], outstanding := false }.prime now

theorem receives_queue (r : Voice) (p : Page) (now : Clock) : (r.receives p now).queue = r.queue ++ [p] := by
  unfold Voice.receives Voice.prime
  split <;> rfl

theorem receives_playing {r : Voice} (h : r.state = .playing) (p : Page) (now : Clock) :
    (r.receives p now).state = .playing ∧ (r.receives p now).due = r.due := by
  unfold Voice.receives Voice.prime
  rw [if_neg (by simp [Voice.primed, h])]
  exact ⟨h, rfl⟩

theorem primed_iff {r : Voice} (h : r.state = .priming) (hw : r.waiting = none) (p : Page) :
    ({ r with queue := r.queue ++ [p], outstanding := false } : Voice).primed = true ↔
      2 ≤ r.queue.length + 1 ∨ (r.pageCount - r.startPage < 2 ∧ r.queue.length + 1 = r.pageCount - r.startPage) := by
  simp [Voice.primed, h, hw]

theorem receives_primed {r : Voice} (h : r.state = .priming) (hw : r.waiting = none) (p : Page) (now : Clock)
    (enough : 2 ≤ r.queue.length + 1 ∨ (r.pageCount - r.startPage < 2 ∧ r.queue.length + 1 = r.pageCount - r.startPage)) :
    (r.receives p now).state = .playing ∧ (r.receives p now).due = some now := by
  unfold Voice.receives Voice.prime
  rw [if_pos ((primed_iff h hw p).2 enough)]
  exact ⟨rfl, rfl⟩

theorem receives_priming {r : Voice} (h : r.state = .priming) (hw : r.waiting = none) (p : Page) (now : Clock)
    (few : ¬(2 ≤ r.queue.length + 1 ∨ (r.pageCount - r.startPage < 2 ∧ r.queue.length + 1 = r.pageCount - r.startPage))) :
    (r.receives p now).state = .priming := by
  unfold Voice.receives Voice.prime
  rw [if_neg fun primed => few ((primed_iff h hw p).1 primed)]
  exact h

/-- From `s` to `t` a page has joined the queue of voice `v`; the read that may follow changes no more of the voice. -/
structure Joined (s t : State) (v : Fin 16) (p : Page) : Prop where
  voice : ∃ outstanding nextFetch,
    t.voice v = { (s.voice v).receives p s.clock with outstanding := outstanding, nextFetch := nextFetch }
  others : ∀ w, w ≠ v → t.voice w = s.voice w
  requests : t.voices.requests = s.voices.requests

theorem voicePage_joins {s : State} {v : Fin 16} {serial clip : Nat} (index page : Nat) (data : Option (List Byte))
    (takes : (s.voice v).takesData serial = true) (hc : (s.voice v).clip = some clip) :
    Joined s (s.voicePage v serial index page data) v (s.checkPage page data clip index false).1 ∧
      (s.voicePage v serial index page data).voices.integrity = (s.checkPage page data clip index false).2.voices.integrity := by
  obtain ⟨table, requests, clock⟩ := checkPage_voices (s := s) (page := page) (data := data) (clip := clip) (index := index)
    (quiet := false)
  have joined : s.voicePage v serial index page data =
      ((s.checkPage page data clip index false).2.setVoice v
        (·.receives (s.checkPage page data clip index false).1 (s.checkPage page data clip index false).2.clock)).topUp v := by
    unfold State.voicePage
    simp only [takes, if_true, hc]
    rfl
  rw [joined]
  generalize (s.checkPage page data clip index false).1 = p
  revert table requests clock
  generalize (s.checkPage page data clip index false).2 = u
  intro table requests clock
  have voice : ∀ w, u.voice w = s.voice w := fun w => congrArg (fun t : Table Voice 16 => t.get w) table
  obtain ⟨outstanding, nextFetch, posted⟩ := topUp_voice (u.setVoice v (·.receives p u.clock)) v
  refine ⟨⟨⟨outstanding, nextFetch, ?_⟩, fun w hw => ?_, ?_⟩, ?_⟩
  · rw [posted, voice_setVoice_self, voice, clock]
  · rw [topUp_other _ hw, voice_setVoice_other _ hw, voice]
  · rw [topUp_engine]
    exact requests
  · rw [topUp_engine]
    rfl

/-! ### A voice that becomes FREE (R111, R117) -/

theorem dropVoice_self (s : State) (v : Fin 16) : (s.dropVoice v).voice v = (s.voice v).freed := voice_setVoice_self s v _

theorem dropVoice_other (s : State) {v w : Fin 16} (h : w ≠ v) : (s.dropVoice v).voice w = s.voice w := voice_setVoice_other s h _

theorem dropVoice_destination (s : State) (v : Fin 16) : (s.dropVoice v).mixer.destinations.get v = none :=
  Table.get_set_same _ _ _

/-- A stream whose voice has ended has no segment left when none waits behind (R71). -/
theorem finishSegment_ends {s : State} {i : Fin 12} (hn : (s.stream i).next = none) (idle : s.voices.requests = []) :
    (s.finishSegment i).voices = s.voices ∧
      ((s.stream i).current ≠ none → (s.finishSegment i).stream i = (s.stream i).emptied .quiet) := by
  cases hc : (s.stream i).current with
  | none =>
    have same : s.finishSegment i = s := by
      unfold State.finishSegment
      simp only [hc]
    exact ⟨by rw [same], fun held => absurd rfl held⟩
  | some g =>
    have withdrawn : s.voices.requests.filter (· ≠ .stream i) = s.voices.requests := by rw [idle]; rfl
    rw [finishSegment_last s i hc hn, settleEngine_voices, vacate_voices, withdrawn, settleEngine_stream]
    exact ⟨rfl, fun _ => vacate_stream s i g.firing⟩

/-- The active entry without a voice that has ended (R94). -/
def Entry.without (e : Entry) (v : Fin 16) : Entry :=
  { e with
    voices := e.voices.filter (· ≠ v)
    speakerVoice := if e.speakerVoice = some v then none else e.speakerVoice }

theorem handMap_same (s : State) : s.handMap.ann = s.ann ∧ s.handMap.voices = s.voices := by
  unfold State.handMap
  split
  · exact ⟨rfl, rfl⟩
  · split <;> exact ⟨rfl, rfl⟩

/-- An announcement with another voice plays on without the one that has ended. -/
theorem annVoiceEnded_playsOn {s : State} {v : Fin 16} {e : Entry} (ha : s.ann.active = some e) (chime : e.chimeVoice = none)
    (hv : v ∈ e.voices) (other : ∃ w ∈ e.voices, w ≠ v) :
    (s.annVoiceEnded v).ann = { s.ann with active := some (e.without v) } ∧ (s.annVoiceEnded v).voices = s.voices := by
  obtain ⟨w, hw, hne⟩ := other
  have left : e.voices.filter (· ≠ v) ≠ [] := List.ne_nil_of_mem (List.mem_filter.2 ⟨hw, decide_eq_true hne⟩)
  unfold State.annVoiceEnded
  simp only [ha, chime, reduceCtorEq, if_false, List.contains_iff_mem, hv, if_true, if_neg left]
  obtain ⟨ann, voices⟩ := handMap_same (s.setActive (·.without v))
  refine ⟨ann.trans ?_, voices⟩
  rw [setActive_ann, ha]
  rfl

/-- An entry that does not wait in QUEUED starts nothing on being told. -/
theorem tellFree_started {s : State} {e : Entry} (ha : s.ann.active = some e) (hp : e.phase ≠ .queued) : s.tellFree = s := by
  unfold State.tellFree
  simp only [ha, hp, false_and, and_false, if_false]

/-- Without an active announcement nobody acts on being told. -/
theorem tellFree_none {s : State} (h : s.ann.active = none) : s.tellFree = s := by
  unfold State.tellFree
  rw [h]

end Sys2Proof.Machine
end

section
/-! OBLIGATION. The pages of the voices. -/

namespace Sys2Proof.Machine

theorem kept_of_wide {s t : State} (h : t.wide = s.wide) :
    t.tracker = s.tracker ∧ t.settings = s.settings ∧ t.store.cells = s.store.cells :=
  ⟨tracker_of_wide h, settings_cells_of_wide h⟩

/-- While no request waits, the end of an event leaves the voices and the announcement engine as the command has made them. -/
theorem endEvent_ungranted {s : State} (h : s.voices.requests = []) :
    s.endEvent.comm = s.comm ∧ s.endEvent.ann = s.ann ∧ s.endEvent.voices = s.voices ∧
      s.endEvent.mixer.destinations = s.mixer.destinations := by
  obtain ⟨comm, ann, voices, mixer, -⟩ := (endEvent_frame s).ungranted (.inl h)
  exact ⟨comm, ann, voices, by rw [mixer]⟩

/-- The page a voice waits for arrives: the state before the end of the event. -/
def State.pageArrives (s : State) (v : Fin 16) (serial index page : Nat) (failed : Bool) : State :=
  (s.readPage page failed).2.portDone.voicePage v serial index page (s.readPage page failed).1

theorem exec_voicePageArrival {s : State} {v : Fin 16} {serial index page : Nat} (failed : Bool) (running : s.running = true)
    (served : s.port.serving = some { page := page, use := .voice v serial index }) :
    exec (.voicePageArrival v failed) s = .next (s.pageArrives v serial index page failed).endEvent := by
  simp only [exec, execVoicePageArrival]
  rw [event_next _ _ running]
  simp only [served, if_true]
  rfl

theorem exec_voicePageDue {s : State} (v : Fin 16) (running : s.running = true) :
    exec (.voicePageDue v) s =
      .next (if s.pageDue v then if (s.voice v).state = .playing then s.duePlaying v else s.dueStopping v else s).endEvent := by
  simp only [exec, execVoicePageDue]
  rw [event_next _ _ running]

theorem exec_fadeEnd {s : State} (v : Fin 16) (running : s.running = true) :
    exec (.fadeEnd v) s = .next (if s.fadeOver v then (s.dropVoice v).tellFree else s).endEvent := by
  simp only [exec, execFadeEnd]
  rw [event_next _ _ running]

end Sys2Proof.Machine
end

section
/-! OBLIGATION. The clauses of the voices' pages, one theorem each. -/

namespace Sys2Proof.Machine

section
variable {s : State} {v : Fin 16}

/-! ### Arrivals -/

theorem pageArrives_wide (serial index page : Nat) (failed : Bool) : (s.pageArrives v serial index page failed).wide = s.wide :=
  (voicePage_wide _ _ _ _ _ _).trans ((portDone_wide _).trans (readPage_wide _ _ _))

/-- An arrived page joins the queue of the voice that waits for it, as it is if it passes its check, and as a silent page
otherwise (R109, R112). -/
theorem pageArrives_joins {serial clip : Nat} (index page : Nat) (failed : Bool) (hs : (s.voice v).serial = serial)
    (ho : (s.voice v).outstanding = true) (ha : (s.voice v).state = .playing ∨ (s.voice v).state = .priming)
    (hc : (s.voice v).clip = some clip) :
    ∃ p, Joined s (s.pageArrives v serial index page failed) v p ∧
      (s.clipPageFault page (s.readPage page failed).1 clip index = none →
        p = .audio ((s.readPage page failed).1.getD []) ∧
          (s.pageArrives v serial index page failed).voices.integrity = s.voices.integrity) ∧
      (s.clipPageFault page (s.readPage page failed).1 clip index ≠ none →
        p = .silent ∧ (s.pageArrives v serial index page failed).voices.integrity = min (s.voices.integrity + 1) 15) := by
  generalize hd : (s.readPage page failed).1 = data
  obtain ⟨n, hn⟩ := readPage_state s page failed
  generalize hu : (s.readPage page failed).2.portDone = u
  rw [hn] at hu
  have takes : (u.voice v).takesData serial = true := by
    subst hu
    show (s.voice v).takesData serial = true
    rcases ha with ha | ha <;> simp [Voice.takesData, hs, ho, ha]
  have arrives : s.pageArrives v serial index page failed = u.voicePage v serial index page data := by
    unfold State.pageArrives
    rw [hd, hn, hu]
  obtain ⟨joined, integrity⟩ := voicePage_joins index page data takes (show (u.voice v).clip = some clip by subst hu; exact hc)
  have fault : u.clipPageFault page data clip index = s.clipPageFault page data clip index := by subst hu; rfl
  rw [arrives, integrity, ← fault]
  refine ⟨(u.checkPage page data clip index false).1, ⟨?_, ?_, ?_⟩, fun passes => ?_, fun fails => ?_⟩
  · subst hu; exact joined.voice
  · subst hu; exact joined.others
  · subst hu; exact joined.requests
  · rw [checkPage_passes passes]
    subst hu
    exact ⟨rfl, rfl⟩
  · obtain ⟨silent, counted⟩ := checkPage_fails (quiet := false) fails
    subst hu
    exact ⟨silent, counted⟩

/-- Stale data, or data for a voice that is released or FREE, are discarded (R109). -/
theorem pageArrives_stale {serial index page : Nat} (failed : Bool) (whole : s.store.erasing (page / 512) = false)
    (stale : (s.voice v).serial ≠ serial ∨ (s.voice v).outstanding = false ∨ (s.voice v).state = .stopping ∨
      (s.voice v).state = .free) :
    s.pageArrives v serial index page failed = { s with port := { s.port with serving := none } } := by
  have read : (s.readPage page failed).2 = s := by
    unfold State.readPage
    rw [show s.store.erasing (sectorOf page) = false from whole]
    split <;> rfl
  have discards : (s.voice v).takesData serial = false := by
    rcases stale with h | h | h | h <;> simp [Voice.takesData, h]
  unfold State.pageArrives State.voicePage
  rw [read]
  exact if_neg (by rw [show (s.portDone.voice v).takesData serial = false from discards]; exact Bool.false_ne_true)

/-! ### A page due -/

/-- After the end of an event without requests a voice is as the command has made it. -/
theorem endEvent_voice (h : s.voices.requests = []) (w : Fin 16) : s.endEvent.voice w = s.voice w :=
  congrArg (fun e : VoiceEngine => e.voices.get w) (endEvent_ungranted h).2.2.1

theorem pageDue_iff : s.pageDue v = true ↔
    ((s.voice v).state = .playing ∨ (s.voice v).state = .stopping) ∧ ∃ d, (s.voice v).due = some d ∧
      reached s.clock d = true := by
  simp [State.pageDue, Option.any_eq_true]

/-- A playing voice outputs its head page, and its starved run is over. -/
def Voice.outputs (r : Voice) (p : Page) (rest : List Page) : Voice := { r.playHead p rest with starved := 0 }

/-- A playing voice without a page holds its last sample, and counts it. -/
def Voice.underrun (r : Voice) : Voice := { r.holdOn with underruns := min (r.underruns + 1) 255, starved := r.starved + 1 }

theorem duePlaying_head {p : Page} {rest : List Page} (more : (s.voice v).nextPlay < (s.voice v).pageCount)
    (hq : (s.voice v).queue = p :: rest) : s.duePlaying v = (s.setVoice v (·.outputs p rest)).topUp v := by
  unfold State.duePlaying
  simp only [if_neg (Nat.not_le.2 more), hq]
  rfl

/-- With a page in its queue a voice outputs it over the next 60 ms, and may post its next read. -/
theorem duePlaying_outputs {p : Page} {rest : List Page} (more : (s.voice v).nextPlay < (s.voice v).pageCount)
    (hq : (s.voice v).queue = p :: rest) (idle : s.voices.requests = []) :
    (∀ w, w ≠ v → (s.duePlaying v).endEvent.voice w = s.voice w) ∧
      ∃ outstanding nextFetch, (s.duePlaying v).endEvent.voice v =
        { (s.voice v).outputs p rest with outstanding := outstanding, nextFetch := nextFetch } := by
  have idle' : ((s.setVoice v (·.outputs p rest)).topUp v).voices.requests = [] := by rw [topUp_engine]; exact idle
  obtain ⟨outstanding, nextFetch, voice⟩ := topUp_voice (s.setVoice v (·.outputs p rest)) v
  rw [duePlaying_head more hq]
  refine ⟨fun w hw => ?_, outstanding, nextFetch, ?_⟩
  · rw [endEvent_voice idle', topUp_other _ hw, voice_setVoice_other _ hw]
  · rw [endEvent_voice idle', voice, voice_setVoice_self]

theorem duePlaying_underrun (more : (s.voice v).nextPlay < (s.voice v).pageCount) (hq : (s.voice v).queue = [])
    (few : (s.voice v).starved < 4) : s.duePlaying v = s.setVoice v Voice.underrun := by
  unfold State.duePlaying
  simp only [if_neg (Nat.not_le.2 more), hq, if_pos few]
  rfl

/-- After its last page, or starved, a voice ends (R110). -/
theorem duePlaying_ends
    (h : (s.voice v).pageCount ≤ (s.voice v).nextPlay ∨ ((s.voice v).queue = [] ∧ 4 ≤ (s.voice v).starved)) :
    s.duePlaying v = s.voiceEnded v := by
  unfold State.duePlaying
  by_cases last : (s.voice v).pageCount ≤ (s.voice v).nextPlay
  · exact if_pos last
  · obtain ⟨hq, starved⟩ := h.resolve_left last
    simp only [if_neg last, hq, if_neg (Nat.not_lt.2 starved)]

/-- A stream's voice ends, and with it the segment when none waits behind it (R71). -/
theorem voiceEnded_stream {i : Fin 12} (ho : (s.voice v).owner = some (.stream i)) (hn : (s.stream i).next = none)
    (ha : s.ann.active = none) (idle : s.voices.requests = []) :
    (∀ w, (s.voiceEnded v).endEvent.voice w = (s.dropVoice v).voice w) ∧
      (s.voiceEnded v).endEvent.mixer.destinations.get v = none ∧
      ((s.stream i).current ≠ none → (s.voiceEnded v).endEvent.stream i = (s.stream i).emptied .quiet) := by
  have commented := (Commented.refl (s.dropVoice v)).finishSegment i
  have ended : s.voiceEnded v = (s.dropVoice v).finishSegment i := by
    unfold State.voiceEnded State.ownerActs
    rw [ho]
    exact tellFree_none (commented.ann ▸ ha)
  obtain ⟨voices, stream⟩ := finishSegment_ends (s := s.dropVoice v) hn idle
  obtain ⟨comm, -, voices', destinations⟩ := endEvent_ungranted (s := (s.dropVoice v).finishSegment i)
    (by rw [voices]; exact idle)
  rw [ended, destinations, commented.mixer]
  refine ⟨fun w => ?_, dropVoice_destination s v, fun current => ?_⟩
  · rw [State.voice, voices', voices]
    rfl
  · rw [State.stream, comm]
    exact stream current

/-- An announcement's voice ends, and the announcement plays on with its others (R94). -/
theorem voiceEnded_announcement {ticket : Nat} {role : Role} {e : Entry}
    (ho : (s.voice v).owner = some (.announcement ticket role))
    (ha : s.ann.active = some e) (hp : e.phase = .playing) (hv : v ∈ e.voices) (chime : e.chimeVoice = none)
    (other : ∃ w ∈ e.voices, w ≠ v) (idle : s.voices.requests = []) :
    (s.voiceEnded v).endEvent.voice v = (s.voice v).freed ∧
      (s.voiceEnded v).endEvent.ann = { s.ann with active := some (e.without v) } := by
  obtain ⟨ann, voices⟩ := annVoiceEnded_playsOn (s := s.dropVoice v) ha chime hv other
  have ended : s.voiceEnded v = (s.dropVoice v).annVoiceEnded v := by
    unfold State.voiceEnded State.ownerActs
    rw [ho]
    refine tellFree_started (e := e.without v) (by rw [ann]) ?_
    show e.phase ≠ .queued
    rw [hp]
    decide
  obtain ⟨-, ann', voices', -⟩ := endEvent_ungranted (s := (s.dropVoice v).annVoiceEnded v) (by rw [voices]; exact idle)
  rw [ended, ann', State.voice, voices', voices]
  exact ⟨dropVoice_self s v, ann⟩

theorem dueStopping_last (ha : s.ann.active = none) (last : (s.voice v).pageCount ≤ (s.voice v).nextPlay) :
    s.dueStopping v = s.dropVoice v := by
  unfold State.dueStopping
  exact (if_pos last).trans (tellFree_none ha)

theorem dueStopping_head {p : Page} {rest : List Page} (more : (s.voice v).nextPlay < (s.voice v).pageCount)
    (hq : (s.voice v).queue = p :: rest) : s.dueStopping v = s.setVoice v fun r => r.playHead p rest := by
  unfold State.dueStopping
  simp only [if_neg (Nat.not_le.2 more), hq]

theorem dueStopping_hold (more : (s.voice v).nextPlay < (s.voice v).pageCount) (hq : (s.voice v).queue = []) :
    s.dueStopping v = s.setVoice v Voice.holdOn := by
  unfold State.dueStopping
  simp only [if_neg (Nat.not_le.2 more), hq]

/-- Whatever a stopping voice does, only its own record changes. -/
theorem dueStopping_voices (ha : s.ann.active = none) :
    (s.dueStopping v).voices.requests = s.voices.requests ∧ ∀ w, w ≠ v → (s.dueStopping v).voice w = s.voice w := by
  by_cases last : (s.voice v).pageCount ≤ (s.voice v).nextPlay
  · rw [dueStopping_last ha last]
    exact ⟨rfl, fun w hw => dropVoice_other s hw⟩
  · have more := Nat.not_le.1 last
    cases hq : (s.voice v).queue with
    | nil =>
      rw [dueStopping_hold more hq]
      exact ⟨rfl, fun w hw => voice_setVoice_other s hw _⟩
    | cons p rest =>
      rw [dueStopping_head more hq]
      exact ⟨rfl, fun w hw => voice_setVoice_other s hw _⟩

end

/-! ### The clauses -/

theorem endEvent_keeps {s t : State} (h : t.wide = s.wide) :
    t.endEvent.tracker = s.tracker ∧ t.endEvent.settings = s.settings ∧ t.endEvent.store.cells = s.store.cells :=
  kept_of_wide ((endEvent_wide t).trans h)

/-- Settles O40: each clause by the equation above for what its command does; while no request waits the end of the event
leaves the voices so (`endEvent_ungranted`). -/
theorem voicePages : Obligations.VoicePages := by
  refine ⟨?_, ?_, ?_, ?_, ?_, ?_, ?_⟩
  · intro failed v serial index page clip s running served hs ho ha hc idle data failing held remain
    have active : (s.voice v).state = .playing ∨ (s.voice v).state = .priming := ha.imp_right And.left
    obtain ⟨p, joined, passes, fails⟩ := pageArrives_joins index page failed hs ho active hc
    obtain ⟨outstanding, nextFetch, voice⟩ := joined.voice
    have idle' := joined.requests.trans idle
    obtain ⟨tracker, settings, cells⟩ := endEvent_keeps (pageArrives_wide (s := s) (v := v) serial index page failed)
    have waits : (s.voice v).state = .priming → (s.voice v).waiting = none := fun priming => by
      rcases ha with ha | ha
      · rw [priming] at ha; cases ha
      · exact ha.2
    refine ⟨_, exec_voicePageArrival failed running served, tracker, settings, cells,
      fun w hw => (endEvent_voice idle' w).trans (joined.others w hw), ?_⟩
    rw [endEvent_voice idle' v, (endEvent_frame _).integrity, voice]
    dsimp only
    rw [receives_queue]
    refine ⟨fun playing => receives_playing playing _ _, fun priming => receives_primed priming (waits priming) _ _,
      fun priming => receives_priming priming (waits priming) _ _, fun ok => ?_, fun bad => ?_⟩
    · obtain ⟨audio, same⟩ := passes (not_ne_iff.1 fun fault => ok (clipPageFault_ne_none.1 fault))
      exact ⟨by rw [audio], same⟩
    · obtain ⟨silent, counted⟩ := fails (clipPageFault_ne_none.2 bad)
      exact ⟨by rw [silent], counted⟩
  · intro failed v serial index page s running served whole stale
    refine ⟨_, exec_voicePageArrival failed running served, ?_⟩
    rw [pageArrives_stale failed whole stale]
    exact endEvent_frame _
  · intro v d s running playing due now idle
    have isDue : s.pageDue v = true := pageDue_iff.2 ⟨.inl playing, d, due, now⟩
    have acts := exec_voicePageDue v running
    rw [if_pos isDue, if_pos playing] at acts
    obtain ⟨tracker, settings, cells⟩ := endEvent_keeps (duePlaying_wide s v)
    refine ⟨_, acts, tracker, settings, cells, fun more p rest hq => ?_, fun more hq few => ?_, fun ends => ⟨?_, ?_⟩⟩
    · obtain ⟨others, outstanding, nextFetch, voice⟩ := duePlaying_outputs more hq idle
      refine ⟨others, ?_⟩
      rw [voice]
      exact ⟨rfl, rfl, rfl, rfl, rfl, congrArg (Option.map fun t => after t 60) due⟩
    · rw [duePlaying_underrun more hq few]
      have record := endEvent_voice (s := s.setVoice v Voice.underrun) idle
      refine ⟨fun w hw => (record w).trans (voice_setVoice_other s hw _), ?_⟩
      rw [record, voice_setVoice_self]
      unfold Voice.underrun Voice.holdOn
      rw [due]
      rfl
    · intro i ho hn ha
      rw [duePlaying_ends ends]
      obtain ⟨record, destination, stream⟩ := voiceEnded_stream ho hn ha idle
      refine ⟨fun w hw => (record w).trans (dropVoice_other s hw), (record v).trans (dropVoice_self s v), destination,
        fun current => ?_⟩
      rw [stream current]
      exact ⟨rfl, rfl, rfl⟩
    · intro ticket role e ho ha hp hv chime other
      rw [duePlaying_ends ends]
      exact voiceEnded_announcement ho ha hp hv chime other idle
  · intro v d s running stopping due now idle ha
    have isDue : s.pageDue v = true := pageDue_iff.2 ⟨.inr stopping, d, due, now⟩
    have acts := exec_voicePageDue v running
    rw [if_pos isDue, if_neg (by rw [stopping]; decide)] at acts
    obtain ⟨tracker, settings, cells⟩ := endEvent_keeps (dueStopping_wide s v)
    obtain ⟨requests, others⟩ := dueStopping_voices (v := v) ha
    have record := endEvent_voice (requests.trans idle)
    refine ⟨_, acts, tracker, settings, cells, fun w hw => (record w).trans (others w hw), fun last => ?_,
      fun p rest more hq => ?_, fun more hq => ?_⟩
    · rw [record, dueStopping_last ha last]
      exact dropVoice_self s v
    · rw [record, dueStopping_head more hq, voice_setVoice_self]
      unfold Voice.playHead
      rw [due]
      rfl
    · rw [record, dueStopping_hold more hq, voice_setVoice_self]
      unfold Voice.holdOn
      rw [due]
      rfl
  · intro v s running stopping fade idle ha
    have faded : s.fadeOver v = true := by simp [State.fadeOver, stopping, fade]
    have acts := exec_fadeEnd v running
    rw [if_pos faded, tellFree_none (s := s.dropVoice v) ha] at acts
    obtain ⟨tracker, settings, cells⟩ := endEvent_keeps (dropVoice_wide s v)
    have record := endEvent_voice (s := s.dropVoice v) idle
    refine ⟨_, acts, tracker, settings, cells, ?_⟩
    rw [record, dropVoice_self, (endEvent_ungranted (s := s.dropVoice v) idle).2.2.2]
    exact ⟨rfl, rfl, rfl, rfl, dropVoice_destination s v, fun w hw => (record w).trans (dropVoice_other s hw)⟩
  · intro v s running
    refine ⟨fun early => ⟨s.endEvent, ?_, endEvent_frame s⟩, fun early => ⟨s.endEvent, ?_, endEvent_frame s⟩⟩
    · rw [exec_voicePageDue v running, if_neg (by simp [early])]
    · rw [exec_fadeEnd v running, if_neg (by simp [early])]
  · intro r
    refine ⟨fun h => ?_, fun h => ?_, fun h => ?_⟩
    · simp only [Voice.released, h]
    · simp only [Voice.released, h]
    · rcases h with h | h <;> simp only [Voice.released, h]

end Sys2Proof.Machine
end

section
/-! SUPPORT. A fan-out slot by slot: what the voices and the map are while it is formed (R93). -/

namespace Sys2Proof.Machine

/-! ### Slots ranked by listeners -/

section
variable {counts : Table Nat 12} {i j : Fin 12}

/-- One slot ranks before another: by listeners, and among equal ones by number. -/
def ranksBefore (counts : Table Nat 12) (i j : Fin 12) : Prop :=
  counts.get j < counts.get i ∨ (counts.get j = counts.get i ∧ i < j)

theorem ranksBefore_asymm (h : ranksBefore counts i j) : ¬ranksBefore counts j i := by
  unfold ranksBefore at *
  omega

theorem insertByCount_ranked {l : List (Fin 12)} (ranked : l.Pairwise (ranksBefore counts)) (above : ∀ j ∈ l, i < j) :
    (insertByCount counts i l).Pairwise (ranksBefore counts) := by
  induction l with
  | nil => exact List.pairwise_singleton _ _
  | cons k l ih =>
    obtain ⟨first, rest⟩ := List.pairwise_cons.1 ranked
    unfold insertByCount
    split
    · next most =>
      have before : ∀ j ∈ k :: l, ranksBefore counts i j := by
        intro j hj
        have higher := above j hj
        rcases List.mem_cons.1 hj with rfl | hj
        · unfold ranksBefore; omega
        · have := first j hj
          unfold ranksBefore at *
          omega
      exact List.pairwise_cons.2 ⟨before, ranked⟩
    · next fewer =>
      refine List.pairwise_cons.2 ⟨fun j hj => ?_, ih rest fun j hj => above j (List.mem_cons_of_mem _ hj)⟩
      rcases mem_insertByCount.1 hj with rfl | hj
      · exact .inl (Nat.not_le.1 fewer)
      · exact first j hj

theorem byListeners_ranked {l : List (Fin 12)} (rising : l.Pairwise (· < ·)) :
    (byListeners counts l).Pairwise (ranksBefore counts) := by
  induction l with
  | nil => exact List.Pairwise.nil
  | cons k l ih =>
    obtain ⟨above, rising⟩ := List.pairwise_cons.1 rising
    exact insertByCount_ranked (ih rising) fun j hj => above j (mem_byListeners.1 hj)

/-- What holds between each earlier and later slot of a ranked list holds between any two of its slots in that rank. -/
theorem pairwise_of_ranked {l : List (Fin 12)} {Q : Fin 12 → Fin 12 → Prop} (ranked : l.Pairwise (ranksBefore counts))
    (holds : l.Pairwise Q) (hi : i ∈ l) (hj : j ∈ l) (before : ranksBefore counts i j) : Q i j := by
  have forward : l.Pairwise fun a b => ranksBefore counts a b → Q a b :=
    holds.imp (S := fun a b => ranksBefore counts a b → Q a b) fun hq _ => hq
  have backward : l.Pairwise fun a b => ranksBefore counts b a → Q b a :=
    ranked.imp fun hr hr' => absurd hr' (ranksBefore_asymm hr)
  exact forward.forall_of_forall_of_flip (fun a _ h => absurd h (ranksBefore_asymm h)) backward hi hj before

end

/-! ### The clips of an entry -/

section
variable {s t : State} {e : Entry} {i : Fin 12} {c k : Nat}

/-- No clip of the cache is empty. -/
def State.clipsPlay (s : State) : Prop := ∀ k ∈ s.store.clips, 0 < k.count

/-- A clip that a clip list gives is in the cache (R93). -/
theorem clipOf_present (h : s.clipOf e i = some c) (clips : s.clipsPlay) : ∃ k, s.clip c = some k ∧ 0 < k.count := by
  unfold State.clipOf at h
  split at h
  · split at h
    · next present =>
      cases h
      obtain ⟨k, hk⟩ := Option.isSome_iff_exists.1 present
      exact ⟨k, hk, clips k (List.mem_of_find?_eq_some hk)⟩
    · cases h
  · cases h

/-- The clips of an entry are read from the store alone. -/
theorem clipOf_congr (h : t.store = s.store) : t.clipOf e = s.clipOf e := by
  funext i
  unfold State.clipOf State.clip
  rw [h]

theorem speakerClip_own (h : s.clipOf e s.settings.speakerSlot = some c) : s.speakerClip e = some c := by
  simp [State.speakerClip, h]

theorem speakerClip_lowest (h : s.clipOf e s.settings.speakerSlot = none) (hi : s.clipOf e i = some c)
    (lower : ∀ j, j < i → s.clipOf e j = none) : s.speakerClip e = some c := by
  unfold State.speakerClip
  rw [h, Option.orElse_none]
  cases found : allSlots.findSome? (s.clipOf e) with
  | none =>
    rw [List.findSome?_eq_none_iff.1 found i (List.mem_finRange i)] at hi
    cases hi
  | some d =>
    obtain ⟨before, j, after, slots, hj, lacking⟩ := List.findSome?_eq_some_iff.1 found
    have rising : (before ++ j :: after).Pairwise (· < ·) := slots ▸ List.pairwise_lt_finRange 12
    have place : i ∈ before ++ j :: after := slots ▸ List.mem_finRange i
    rcases List.mem_append.1 place with place | place
    · rw [lacking i place] at hi
      cases hi
    · rcases List.mem_cons.1 place with rfl | place
      · exact hj.symm.trans hi
      · have below := (List.pairwise_cons.1 (List.pairwise_append.1 rising).2.1).1 i place
        rw [lower j below] at hj
        cases hj

theorem speakerClip_clip (h : s.speakerClip e = some c) : ∃ i, s.clipOf e i = some c := by
  cases own : s.clipOf e s.settings.speakerSlot with
  | some d => exact ⟨_, own.trans ((speakerClip_own own).symm.trans h)⟩
  | none =>
    unfold State.speakerClip at h
    rw [own, Option.orElse_none] at h
    obtain ⟨i, -, hi⟩ := List.exists_of_findSome?_eq_some h
    exact ⟨i, hi⟩

theorem speakerClip_none (h : ∀ i, s.clipOf e i = none) : s.speakerClip e = none := by
  unfold State.speakerClip
  rw [h, Option.orElse_none, List.findSome?_eq_none_iff]
  exact fun i _ => h i

end

/-! ### A role started -/

section
variable {s t : State} {e : Entry} {role : Role} {c : Nat} {v : Fin 16}

/-- Voice `v` plays clip `c` of entry `e` in a role from page 0 on. -/
structure State.playsRole (t : State) (e : Entry) (role : Role) (c : Nat) (v : Fin 16) : Prop where
  owner : (t.voice v).owner = some (.announcement e.ticket role)
  clip : (t.voice v).clip = some c
  startPage : (t.voice v).startPage = 0
  busy : (t.voice v).state ≠ .free

theorem State.playsRole.congr (h : s.playsRole e role c v) (same : t.voice v = s.voice v) : t.playsRole e role c v :=
  ⟨by rw [same]; exact h.owner, by rw [same]; exact h.clip, by rw [same]; exact h.startPage, by rw [same]; exact h.busy⟩

theorem startRole_full (h : s.freeVoice = none) : s.startRole e role c = (s, none, []) := by
  unfold State.startRole
  rw [h]

/-- A clip of the cache starts on the lowest-numbered FREE voice, and no other voice changes. -/
theorem startRole_plays {k : ClipEntry} (hv : s.freeVoice = some v) (hr : s.store.reload = none) (hc : s.clip c = some k)
    (hk : 0 < k.count) :
    ∃ u, s.startRole e role c = (u, some v, [v]) ∧ Engines s u ∧ u.playsRole e role c v ∧
      ∀ w, w ≠ v → u.voice w = s.voice w := by
  obtain ⟨outcome, owner, clip, startPage, active, others, -⟩ :=
    startVoice_begins v (.announcement e.ticket role) e.cls hr hc hk
  have engines := startVoice_engines (.refl s) v (.announcement e.ticket role) e.cls c 0
  unfold State.startRole
  rw [hv]
  dsimp only
  revert outcome owner clip startPage active others engines
  generalize s.startVoice v (.announcement e.ticket role) e.cls c 0 = p
  obtain ⟨u, o⟩ := p
  rintro rfl owner clip startPage active others engines
  refine ⟨u, rfl, engines, ⟨owner, clip, startPage, ?_⟩, others⟩
  rcases active with active | active <;> rw [active] <;> decide

end

/-! ### The ranked slots one after another -/

section
variable {s : State} {e : Entry} {c : Nat} {v : Fin 16}

/-- A clip list gives a slot another clip than `c`. -/
def State.differs (s : State) (e : Entry) (c : Nat) (i : Fin 12) : Prop := ∃ k, s.clipOf e i = some k ∧ k ≠ c

/-- What a ranked slot with another clip than the speaker's has come to: FALLBACK, with no voice left, or a voice of its own. -/
def State.served (s t : State) (e : Entry) (f : FanOut) (i : Fin 12) (k : Nat) : Prop :=
  (f.map.get i = .fallback ∧ t.freeVoice = none) ∨
    ∃ w, f.map.get i = .own w ∧ w ∈ f.voices ∧ (s.voice w).state = .free ∧ t.playsRole e (.slot i) k w

/-- From `s` a fan-out with speaker clip `c` on voice `v` has come to `p`, with the slots of `done` served in their order. -/
structure Fanned (s : State) (e : Entry) (c : Nat) (v : Fin 16) (done : List (Fin 12)) (p : State × FanOut) : Prop where
  engines : Engines s p.1
  speaker : p.2.speaker = some v
  head : p.2.voices.head? = some v
  plays : p.1.playsRole e .speaker c v
  busy : ∀ w ∈ p.2.voices, (p.1.voice w).state ≠ .free
  others : ∀ w, w ∉ p.2.voices → p.1.voice w = s.voice w
  shared : ∀ i ∈ done, s.clipOf e i = some c → p.2.map.get i = .own v
  own : ∀ i ∈ done, ∀ k, s.clipOf e i = some k → k ≠ c → s.served p.1 e p.2 i k
  rest : ∀ i, i ∉ done → p.2.map.get i = (s.fanBase e (some c) (some v)).get i
  order : done.Pairwise fun i j => s.differs e c i → s.differs e c j →
    p.2.map.get i = .fallback → p.2.map.get j = .fallback


/-- A slot's entry in the map leaves the other slots' alone. -/
theorem Fanned.mapped {done : List (Fin 12)} {t u : State} {f : FanOut} {i : Fin 12} (m : SlotMap) (voices : List (Fin 16))
    (h : Fanned s e c v done (t, f)) (new : ∀ j ∈ done, i ≠ j) (engines : Engines t u)
    (kept : ∀ w ∈ f.voices, u.voice w = t.voice w) (full : t.freeVoice = none → u.freeVoice = none)
    (busy : ∀ w ∈ voices, (u.voice w).state ≠ .free)
    (others : ∀ w, w ∉ f.voices ++ voices → u.voice w = t.voice w)
    (shared : s.clipOf e i = some c → m = .own v)
    (own : ∀ k, s.clipOf e i = some k → k ≠ c →
      s.served u e { f with map := f.map.set i m, voices := f.voices ++ voices } i k)
    (last : s.differs e c i → t.freeVoice = none → m = .fallback) :
    Fanned s e c v (done ++ [i]) (u, { f with map := f.map.set i m, voices := f.voices ++ voices }) where
  engines := h.engines.trans engines
  speaker := h.speaker
  head := by
    show (f.voices ++ voices).head? = some v
    rw [List.head?_append, show f.voices.head? = some v from h.head]
    rfl
  plays := h.plays.congr (kept v (List.mem_of_head? h.head))
  busy w hw := by
    rcases List.mem_append.1 hw with hw | hw
    · rw [kept w hw]; exact h.busy w hw
    · exact busy w hw
  others w hw := (others w hw).trans (h.others w fun hw' => hw (List.mem_append_left _ hw'))
  shared j hj hc := by
    rcases List.mem_append.1 hj with hj | hj
    · rw [Table.get_set_other _ _ (new j hj)]
      exact h.shared j hj hc
    · obtain rfl := List.mem_singleton.1 hj
      rw [Table.get_set_same, shared hc]
  own j hj k hc hk := by
    rcases List.mem_append.1 hj with hj | hj
    · have same : (f.map.set i m).get j = f.map.get j := Table.get_set_other _ _ (new j hj)
      rcases h.own j hj k hc hk with ⟨fallback, none⟩ | ⟨w, own, mem, free, plays⟩
      · exact .inl ⟨same.trans fallback, full none⟩
      · exact .inr ⟨w, same.trans own, List.mem_append_left _ mem, free, plays.congr (kept w mem)⟩
    · obtain rfl := List.mem_singleton.1 hj
      exact own k hc hk
  rest j hj := by
    have hj' : j ∉ done ∧ i ≠ j := ⟨fun hd => hj (List.mem_append_left _ hd), fun eq => hj (by simp [eq])⟩
    exact (Table.get_set_other _ _ hj'.2).trans (h.rest j hj'.1)
  order := by
    refine List.pairwise_append.2 ⟨h.order.imp_of_mem ?_, List.pairwise_singleton _ _, ?_⟩
    · intro a b ha hb before hda hdb
      rw [Table.get_set_other _ _ (new a ha), Table.get_set_other _ _ (new b hb)]
      exact before hda hdb
    · intro a ha b hb hda hdb fallback
      obtain rfl := List.mem_singleton.1 hb
      rw [Table.get_set_other _ _ (new a ha)] at fallback
      obtain ⟨k, hc, hk⟩ := hda
      rcases h.own a ha k hc hk with ⟨-, none⟩ | ⟨w, own, -⟩
      · rw [Table.get_set_same]
        exact last hdb none
      · rw [fallback] at own
        cases own

/-- One more ranked slot is served (R93). -/
theorem Fanned.slot {done : List (Fin 12)} {p : State × FanOut} {i : Fin 12} (h : Fanned s e c v done p) (new : i ∉ done)
    (reload : s.store.reload = none) (clips : s.clipsPlay) (present : (s.clipOf e i).isSome = true) :
    Fanned s e c v (done ++ [i]) (State.fanSlot e (some c) p i) := by
  obtain ⟨t, map, voices, speaker⟩ := p
  obtain rfl : speaker = some v := h.speaker
  have store : t.store = s.store := (Acts.ofEngines h.engines).store
  have apart : ∀ j ∈ done, i ≠ j := fun j hj eq => new (eq ▸ hj)
  obtain ⟨k, hk⟩ := Option.isSome_iff_exists.1 present
  have clip_unique : ∀ k', s.clipOf e i = some k' → k' = k := fun k' hk' => by rw [hk] at hk'; exact (Option.some.inj hk').symm
  have keeps : ∀ w ∈ voices, t.voice w = t.voice w := fun _ _ => rfl
  unfold State.fanSlot
  simp only [clipOf_congr store, hk]
  by_cases hc : k = c
  · rw [if_pos (congrArg some hc)]
    have mapped := h.mapped (u := t) (.own v) [] apart (.refl t) keeps id (by simp) (fun _ _ => rfl) (fun _ => rfl)
      (fun k' hk' hne => absurd ((clip_unique k' hk').trans hc) hne)
      (fun ⟨k', hk', hne⟩ _ => absurd ((clip_unique k' hk').trans hc) hne)
    simpa using mapped
  · have other : ¬some k = some c := fun eq => hc (Option.some.inj eq)
    have unshared : s.clipOf e i = some c → ∀ m : SlotMap, m = .own v := fun hk' => absurd (clip_unique c hk').symm hc
    rw [if_neg other]
    cases free : t.freeVoice with
    | none =>
      rw [startRole_full free]
      have mapped := h.mapped (u := t) .fallback [] apart (.refl t) keeps id (by simp) (fun _ _ => rfl)
        (fun hk' => unshared hk' _) (fun k' hk' _ => .inl ⟨Table.get_set_same _ _ _, free⟩) (fun _ _ => rfl)
      simpa using mapped
    | some w =>
      obtain ⟨ent, hent, long⟩ := clipOf_present hk clips
      have ready := (freeVoice_eq_some.1 free).1
      have fresh : w ∉ voices := fun hw => h.busy w hw ready
      obtain ⟨u, started, engines, plays, others⟩ := startRole_plays (e := e) (role := .slot i) free
        (show t.store.reload = none by rw [store]; exact reload)
        (show t.clip k = some ent by rw [State.clip, store]; exact hent) long
      rw [started]
      refine h.mapped (.own w) [w] apart engines (fun x hx => others x fun eq => fresh (eq ▸ hx)) (fun none => ?_)
        (fun x hx => ?_) (fun x hx => others x fun eq => hx (by simp [eq])) (fun hk' => unshared hk' _)
        (fun k' hk' _ => .inr ⟨w, Table.get_set_same _ _ _, by simp, ?_, ?_⟩) (fun _ none => ?_)
      · rw [free] at none; cases none
      · obtain rfl := List.mem_singleton.1 hx
        exact plays.busy
      · rw [← h.others w fresh]; exact ready
      · rw [clip_unique k' hk']; exact plays
      · rw [free] at none; cases none


theorem Fanned.slots {done l : List (Fin 12)} {p : State × FanOut} (h : Fanned s e c v done p) (distinct : (done ++ l).Nodup)
    (reload : s.store.reload = none) (clips : s.clipsPlay) (present : ∀ i ∈ l, (s.clipOf e i).isSome = true) :
    Fanned s e c v (done ++ l) (l.foldl (State.fanSlot e (some c)) p) := by
  induction l generalizing done p with
  | nil => simpa using h
  | cons i l ih =>
    have new : i ∉ done := fun hd => (List.nodup_append.1 distinct).2.2 i hd i List.mem_cons_self rfl
    have next := ih (h.slot new reload clips (present i List.mem_cons_self)) (by simpa using distinct)
      fun j hj => present j (List.mem_cons_of_mem _ hj)
    simpa using next

/-! ### The whole fan-out -/

/-- The ranked slots of a fan-out: those with listeners and a clip (R93). -/
def State.ranked (s : State) (e : Entry) : List (Fin 12) :=
  byListeners s.seats.counts (allSlots.filter fun i => s.heard i && (s.clipOf e i).isSome)

theorem ranked_sorted (s : State) (e : Entry) : (s.ranked e).Pairwise (ranksBefore s.seats.counts) :=
  byListeners_ranked ((List.pairwise_lt_finRange 12).filter _)

theorem mem_ranked {i : Fin 12} : i ∈ s.ranked e ↔ s.heard i = true ∧ (s.clipOf e i).isSome = true := by
  rw [State.ranked, mem_byListeners, List.mem_filter, Bool.and_eq_true]
  exact and_iff_right (List.mem_finRange i)

theorem ranked_nodup (s : State) (e : Entry) : (s.ranked e).Nodup :=
  (ranked_sorted s e).imp fun before eq => absurd (eq ▸ before) fun h => ranksBefore_asymm h h

/-- With a speaker clip and a FREE voice the fan-out serves every ranked slot. -/
theorem fanOut_fanned (hc : s.speakerClip e = some c) (hv : s.freeVoice = some v) (reload : s.store.reload = none)
    (clips : s.clipsPlay) : Fanned s e c v (s.ranked e) (s.fanOut e) := by
  obtain ⟨i, hi⟩ := speakerClip_clip hc
  obtain ⟨k, hk, long⟩ := clipOf_present hi clips
  obtain ⟨u, started, engines, plays, others⟩ := startRole_plays (e := e) (role := .speaker) hv reload hk long
  have acts := Acts.ofEngines engines
  have clipOf : u.clipOf e = s.clipOf e := clipOf_congr acts.store
  have ranked : u.ranked e = s.ranked e := by
    unfold State.ranked State.heard
    rw [acts.seats, clipOf]
  have base : u.fanBase e (some c) (some v) = s.fanBase e (some c) (some v) := by
    unfold State.fanBase State.heard
    rw [acts.seats, clipOf]
  have begun : Fanned s e c v [] (u, { map := s.fanBase e (some c) (some v), voices := [v], speaker := some v }) :=
    { engines := engines
      speaker := rfl
      head := rfl
      plays := plays
      busy := fun w hw => by obtain rfl := List.mem_singleton.1 hw; exact plays.busy
      others := fun w hw => others w fun eq => hw (List.mem_singleton.2 eq)
      shared := nofun
      own := nofun
      rest := fun _ _ => rfl
      order := List.Pairwise.nil }
  have formed : s.fanOut e = (s.ranked e).foldl (State.fanSlot e (some c))
      (u, { map := s.fanBase e (some c) (some v), voices := [v], speaker := some v }) := by
    unfold State.fanOut
    simp only [hc, started]
    rw [← ranked, ← base]
    rfl
  rw [formed]
  exact begun.slots (ranked_nodup s e) reload clips fun i hi => (mem_ranked.1 hi).2

/-- An entry without a clip forms an empty fan-out. -/
theorem fanOut_empty (h : ∀ i, s.clipOf e i = none) :
    (s.fanOut e).2.speaker = none ∧ (s.fanOut e).2.voices = [] ∧ (s.fanOut e).1 = s := by
  have ranked : s.ranked e = [] := List.eq_nil_iff_forall_not_mem.2 fun i hi => by
    have present := (mem_ranked.1 hi).2
    rw [h] at present
    cases present
  have formed : s.fanOut e = (s.ranked e).foldl (State.fanSlot e none)
      (s, { map := s.fanBase e none none, voices := [], speaker := none }) := by
    unfold State.fanOut
    simp only [speakerClip_none h]
    rfl
  rw [formed, ranked]
  exact ⟨rfl, rfl, rfl⟩

end
end Sys2Proof.Machine
end

section
/-! OBLIGATION. The fan-out (R93). -/

namespace Sys2Proof.Machine

/-- Settles O36: the fan-out with a speaker clip by `fanOut_fanned`, slot by slot, and the order of its slots by their rank. -/
theorem fanOutFormed : Obligations.FanOutFormed := by
  intro s e
  refine ⟨fun c => speakerClip_own, fun i c => speakerClip_lowest, fanOut_empty, fun c v hc hv reload clips => ?_⟩
  have formed := fanOut_fanned hc hv reload clips
  have rest : ∀ i, i ∉ s.ranked e → (s.fanOut e).2.map.get i = _ := fun i hi => (formed.rest i hi).trans (Table.get_ofFn _ _)
  refine ⟨formed.speaker, formed.head, formed.plays.owner, formed.plays.clip, formed.plays.startPage,
    fun i => ⟨fun heard => ⟨fun hi => ?_, fun hi => ?_, fun k hi hk => ?_⟩, fun unheard => ?_⟩,
    fun i j heardI heardJ otherI otherJ before => ?_⟩
  · exact formed.shared i (mem_ranked.2 ⟨heard, by rw [hi]; rfl⟩) hi
  · rw [rest i fun ranked => by simpa [hi] using (mem_ranked.1 ranked).2]
    simp [heard, hi]
  · rcases formed.own i (mem_ranked.2 ⟨heard, by rw [hi]; rfl⟩) k hi hk with full | ⟨w, own, mem, free, plays⟩
    · exact .inl full
    · exact .inr ⟨w, own, mem, free, plays.owner, plays.clip⟩
  · rw [rest i fun ranked => by simpa [unheard] using (mem_ranked.1 ranked).1]
    simp only [unheard, Bool.false_and, Bool.false_eq_true, if_false, Bool.and_eq_true, decide_eq_true_eq, and_assoc]
    refine if_congr (and_congr_right fun _ => and_congr_right fun _ => and_iff_right_of_imp fun hi => ?_) rfl rfl
    rw [hi]
    rfl
  · have ranked : ∀ i, s.heard i = true → s.differs e c i → i ∈ s.ranked e := fun i heard ⟨k, hk, _⟩ =>
      mem_ranked.2 ⟨heard, by rw [hk]; rfl⟩
    exact pairwise_of_ranked (ranked_sorted s e) formed.order (ranked i heardI otherI) (ranked j heardJ otherJ) before otherI
      otherJ

end Sys2Proof.Machine
end

section
/-! SUPPORT. Commentary that asks for voices and changes none: firings, placements and a resumption (R64 to R75). -/

namespace Sys2Proof.Machine

/-- From `s` to `t` commentary alone has acted: no voice has changed, the announcement engine has asked for none, and
commentary has not been suspended. -/
structure Asked (s t : State) : Prop where
  rest : t = { s with comm := t.comm, voices := { s.voices with requests := t.voices.requests }, link := t.link }
  announcement : Requester.announcement ∈ t.voices.requests → Requester.announcement ∈ s.voices.requests
  awake : s.comm.state ≠ .suspended → t.comm.state ≠ .suspended

namespace Asked
variable {s t u : State}

theorem refl (s : State) : Asked s s := ⟨rfl, id, id⟩

theorem trans (h : Asked s t) (g : Asked t u) : Asked s u where
  rest := g.rest.trans (by rw [h.rest])
  announcement := h.announcement ∘ g.announcement
  awake := g.awake ∘ h.awake

theorem update (h : Asked s t) (comm : Commentary) (link : Link) (awake : t.comm.state ≠ .suspended → comm.state ≠ .suspended) :
    Asked s { t with comm := comm, link := link } := h.trans ⟨rfl, id, awake⟩

theorem fold {α : Type} {f : State → α → State} (hf : ∀ t a, Asked t (f t a)) (l : List α) (h : Asked s t) :
    Asked s (l.foldl f t) := by
  induction l generalizing t with
  | nil => exact h
  | cons a l ih => exact ih (h.trans (hf t a))

theorem foldPair {α β : Type} {f : State × β → α → State × β} (hf : ∀ p a, Asked p.1 (f p a).1) (l : List α)
    {p : State × β} (h : Asked s p.1) : Asked s (l.foldl f p).1 := by
  induction l generalizing p with
  | nil => exact h
  | cons a l ih => exact ih (h.trans (hf p a))

theorem ann (h : Asked s t) : t.ann = s.ann := by rw [h.rest]
theorem lights (h : Asked s t) : t.lights = s.lights := by rw [h.rest]
theorem voice (h : Asked s t) (w : Fin 16) : t.voice w = s.voice w := by rw [h.rest]; rfl

/-! ### Streams, firings and requests -/

theorem setStream (h : Asked s t) (i : Fin 12) (f : Stream → Stream) : Asked s (t.setStream i f) := h.update _ t.link id

theorem commReport (h : Asked s t) (e : CommentaryEvent) (cue : Nat) : Asked s (t.commReport e cue) := h.update t.comm _ id

theorem withdraw (h : Asked s t) (r : Requester) : Asked s (t.withdraw r) :=
  h.trans ⟨rfl, fun ha => (List.mem_filter.1 ha).1, id⟩

theorem askVoice (h : Asked s t) (i : Fin 12) : Asked s (t.askVoice (.stream i)) := by
  refine h.trans ⟨?_, fun ha => ?_, by rw [askVoice_comm]; exact id⟩
  · unfold State.askVoice
    split <;> rfl
  · exact ((mem_askVoice t).1 ha).resolve_right nofun

theorem settleEngine (h : Asked s t) : Asked s t.settleEngine := by
  obtain ⟨state, settled, suspended⟩ := settleEngine_comm t
  rw [settled]
  exact h.update _ t.link fun ht hs => ht (suspended.1 hs)

theorem beginFiring (h : Asked s t) (firing : Nat) : Asked s (t.beginFiring firing) := by
  unfold State.beginFiring
  split
  · exact h
  · split
    · exact h
    · exact h.update _ _ id

theorem loseSegment (h : Asked s t) (firing : Nat) : Asked s (t.loseSegment firing) := by
  unfold State.loseSegment
  split
  · exact h
  · split
    · dsimp only
      split <;> exact h.update _ _ id
    · exact h.update _ t.link id

theorem dropSegment (h : Asked s t) (told : List Nat) (cause : DropCause) (g : Segment) :
    Asked s (t.dropSegment told cause g).1 := by
  unfold State.dropSegment
  split
  · exact h.loseSegment _
  · exact (h.commReport _ _).loseSegment _

theorem dropSegments (h : Asked s t) (cause : DropCause) (segments : List Segment) : Asked s (t.dropSegments cause segments) :=
  fold (fun t _ => (refl t).loseSegment _) _ (fold (fun t _ => (refl t).commReport _ _) _ h)

/-! ### A stream's life (R67, R71) -/

theorem endDelay (h : Asked s t) (i : Fin 12) : Asked s (t.endDelay i) := by
  unfold State.endDelay
  split
  · exact h
  · dsimp only
    split
    · exact ((h.beginFiring _).setStream _ _).askVoice _
    · exact (h.beginFiring _).setStream _ _

theorem makeCurrent (h : Asked s t) (i : Fin 12) (g : Segment) : Asked s (t.makeCurrent i g) := by
  unfold State.makeCurrent
  dsimp only
  split
  · exact (h.setStream _ _).endDelay _
  · exact h.setStream _ _

theorem finishSegment (h : Asked s t) (i : Fin 12) : Asked s (t.finishSegment i) := by
  unfold State.finishSegment
  split
  · exact h
  · next g _ =>
    have left := ((h.withdraw (.stream i)).setStream i fun r =>
      { r with state := .quiet, current := none, next := none, voice := none }).loseSegment g.firing
    dsimp only
    split
    · exact left.settleEngine
    · exact (left.makeCurrent _ _).settleEngine

/-! ### Placement and resumption (R64, R65, R73 to R75) -/

theorem placeSegment (p : State × List Nat) (q : Fin 12 × Segment) : Asked p.1 (State.placeSegment p q).1 := by
  unfold State.placeSegment
  dsimp only
  split
  · exact (refl p.1).makeCurrent _ _
  · split
    · exact (refl p.1).setStream _ _
    · exact ((refl p.1).setStream _ _).dropSegment _ _ _

theorem place (h : Asked s t) (cue mark : Nat) (fit : Option Nat) (set : ClipSet) : Asked s (t.place cue mark fit set) := by
  unfold State.place
  dsimp only
  split
  · exact h
  · exact settleEngine (.foldPair placeSegment _ (h.update _ t.link id))

theorem placePending (h : Asked s t) : Asked s t.placePending := by
  unfold State.placePending
  split
  · exact h.settleEngine
  · exact ((h.update { t.comm with pendingFiring := none } t.link id).place _ _ _ _).settleEngine

theorem restartEntry (p : State × List Nat) (e : SuspendEntry) : Asked p.1 (State.restartEntry p e).1 := by
  unfold State.restartEntry
  dsimp only
  split
  · split
    · exact ((((refl p.1).setStream _ _).beginFiring _).setStream _ _).askVoice _
    · exact (((refl p.1).setStream _ _).beginFiring _).setStream _ _
  · exact foldPair (fun q g => (refl q.1).dropSegment _ _ _) _ (refl p.1)

theorem resume (h : Asked s t) : Asked s t.resume := by
  refine h.trans ?_
  have awoken : Asked t t.awoken := (refl t).update _ t.link fun _ => nofun
  by_cases ht : t.comm.state = .suspended
  · rw [resume_eq ht]
    split
    · exact (awoken.dropSegments _ _).placePending
    · split
      · exact (awoken.dropSegments _ _).placePending
      · exact (foldPair restartEntry _ awoken).settleEngine
  · rw [resume_awake ht]
    exact refl t

end Asked

/-- After a resumption commentary is not suspended. -/
theorem resume_awakes (s : State) : s.resume.comm.state ≠ .suspended := by
  by_cases h : s.comm.state = .suspended
  · obtain ⟨u, awake, -, settled⟩ := resume_settled h
    rw [settled]
    exact (Asked.refl u).settleEngine.awake awake
  · rw [resume_awake h]
    exact h

end Sys2Proof.Machine
end

section
/-! SUPPORT. What is left when no announcement follows the one that ends: a selection that finds none, and the end of an event
without an active entry (R89, R97, R98, R116). -/

namespace Sys2Proof.Machine

/-! ### What a start of a voice leaves alone -/

section
variable (s : State) (v : Fin 16) (clip page : Nat)

/-- A lookup changes the record of its voice alone. -/
theorem lookUp_others {w : Fin 16} (h : w ≠ v) : (s.lookUp v clip page).1.voice w = s.voice w := by
  unfold State.lookUp
  cases s.clip clip with
  | none => exact dropVoice_other s h
  | some e =>
    dsimp only
    split
    · exact (dropVoice_other _ h).trans (voice_setVoice_other s h _)
    · split <;> simp only [topUp_other _ h, voice_setVoice_other _ h]

theorem lookUp_requests : (s.lookUp v clip page).1.voices.requests = s.voices.requests := by
  unfold State.lookUp
  cases s.clip clip with
  | none => rfl
  | some e =>
    dsimp only
    split
    · rfl
    · split <;> rw [topUp_engine] <;> rfl

/-- A start changes the record of its voice alone. -/
theorem startVoice_others (o : Owner) (cls : AnnClass) {w : Fin 16} (h : w ≠ v) :
    (s.startVoice v o cls clip page).1.voice w = s.voice w := by
  unfold State.startVoice
  dsimp only
  split
  · exact (voice_setVoice_other _ h _).trans (voice_setVoice_other s h _)
  · exact (lookUp_others _ v clip page h).trans (voice_setVoice_other s h _)

@[simp] theorem startVoice_requests (o : Owner) (cls : AnnClass) :
    (s.startVoice v o cls clip page).1.voices.requests = s.voices.requests := by
  unfold State.startVoice
  dsimp only
  split
  · rfl
  · exact lookUp_requests _ v clip page

theorem startVoice_lights (o : Owner) (cls : AnnClass) : (s.startVoice v o cls clip page).1.lights = s.lights := by
  obtain ⟨m, hm⟩ := startVoice_beside s v o cls clip page s.ann s.comm s.lights s.link s.mixer s.cues
  rw [show s.beside s.ann s.comm s.lights s.link s.mixer s.cues = s from rfl] at hm
  rw [hm]
  rfl

end

/-! ### Grants without an active announcement (R116) -/

/-- From `s` to `t` commentary has acted and has been granted voices: no voice that was busy has changed, and commentary has not
been suspended. -/
structure Spoke (s t : State) : Prop where
  ann : t.ann = s.ann
  lights : t.lights = s.lights
  voice : ∀ w, (s.voice w).state ≠ .free → t.voice w = s.voice w
  announcement : Requester.announcement ∈ t.voices.requests → Requester.announcement ∈ s.voices.requests
  awake : s.comm.state ≠ .suspended → t.comm.state ≠ .suspended

namespace Spoke
variable {s t u : State}

theorem ofAsked (h : Asked s t) : Spoke s t := ⟨h.ann, h.lights, fun w _ => h.voice w, h.announcement, h.awake⟩

theorem trans (h : Spoke s t) (g : Spoke t u) : Spoke s u where
  ann := g.ann.trans h.ann
  lights := g.lights.trans h.lights
  voice w hw := (g.voice w (by rw [h.voice w hw]; exact hw)).trans (h.voice w hw)
  announcement := h.announcement ∘ g.announcement
  awake := g.awake ∘ h.awake

theorem startVoice (s : State) {v : Fin 16} (hv : (s.voice v).state = .free) (o : Owner) (cls : AnnClass) (clip page : Nat) :
    Spoke s (s.startVoice v o cls clip page).1 where
  ann := (startVoice_blocks s v o cls clip page).1
  lights := startVoice_lights s v clip page o cls
  voice w hw := startVoice_others s v clip page o cls fun eq => hw (eq ▸ hv)
  announcement := by rw [startVoice_requests]; exact id
  awake := by rw [(startVoice_blocks s v o cls clip page).2]; exact id

/-- A stream is granted a FREE voice. -/
theorem grantStream (s : State) (i : Fin 12) {v : Fin 16} (hv : (s.voice v).state = .free) : Spoke s (s.grantStream i v) := by
  unfold State.grantStream
  split
  · exact ofAsked (.refl s)
  · next g _ =>
    split
    · have started := startVoice s hv (.stream i) .notice g.clip (g.pageAt s.clock)
      revert started
      generalize s.startVoice v (.stream i) .notice g.clip (g.pageAt s.clock) = p
      intro started
      obtain ⟨a, o⟩ := p
      cases o
      · exact started.trans (ofAsked ((Asked.refl a).setStream _ _))
      · exact started.trans (ofAsked ((Asked.refl a).finishSegment i))
      · exact started.trans (ofAsked ((Asked.refl a).finishSegment i))
    · exact ofAsked ((Asked.refl s).finishSegment i)

theorem grants (n : Nat) (h : s.ann.active = none) : Spoke s (State.grants n s) := by
  induction n generalizing s with
  | zero => exact ofAsked (.refl s)
  | succ n ih =>
    have withdrawn : ∀ r, Spoke s (s.withdraw r) := fun r => ofAsked ((Asked.refl s).withdraw r)
    unfold State.grants
    split
    · have unheard : (s.withdraw .announcement).grantNotice = s.withdraw .announcement := by
        unfold State.grantNotice
        rw [show (s.withdraw .announcement).ann.active = none from h]
      rw [unheard]
      exact (withdrawn _).trans (ih h)
    · next v i hv _ =>
      have granted := (withdrawn (.stream i)).trans (grantStream (s.withdraw (.stream i)) i (freeVoice_eq_some.1 hv).1)
      have silent : ((s.withdraw (.stream i)).grantStream i v).ann.active = none := by rw [granted.ann]; exact h
      rw [tellFree_none silent]
      exact granted.trans (ih silent)
    · exact ofAsked (.refl s)

end Spoke

/-- The announcement engine and the class at the lights at the end of an event (R100). -/
theorem endEvent_announces (s : State) :
    s.endEvent.ann = s.arbitrate.ann ∧ s.endEvent.lights.cls = s.arbitrate.ann.announceClass := by
  unfold State.endEvent
  generalize s.arbitrate = a
  obtain ⟨seats, published, -⟩ := publish_eq a
  obtain ⟨port, write, settled, -⟩ := settlePort_eq a.publish
  rw [kick_ann, kick_lights, settled, published]
  exact ⟨rfl, (handClass_groups _ _ _ _ _).1⟩

/-! ### An entry that leaves the slot empty -/

theorem releases_voice (l : List (Fin 16)) (s : State) (w : Fin 16) :
    (l.foldl State.release s).voice w = if w ∈ l then (s.voice w).released else s.voice w := by
  induction l generalizing s with
  | nil => rfl
  | cons v l ih =>
    rw [List.foldl_cons, ih, voice_release]
    by_cases hv : v = w
    · subst hv
      simp [Voice.released_released]
    · simp [hv, Ne.symm hv]

theorem releases_eq (l : List (Fin 16)) (s : State) :
    ∃ table : Table Voice 16, l.foldl State.release s = { s with voices := { s.voices with voices := table } } := by
  induction l generalizing s with
  | nil => exact ⟨s.voices.voices, rfl⟩
  | cons v l ih =>
    obtain ⟨table, released⟩ := ih (s.release v)
    exact ⟨table, released⟩

/-- From `s` entry `x` has left the active slot with an outcome, and nothing has followed it there. -/
structure Left (s t : State) (x : Entry) (o : AnnOutcome) : Prop where
  active : t.ann.active = none
  hang : t.ann.hangTimer = none
  withdrawn : Requester.announcement ∉ t.voices.requests
  released : ∀ v ∈ x.voices ++ x.chimeVoice.toList, (s.voice v).state ≠ .free → t.voice v = (s.voice v).released
  ended : s.link.reports.length < 16 → t.holdsReport (.announceEvent (.ended x.ticket o) x.cls x.source x.cue s.clock)
  awake : t.comm.state ≠ .suspended

section
variable {s t : State} {x : Entry} {o : AnnOutcome}

/-- What `State.leaveActive` leaves of the part. -/
theorem leaveActive_eq (s : State) :
    ∃ m : Mixer, s.leaveActive = { s with ann := { s.ann with active := none, hangTimer := none }, mixer := m } := by
  unfold State.leaveActive
  dsimp only
  split <;> exact ⟨_, rfl⟩

/-- The active entry's voices enter their fade, its request is withdrawn, and the slot empties (R95, R97, R98). -/
theorem releaseLeave_eq (ha : s.ann.active = some x) :
    ∃ (table : Table Voice 16) (m : Mixer),
      s.releaseActive.leaveActive =
        { s with
          voices := { s.voices with voices := table, requests := s.voices.requests.filter (· ≠ .announcement) }
          ann := { s.ann with active := none, hangTimer := none }, mixer := m } ∧
      ∀ w, table.get w = if w ∈ x.voices ++ x.chimeVoice.toList then (s.voice w).released else s.voice w := by
  obtain ⟨table, released⟩ := releases_eq (x.voices ++ x.chimeVoice.toList) (s.withdraw .announcement)
  obtain ⟨m, left⟩ := leaveActive_eq ((x.voices ++ x.chimeVoice.toList).foldl State.release (s.withdraw .announcement))
  refine ⟨table, m, ?_, fun w => ?_⟩
  · unfold State.releaseActive
    simp only [ha]
    rw [left, released]
    rfl
  · have voice := releases_voice (x.voices ++ x.chimeVoice.toList) (s.withdraw .announcement) w
    rw [released] at voice
    exact voice

theorem endActive_eq (ha : s.ann.active = some x) (o : AnnOutcome) :
    s.endActive o = s.releaseActive.leaveActive.annEnded x o := by
  unfold State.endActive
  simp only [ha]

theorem takeCandidate_empty {a : Announcements} (hq : a.queue = []) (hs : a.stack = []) : a.takeCandidate = none := by
  unfold Announcements.takeCandidate
  rw [hq, hs]

/-- With nothing waiting the active entry's end leaves the slot empty (R89). -/
theorem endSelect_left (ha : s.ann.active = some x) (hq : s.ann.queue = []) (hs : s.ann.stack = []) (o : AnnOutcome) :
    Left s (s.endActive o).select x o := by
  obtain ⟨table, m, ended, voice⟩ := releaseLeave_eq ha
  generalize hu : ({ s with
    voices := { s.voices with voices := table, requests := s.voices.requests.filter (· ≠ .announcement) }
    ann := { s.ann with active := none, hangTimer := none }, mixer := m } : State) = u at ended
  have drained : (s.endActive o).select = (u.annEnded x o).handClass.resume := by
    rw [endActive_eq ha, ended]
    exact selectRounds_drained _ (by subst hu; rfl) (takeCandidate_empty (by subst hu; exact hq) (by subst hu; exact hs))
  have resumed := (Asked.refl (u.annEnded x o).handClass).resume
  have ann : (u.annEnded x o).handClass.ann = { s.ann with active := none, hangTimer := none } := by subst hu; rfl
  rw [drained]
  refine ⟨by rw [resumed.ann, ann], by rw [resumed.ann, ann], fun ha => ?_, fun v hv _ => ?_, fun room => ?_, resume_awakes _⟩
  · subst hu
    simpa using (List.mem_filter.1 (resumed.announcement ha)).2
  · rw [resumed.voice]
    subst hu
    exact (voice v).trans (if_pos hv)
  · refine (resume_engines (.refl _)).reports _ rfl ?_
    subst hu
    exact report_holds _ _ room

/-- The end of the event keeps the slot empty; the lights have been handed class none (R100). -/
theorem Left.endEvent (h : Left s t x o) : Left s t.endEvent x o ∧ t.endEvent.lights.cls = .none := by
  have spoke : Spoke t t.arbitrate := by
    unfold State.arbitrate
    exact Spoke.grants grantLimit h.active
  obtain ⟨comm, voices⟩ := endEvent_settles t
  obtain ⟨ann, cls⟩ := endEvent_announces t
  have ann' := ann.trans spoke.ann
  refine ⟨⟨by rw [ann']; exact h.active, by rw [ann']; exact h.hang, fun ha => ?_, fun v hv busy => ?_,
    fun room => (endEvent_frame t).reports _ rfl (h.ended room), ?_⟩, ?_⟩
  · rw [voices] at ha
    exact h.withdrawn (spoke.announcement ha)
  · have released := h.released v hv busy
    have still : (t.voice v).state ≠ .free := by rw [released, ne_eq, Voice.released_free]; exact busy
    rw [State.voice, voices]
    exact (spoke.voice v still).trans released
  · rw [comm]
    exact spoke.awake h.awake
  · rw [cls, spoke.ann, Announcements.announceClass, h.active]

end
end Sys2Proof.Machine
end

section
/-! OBLIGATION. The press-to-talk line, the hang timer and a waiting NOTICE's max wait (R91, R96, R97). -/

namespace Sys2Proof.Machine

/-! ### The line (R96, R97) -/

/-- The state in which the announcement engine takes an edge of the line. -/
def State.lineAt (s : State) (pressed : Bool) : State := { s with power := { s.power with pttLine := pressed } }

theorem pttPress_next {s : State} (awake : s.power.state = .awake) (line : s.power.pttLine = false) :
    exec .pttPress s = .next (s.lineAt true).livePress.endEvent := by
  have awake' : (s.lineAt true).power.state = .awake := awake
  have running : (s.lineAt true).running = true := by unfold State.running; rw [awake']
  have woken : (s.lineAt true).wakeInput .ptt = s.lineAt true := by unfold State.wakeInput; rw [awake']
  simp only [exec, execPttPress, line, Bool.false_eq_true, if_false]
  rw [show ({ s with power := { s.power with pttLine := true } } : State) = s.lineAt true from rfl, if_pos running, woken]

theorem pttRelease_next {s : State} (running : s.running = true) (line : s.power.pttLine = true) :
    exec .pttRelease s = .next (s.lineAt false).liveRelease.endEvent := by
  have running' : (s.lineAt false).running = true := running
  simp only [exec, execPttRelease, line, if_true]
  rw [show ({ s with power := { s.power with pttLine := false } } : State) = s.lineAt false from rfl, if_pos running']

theorem livePress_cues (s : State) : s.livePress.cues = s.cues := by
  unfold State.livePress
  dsimp only
  split
  · split
    · rfl
    · split
      · rfl
      · exact admitSilently_cues _ _
  · split
    · rfl
    · exact admitSilently_cues _ _

/-- What an edge of the line changes of the part beside the engines. -/
structure Edged (s t : State) (pressed : Bool) : Prop where
  line : t.power.pttLine = pressed
  pressed : t.ann.pressed = pressed
  tracker : t.tracker = s.tracker
  settings : t.settings = s.settings
  cells : t.store.cells = s.store.cells
  cues : t.cues = s.cues

theorem livePress_edged (s : State) : Edged s (s.lineAt true).livePress.endEvent true := by
  have frame := endEvent_frame (s.lineAt true).livePress
  have acts := livePress_acts (s.lineAt true)
  exact ⟨(congrArg Power.pttLine (frame.power.trans acts.power)).trans rfl, frame.pressed.trans acts.pressed,
    frame.tracker.trans acts.tracker, frame.settings.trans acts.settings,
    frame.cells.trans (congrArg Store.cells acts.store), frame.cues.trans (livePress_cues _)⟩

theorem liveRelease_edged (s : State) : Edged s (s.lineAt false).liveRelease.endEvent false := by
  have frame := endEvent_frame (s.lineAt false).liveRelease
  have engines := liveRelease_engines (s.lineAt false)
  have acts := Acts.ofEngines engines
  exact ⟨(congrArg Power.pttLine (frame.power.trans acts.power)).trans rfl, frame.pressed.trans acts.pressed,
    frame.tracker.trans acts.tracker, frame.settings.trans acts.settings,
    frame.cells.trans (congrArg Store.cells acts.store), frame.cues.trans engines.cues⟩

/-! ### A press (R96) -/

/-- A LIVE entry that becomes active while every voice is FREE is heard at once. -/
theorem activate_live_plays {s : State} {e : Entry} (hc : e.cls = .live) (free : s.allFree = true) :
    (s.activate e).ann.active = some { e with phase := .playing } ∧ (s.activate e).comm.state = .suspended := by
  generalize hu : (s.setAnn fun a => { a with active := some { e with phase := .queued } }).handClass = u
  have suspended := (Commented.refl u).suspend
  have active : u.suspend.ann.active = some { e with phase := .queued } := by rw [suspended.ann]; subst hu; rfl
  have free' : u.suspend.allFree = true := by rw [suspended.allFree]; subst hu; exact free
  have notice : e.cls ≠ .notice := by rw [hc]; decide
  have started : s.activate e = u.suspend.startActive := by
    unfold State.activate
    simp only [hu, if_neg notice, free', if_true]
  have live : ({ e with phase := .queued } : Entry).cls = .live := hc
  rw [started]
  refine ⟨?_, by rw [(startActive_live active live).1]; exact suspend_state u⟩
  unfold State.startActive State.soundNotice
  simp only [active, if_pos live, if_neg notice]
  show (u.suspend.setActive fun e => { e with phase := .playing }).ann.active = _
  rw [setActive_ann, active]
  rfl

theorem freshTicket_empty {a : Announcements} (h : a.held = []) : a.freshTicket = a.ticketCounter % 256 := by
  unfold Announcements.freshTicket
  rw [h, List.range_succ_eq_map]
  rfl

/-- With nothing held a press makes its LIVE entry heard at once when every voice is FREE. -/
theorem livePress_plays {s : State} (ha : s.ann.active = none) (hq : s.ann.queue = []) (hs : s.ann.stack = [])
    (free : s.allFree = true) :
    ∃ e, s.livePress.ann.active = some e ∧ e.cls = .live ∧ e.phase = .playing ∧ e.ticket = s.ann.ticketCounter % 256 ∧
      s.livePress.comm.state = .suspended := by
  generalize hu : s.setAnn (fun a => { a with pressed := true }) = u
  have ha' : u.ann.active = none := by subst hu; exact ha
  have hq' : u.ann.queue = [] := by subst hu; exact hq
  have hs' : u.ann.stack = [] := by subst hu; exact hs
  have held : u.ann.held = [] := by simp [Announcements.held, ha', hq', hs']
  have noDuplicate : u.ann.duplicate u.liveEntry = none := by rw [Announcements.duplicate, held]; rfl
  have noneActive : u.ann.preempts u.liveEntry = false := by rw [Announcements.preempts, ha']
  have pressed : s.livePress = (u.joinQueue u.liveEntry).1 := by
    rw [← admitSilently_joins noDuplicate noneActive (by rw [hq']; decide)]
    unfold State.livePress
    simp only [hu, ha', Announcements.liveHeld, held, List.any_nil, Bool.false_eq_true, if_false]
  obtain ⟨a, -, -, joined⟩ := joinQueue_empty (e := u.liveEntry) ha' hq' hs'
  obtain ⟨active, suspended⟩ := activate_live_plays (s := u.setAnn fun _ => a) (e := u.ann.only u.liveEntry) rfl
    (by subst hu; exact free)
  have unexpired : u.expired u.liveEntry = false := rfl
  rw [pressed, joined, unexpired, if_neg Bool.false_ne_true, selectRounds_active 1 (by rw [active]; nofun)]
  exact ⟨_, active, rfl, rfl, (freshTicket_empty held).trans (by subst hu; rfl), suspended⟩

/-- A press in HANG returns the entry to PLAYING. -/
theorem livePress_returns {s : State} {e : Entry} (ha : s.ann.active = some e) (hc : e.cls = .live) (hp : e.phase = .hang) :
    s.livePress.ann.active = some { e with phase := .playing } ∧ s.livePress.ann.hangTimer = none ∧
      s.livePress.voices = s.voices := by
  unfold State.livePress
  simp only [setAnn_ann, ha, hc, hp, and_self, if_true]
  refine ⟨?_, rfl, rfl⟩
  simp [ha, hc]

/-! ### A release (R97) -/

/-- A LIVE entry in PLAYING enters HANG. -/
theorem liveRelease_hangs {s : State} {e : Entry} (ha : s.ann.active = some e) (hc : e.cls = .live) (hp : e.phase = .playing)
    (hang : s.settings.liveHang ≠ 0) :
    s.liveRelease.ann.active = some { e with phase := .hang } ∧
      s.liveRelease.ann.hangTimer = some (after s.clock s.settings.liveHang) ∧ s.liveRelease.voices = s.voices := by
  unfold State.liveRelease
  simp only [setAnn_ann, setAnn_settings, setAnn_clock, ha, hc, hp, hang, if_true, if_false]
  refine ⟨?_, rfl, rfl⟩
  simp [ha, hc]

/-- A LIVE entry in HANG stays there. -/
theorem liveRelease_stays {s : State} {e : Entry} (ha : s.ann.active = some e) (hc : e.cls = .live) (hp : e.phase = .hang) :
    s.liveRelease = s.setAnn fun a => { a with pressed := false } := by
  unfold State.liveRelease
  simp only [setAnn_ann, ha, hc, hp, if_true]

/-! ### The timers (R91, R97) -/

theorem hangTimerExpiry_next {s : State} (running : s.running = true) :
    exec .hangTimerExpiry s = .next (if s.hangDue then (s.endActive .completed).select else s).endEvent := by
  simp only [exec, execHangTimerExpiry]
  exact event_next _ _ running

theorem noticeMaxWait_next {s : State} (running : s.running = true) :
    exec .noticeMaxWait s = .next (if s.noticeDue then (s.endActive .expired).select else s).endEvent := by
  simp only [exec, execNoticeMaxWait]
  exact event_next _ _ running

theorem hangDue_eq {s : State} {d : Clock} (h : s.ann.hangTimer = some d) : s.hangDue = reached s.clock d := by
  simp [State.hangDue, h]

/-- The max wait of a waiting NOTICE has passed (log 14). -/
theorem noticeDue_iff {s : State} {e : Entry} {w : Nat} (ha : s.ann.active = some e) (hc : e.cls = .notice)
    (hp : e.phase = .queued) (he : e.expiry = .wait w) : s.noticeDue = true ↔ w < (s.clock - e.admitted).toNat := by
  simp only [State.noticeDue, ha, Option.any_some, hc, hp, he, decide_true, Bool.true_and, decide_eq_true_eq]
  exact Iff.rfl

theorem endSelect_tracker (s : State) (o : AnnOutcome) : (s.endActive o).select.endEvent.tracker = s.tracker :=
  (select_engines (endActive_engines (.refl s) o)).event_keeps.1

/-- Settles O38: an edge of the line by `livePress_plays`, `livePress_returns`, `liveRelease_hangs` and `liveRelease_stays`, a
timer's expiry by `Left`. -/
theorem pressToTalk : Obligations.PressToTalk := by
  refine ⟨fun s awake line => ?_, fun s running line => ?_, fun s d e running timer ha hq hs _ => ?_,
    fun s w e running ha hc hp he hq hs => ?_, fun s => ⟨fun line => ?_, fun line => ?_⟩⟩
  · have edged := livePress_edged s
    refine ⟨_, pttPress_next awake line, edged.line, edged.pressed, edged.tracker, edged.settings, edged.cells, edged.cues,
      fun ha hq hs free idle _ => ?_, fun e ha hc hp idle => ?_⟩
    · obtain ⟨e, active, live, playing, ticket, suspended⟩ := livePress_plays (s := s.lineAt true) ha hq hs free
      obtain ⟨comm, ann, -, mixer, -⟩ := (endEvent_frame (s.lineAt true).livePress).ungranted
        (.inl (livePress_suspends (s := s.lineAt true) ha hq hs idle).2)
      refine ⟨e, by rw [ann]; exact active, live, playing, ticket, ?_, by rw [comm]; exact suspended⟩
      rw [mixer]
      simp [Announcements.microphone, active, live, playing]
    · obtain ⟨active, timer, voices⟩ := livePress_returns (s := s.lineAt true) ha hc hp
      obtain ⟨-, ann, -⟩ := endEvent_ungranted (s := (s.lineAt true).livePress) (by rw [voices]; exact idle)
      rw [ann]
      exact ⟨active, timer⟩
  · have edged := liveRelease_edged s
    refine ⟨_, pttRelease_next running line, edged.line, edged.pressed, edged.tracker, edged.settings, edged.cells, edged.cues,
      fun e ha hc idle => ⟨fun hp hang => ?_, fun hp => ?_⟩⟩
    · obtain ⟨active, timer, voices⟩ := liveRelease_hangs (s := s.lineAt false) ha hc hp hang
      obtain ⟨-, ann, -⟩ := endEvent_ungranted (s := (s.lineAt false).liveRelease) (by rw [voices]; exact idle)
      rw [ann]
      exact ⟨active, timer⟩
    · have stays := liveRelease_stays (s := s.lineAt false) ha hc hp
      obtain ⟨-, ann, -⟩ := endEvent_ungranted (s := (s.lineAt false).liveRelease) (by rw [stays]; exact idle)
      rw [ann, stays]
      exact ⟨ha, rfl⟩
  · refine ⟨_, hangTimerExpiry_next running, fun due => ?_, fun early => ?_⟩
    · rw [if_pos ((hangDue_eq timer).trans due)]
      have left := (endSelect_left ha hq hs .completed).endEvent.1
      exact ⟨left.active, left.hang, endSelect_tracker s .completed⟩
    · rw [if_neg (by rw [hangDue_eq timer, early]; exact Bool.false_ne_true)]
      exact endEvent_frame s
  · have due := noticeDue_iff ha hc hp he
    refine ⟨_, noticeMaxWait_next running, fun late _ => ?_, fun early => ?_⟩
    · rw [if_pos (due.2 late)]
      have left := (endSelect_left ha hq hs .expired).endEvent.1
      exact ⟨left.active, left.withdrawn, endSelect_tracker s .expired⟩
    · rw [if_neg fun passed => Nat.not_lt.2 early (due.1 passed)]
      exact endEvent_frame s
  · simp only [exec, execPttPress, line, if_true]
  · simp only [exec, execPttRelease, line, Bool.false_eq_true, if_false]

end Sys2Proof.Machine
end

section
/-! SUPPORT. The announcement queue: the entry that gives way, and the queue sorted again (R81, R87, R101). -/

namespace Sys2Proof.Machine

/-! ### The newest entry of the lowest-ranked class (R87) -/

section
variable {a : Announcements} {old : Entry}

theorem rank_le_lowestRank (code : Fin 6) {queue : List Entry} {e : Entry} (he : e ∈ queue) :
    rank code e.cls ≤ lowestRank code queue := by
  have grows : ∀ (l : List Entry) (n : Nat),
      n ≤ l.foldl (fun n e => max n (rank code e.cls)) n ∧
        ∀ e ∈ l, rank code e.cls ≤ l.foldl (fun n e => max n (rank code e.cls)) n := by
    intro l
    induction l with
    | nil => exact fun n => ⟨le_rfl, fun e he => absurd he List.not_mem_nil⟩
    | cons x l ih =>
      intro n
      obtain ⟨above, all⟩ := ih (max n (rank code x.cls))
      refine ⟨(le_max_left _ _).trans above, fun e he => ?_⟩
      rcases List.mem_cons.1 he with rfl | he
      · exact (le_max_right _ _).trans above
      · exact all e he
  exact (grows queue 0).2 e he

/-- The newer of the entry found so far and one more. -/
def Announcements.newer (a : Announcements) (best : Option Entry) (e : Entry) : Option Entry :=
  match best with
  | none => some e
  | some b => if a.age e < a.age b then some e else some b

theorem evictable_eq (a : Announcements) :
    a.evictable =
      (a.queue.filter fun e => decide (rank a.code e.cls = lowestRank a.code a.queue)).foldl a.newer none := rfl

theorem newer_spec (a : Announcements) (best : Option Entry) (e : Entry) :
    ∃ b, a.newer best e = some b ∧ (b = e ∨ best = some b) ∧ a.age b ≤ a.age e ∧ ∀ c, best = some c → a.age b ≤ a.age c := by
  unfold Announcements.newer
  cases best with
  | none => exact ⟨e, rfl, .inl rfl, le_rfl, fun c hc => by cases hc⟩
  | some b =>
    dsimp only
    split
    · next newer => exact ⟨e, rfl, .inl rfl, le_rfl, fun c hc => by cases hc; exact newer.le⟩
    · next older => exact ⟨b, rfl, .inr rfl, Nat.not_lt.1 older, fun c hc => by cases hc; exact le_rfl⟩

theorem foldl_newer (a : Announcements) (l : List Entry) (best : Option Entry) {b : Entry}
    (h : l.foldl a.newer best = some b) :
    (b ∈ l ∨ best = some b) ∧ (∀ e ∈ l, a.age b ≤ a.age e) ∧ ∀ c, best = some c → a.age b ≤ a.age c := by
  induction l generalizing best with
  | nil => exact ⟨.inr h, fun e he => absurd he List.not_mem_nil, fun c hc => by cases hc.symm.trans h; exact le_rfl⟩
  | cons x l ih =>
    obtain ⟨n, hn, source, newest, before⟩ := newer_spec a best x
    obtain ⟨mem, youngest, younger⟩ := ih _ h
    have first := younger n hn
    refine ⟨?_, fun e he => ?_, fun c hc => first.trans (before c hc)⟩
    · rcases mem with mem | eq
      · exact .inl (List.mem_cons_of_mem _ mem)
      · cases hn.symm.trans eq
        exact source.imp (fun eq => by rw [eq]; exact List.mem_cons_self) id
    · rcases List.mem_cons.1 he with rfl | he
      · exact first.trans newest
      · exact youngest e he

/-- The entry that gives way is of the lowest rank in the queue, and the newest of that rank. -/
theorem evictable_spec (h : a.evictable = some old) :
    old ∈ a.queue ∧ (∀ e ∈ a.queue, rank a.code e.cls ≤ rank a.code old.cls) ∧
      ∀ e ∈ a.queue, rank a.code e.cls = rank a.code old.cls → a.age old ≤ a.age e := by
  rw [evictable_eq] at h
  obtain ⟨mem, newest, -⟩ := foldl_newer a _ _ h
  obtain ⟨queued, lowest⟩ := List.mem_filter.1 (mem.resolve_right nofun)
  have lowest := of_decide_eq_true lowest
  refine ⟨queued, fun e he => lowest ▸ rank_le_lowestRank a.code he, fun e he same => newest e ?_⟩
  exact List.mem_filter.2 ⟨he, decide_eq_true (same.trans lowest)⟩

end

/-! ### The queue sorted again (R101) -/

/-- Taken class by class, the entries of some classes are those entries. -/
theorem byClass_perm (queue : List Entry) {classes : List AnnClass} (distinct : classes.Nodup) :
    (classes.flatMap fun c => queue.filter fun e => decide (e.cls = c)).Perm
      (queue.filter fun e => decide (e.cls ∈ classes)) := by
  induction classes with
  | nil => simp
  | cons c classes ih =>
    obtain ⟨new, distinct⟩ := List.nodup_cons.1 distinct
    have parts := List.filter_append_perm (fun e : Entry => decide (e.cls = c))
      (queue.filter fun e => decide (e.cls ∈ c :: classes))
    rw [List.filter_filter, List.filter_filter] at parts
    refine List.Perm.trans ?_ parts
    rw [List.flatMap_cons]
    have first : (fun e : Entry => decide (e.cls = c) && decide (e.cls ∈ c :: classes)) = fun e => decide (e.cls = c) := by
      funext e
      by_cases he : e.cls = c <;> simp [he]
    have others : (fun e : Entry => !decide (e.cls = c) && decide (e.cls ∈ c :: classes)) =
        fun e => decide (e.cls ∈ classes) := by
      funext e
      by_cases he : e.cls = c <;> simp [he, new]
    rw [first, others]
    exact (ih distinct).append_left _

theorem classOrder_nodup : ∀ code : Fin 6, (classOrder code.val).Nodup := by decide

theorem mem_classOrder : ∀ (code : Fin 6) (c : AnnClass), c ∈ classOrder code.val := by
  intro code c
  cases c <;> revert code <;> decide

theorem classOrder_ranked :
    ∀ code : Fin 6, (classOrder code.val).Pairwise fun a b => rank code a ≤ rank code b := by decide

theorem resort_perm (code : Fin 6) (queue : List Entry) : (resort code queue).Perm queue := by
  have all := byClass_perm queue (classOrder_nodup code)
  rwa [List.filter_eq_self.2 fun e _ => decide_eq_true (mem_classOrder code e.cls)] at all

theorem resort_ranked (code : Fin 6) (queue : List Entry) :
    (resort code queue).Pairwise fun a b => rank code a.cls ≤ rank code b.cls := by
  have class_of : ∀ {c : AnnClass} {e : Entry}, e ∈ (queue.filter fun e => decide (e.cls = c)) → e.cls = c :=
    fun he => of_decide_eq_true (List.mem_filter.1 he).2
  refine List.pairwise_flatMap.2 ⟨fun c _ => ?_, (classOrder_ranked code).imp fun le x hx y hy => ?_⟩
  · refine List.pairwise_of_forall_mem_list fun x hx y hy => ?_
    rw [class_of hx, class_of hy]
  · rw [class_of hx, class_of hy]
    exact le

end Sys2Proof.Machine
end

section
/-! SUPPORT. An ANNOUNCE by what becomes of its entry (R83, R85 to R88). -/

namespace Sys2Proof.Machine

/-! ### What a suspension does to the voices (R72) -/

theorem loseSegment_voice (s : State) (firing : Nat) (v : Fin 16) : (s.loseSegment firing).voice v = s.voice v := by
  rw [State.voice, loseSegment_voices]
  rfl

/-- A voice is as it was or released. -/
def fadesOnly (s t : State) : Prop := ∀ v, t.voice v = s.voice v ∨ t.voice v = (s.voice v).released

theorem fadesOnly.trans {s t u : State} (h : fadesOnly s t) (g : fadesOnly t u) : fadesOnly s u := by
  intro v
  rcases h v with hv | hv <;> rcases g v with gv | gv <;> rw [gv, hv]
  · exact .inl rfl
  · exact .inr rfl
  · exact .inr rfl
  · exact .inr (Voice.released_released _)

theorem suspendStream_fades (p : State × List SuspendEntry) (i : Fin 12) : fadesOnly p.1 (State.suspendStream p i).1 := by
  have left : fadesOnly p.1 ((p.1.letGo i).setStream i fun r => { r with state := .quiet, current := none, next := none }) := by
    intro v
    show (p.1.letGo i).voice v = _ ∨ (p.1.letGo i).voice v = _
    rw [letGo_voice]
    split
    · exact .inr rfl
    · exact .inl rfl
  unfold State.suspendStream
  dsimp only
  split
  · exact fun _ => .inl rfl
  · generalize (if (p.1.stream i).state = .delay then 0 else _) = page
    split
    · exact left
    · exact fun v => by rw [loseSegment_voice]; exact left v

theorem suspend_fades (s : State) : fadesOnly s s.suspend := by
  have streams : ∀ (l : List (Fin 12)) (p : State × List SuspendEntry), fadesOnly p.1 (l.foldl State.suspendStream p).1 := by
    intro l
    induction l with
    | nil => exact fun _ _ => .inl rfl
    | cons i l ih => exact fun p => (suspendStream_fades p i).trans (ih _)
  have all := streams allSlots (s, [])
  unfold State.suspend
  split
  · exact fun _ => .inl rfl
  · revert all
    generalize allSlots.foldl State.suspendStream (s, []) = p
    exact fun all => all

/-! ### Where a formed entry goes (R85 to R88) -/

section
variable {s : State} {e x old : Entry}

theorem admitEntry_merges {h : Entry} (hd : s.ann.duplicate e = some h) : s.admitEntry e = (s, .merged h.ticket) := by
  unfold State.admitEntry
  simp only [hd]

theorem admitEntry_preempts (hd : s.ann.duplicate e = none) (hp : s.ann.preempts e = true) : s.admitEntry e = s.preempt e := by
  unfold State.admitEntry
  simp only [hd, hp, if_true]

theorem admitEntry_joins (hd : s.ann.duplicate e = none) (hp : s.ann.preempts e = false) (hq : s.ann.queue.length < 8) :
    s.admitEntry e = s.joinQueue e := by
  unfold State.admitEntry
  simp only [hd, hp, Bool.false_eq_true, if_false, if_pos hq]

theorem admitEntry_full (hd : s.ann.duplicate e = none) (hp : s.ann.preempts e = false) (hq : 8 ≤ s.ann.queue.length)
    (ho : s.ann.evictable = some old) (hr : rank s.ann.code old.cls ≤ rank s.ann.code e.cls) : s.admitEntry e = (s, .full) := by
  unfold State.admitEntry
  simp only [hd, hp, Bool.false_eq_true, if_false, if_neg (Nat.not_lt.2 hq), ho, if_neg (Nat.not_lt.2 hr)]

/-- The state with an entry of the queue taken out and reported EVICTED. -/
def State.evict (s : State) (old : Entry) : State :=
  (s.setAnn fun a => { a with queue := a.queue.erase old }).annEnded old .evicted

theorem admitEntry_evicts (hd : s.ann.duplicate e = none) (hp : s.ann.preempts e = false) (hq : 8 ≤ s.ann.queue.length)
    (ho : s.ann.evictable = some old) (hr : rank s.ann.code e.cls < rank s.ann.code old.cls) :
    s.admitEntry e = (s.evict old).joinQueue e := by
  unfold State.admitEntry
  simp only [hd, hp, Bool.false_eq_true, if_false, if_neg (Nat.not_lt.2 hq), ho, if_pos hr]
  rfl

theorem joinQueue_outcome (s : State) (e : Entry) : (s.joinQueue e).2 = .admitted s.ann.freshTicket := rfl

/-- Behind an active entry nothing but the queue and its counters changes. -/
theorem joinQueue_waits (h : s.ann.active ≠ none) : (s.joinQueue e).1 = s.setAnn (·.joined e) := by
  rw [joinQueue_eq, select_active (s := s.setAnn (·.joined e)) h]

/-- The counters after an admission to the queue, whatever is selected. -/
theorem joinQueue_counters (s : State) (e : Entry) :
    (s.joinQueue e).1.ann.ticketCounter = (s.ann.freshTicket + 1) % 256 ∧
      (s.joinQueue e).1.ann.admissionCounter = s.ann.admissionCounter + 1 := by
  have selected := select_engines (.refl (s.setAnn (·.joined e)))
  rw [joinQueue_eq]
  exact ⟨congrArg Fixed.tickets selected.fixed, congrArg Fixed.admissions selected.fixed⟩

/-! ### Pre-emption (R86, R88) -/

/-- An entry as it stands on the stack, to start again (R88). -/
def Entry.again (x : Entry) : Entry :=
  { x with phase := .queued, map := none, speakerVoice := none, chimeVoice := none, restart := true, voices := [] }

/-- An entry that gives way is on the stack to start again, unless it is a CUE entry of another route. -/
theorem pushStack_eq (s : State) (x : Entry) :
    ∃ (stack : List Entry) (link : Link), s.pushStack x = { s with ann := { s.ann with stack := stack }, link := link } ∧
      ((x.source = .cue ∧ x.route ≠ some s.cues.routeNumber) → stack = s.ann.stack) ∧
      (s.cues.routeState = .ready → (x.source = .cue → x.route = some s.cues.routeNumber) →
        stack = (x.again :: s.ann.stack).take 4) := by
  unfold State.pushStack
  split
  · next gone =>
    refine ⟨s.ann.stack, _, rfl, fun _ => rfl, fun ready same => ?_⟩
    rcases gone.2 with other | unready
    · exact absurd (same gone.1) other
    · exact absurd ready unready
  · next stays =>
    have pushed : (x.source = .cue ∧ x.route ≠ some s.cues.routeNumber) → ∀ stack : List Entry, stack = s.ann.stack :=
      fun other => absurd ⟨other.1, .inl other.2⟩ stays
    dsimp only
    split
    · exact ⟨_, _, rfl, fun other => pushed other _, fun _ _ => rfl⟩
    · exact ⟨_, s.link, rfl, fun other => pushed other _, fun _ _ => rfl⟩

/-- The active entry `x` gives way to a pre-empting one. -/
def State.giveWay (s : State) (x : Entry) : State :=
  if x.phase = .hang then s.releaseActive.leaveActive.annEnded x .completed else s.releaseActive.leaveActive.pushStack x

theorem giveWay_eq (ha : s.ann.active = some x) :
    ∃ (table : Table Voice 16) (stack : List Entry) (m : Mixer) (link : Link),
      s.giveWay x =
        { s with
          voices := { s.voices with voices := table, requests := s.voices.requests.filter (· ≠ .announcement) }
          ann := { s.ann with active := none, hangTimer := none, stack := stack }, mixer := m, link := link } ∧
      (∀ w, table.get w = if w ∈ x.voices ++ x.chimeVoice.toList then (s.voice w).released else s.voice w) ∧
      (x.phase = .hang ∨ (x.source = .cue ∧ x.route ≠ some s.cues.routeNumber) → stack = s.ann.stack) ∧
      (s.cues.routeState = .ready → x.phase ≠ .hang → (x.source = .cue → x.route = some s.cues.routeNumber) →
        stack = (x.again :: s.ann.stack).take 4) := by
  obtain ⟨table, m, left, voice⟩ := releaseLeave_eq ha
  unfold State.giveWay
  rw [left]
  split
  · next hp => exact ⟨table, s.ann.stack, m, _, rfl, voice, fun _ => rfl, fun _ other => absurd hp other⟩
  · next hp =>
    obtain ⟨stack, link, pushed, foreign, own⟩ := pushStack_eq ({ s with
      voices := { s.voices with voices := table, requests := s.voices.requests.filter (· ≠ .announcement) }
      ann := { s.ann with active := none, hangTimer := none }, mixer := m } : State) x
    exact ⟨table, stack, m, link, pushed, voice, fun gone => foreign (gone.resolve_left hp), fun ready _ => own ready⟩

theorem preempt_eq (ha : s.ann.active = some x) (e : Entry) :
    s.preempt e =
      ((((s.giveWay x).giveTicket e).1.activate ((s.giveWay x).giveTicket e).2).select,
        .admitted (s.giveWay x).ann.freshTicket) := by
  unfold State.preempt State.giveWay
  simp only [ha]
  rfl

theorem activate_suspends (hc : e.cls ≠ .notice) (hf : s.allFree = false) :
    s.activate e = (s.setAnn fun a => { a with active := some { e with phase := .queued } }).handClass.suspend := by
  generalize ha : (s.setAnn fun a => { a with active := some { e with phase := .queued } }).handClass = a
  have free : a.suspend.allFree = false := by
    rw [(Commented.refl a).suspend.allFree]
    subst ha
    exact hf
  unfold State.activate
  simp only [ha, if_neg hc, free, Bool.false_eq_true, if_false]

/-- What a pre-emption has come to while a voice is busy: entry `x` has given way to `e`, which waits. -/
structure Preempted (s t : State) (x e : Entry) (ticket : Nat) : Prop where
  queue : t.ann.queue = s.ann.queue
  hang : t.ann.hangTimer = none
  counter : t.ann.ticketCounter = (ticket + 1) % 256
  active : t.ann.active = some { e with ticket := ticket, order := s.ann.admissionCounter, phase := .queued }
  suspended : t.comm.state = .suspended
  requests : s.voices.requests = [] → t.voices.requests = []
  released : ∀ v ∈ x.voices ++ x.chimeVoice.toList, t.voice v = (s.voice v).released
  dropped : x.phase = .hang ∨ (x.source = .cue ∧ x.route ≠ some s.cues.routeNumber) → t.ann.stack = s.ann.stack
  stacked : s.cues.routeState = .ready → x.phase ≠ .hang → (x.source = .cue → x.route = some s.cues.routeNumber) →
    t.ann.stack = (x.again :: s.ann.stack).take 4

theorem allFree_congr {s t : State} (h : ∀ w, (t.voice w).state = .free ↔ (s.voice w).state = .free) : t.allFree = s.allFree := by
  rw [Bool.eq_iff_iff, State.allFree, State.allFree, Table.all_iff, Table.all_iff]
  simp only [decide_eq_true_eq]
  exact forall_congr' h

theorem preempt_waits (ha : s.ann.active = some x) (hc : e.cls ≠ .notice) (hf : s.allFree = false) :
    ∃ ticket, (s.preempt e).2 = .admitted ticket ∧ Preempted s (s.preempt e).1 x e ticket := by
  obtain ⟨table, stack, m, link, given, voice, dropped, stacked⟩ := giveWay_eq ha
  have preempted := preempt_eq ha e
  generalize s.giveWay x = g at given preempted
  generalize he : (g.giveTicket e).2 = e' at preempted
  generalize hw : ((g.giveTicket e).1.setAnn fun a => { a with active := some { e' with phase := .queued } }).handClass = w
  have voice' : ∀ v, g.voice v = if v ∈ x.voices ++ x.chimeVoice.toList then (s.voice v).released else s.voice v := by
    subst given
    exact voice
  have busy : (g.giveTicket e).1.allFree = false := by
    refine (allFree_congr fun v => ?_).trans hf
    show (g.voice v).state = .free ↔ _
    rw [voice']
    split
    · exact Voice.released_free _
    · exact Iff.rfl
  have waits : (g.giveTicket e).1.activate e' = w.suspend := hw ▸ activate_suspends (by subst he; exact hc) busy
  have ann : w.suspend.ann = { g.ann with
      ticketCounter := (g.ann.freshTicket + 1) % 256, admissionCounter := g.ann.admissionCounter + 1
      active := some { e' with phase := .queued } } := by
    rw [suspend_ann]
    subst hw
    rfl
  have selected : (s.preempt e).1 = w.suspend := by
    rw [preempted, waits]
    exact select_active (by rw [ann]; nofun)
  refine ⟨g.ann.freshTicket, by rw [preempted], ?_⟩
  rw [selected]
  refine ⟨?_, ?_, ?_, ?_, suspend_state w, fun idle => suspend_requests ?_, fun v hv => ?_, fun gone => ?_,
    fun ready hp same => ?_⟩
  case refine_6 =>
    have released : w.voice v = (s.voice v).released := by
      subst hw
      exact (voice' v).trans (if_pos hv)
    rcases suspend_fades w v with same | faded
    · rw [same, released]
    · rw [faded, released, Voice.released_released]
  case refine_5 =>
    subst hw given
    show s.voices.requests.filter _ = []
    rw [idle, List.filter_nil]
  all_goals rw [ann]
  · subst given; rfl
  · subst given; rfl
  · subst given he; rfl
  · subst given; exact dropped gone
  · subst given; exact stacked ready hp same

end
end Sys2Proof.Machine
end

section
/-! OBLIGATION. ANNOUNCE, CANCEL_ANNOUNCE and SET_PRECEDENCE (R83, R85 to R88, R98, R101). -/

namespace Sys2Proof.Machine

/-! ### ANNOUNCE: the checks (R83) -/

section
variable {s : State} {tag : Byte} {c : AnnClass} {n : Nat} {w : Option Nat} {set : ClipSet}

theorem announceClassOf_none {cls : Option AnnClass} (bad : cls = none ∨ cls = some .live ∨
    ∃ x, w = some x ∧ (x < 1 ∨ 600000 < x)) : announceClassOf cls w = none := by
  unfold announceClassOf
  rcases bad with rfl | rfl | ⟨x, rfl, bad⟩
  · rfl
  · rfl
  · have out : ¬(1 ≤ x ∧ x ≤ 600000) := by omega
    split <;> simp [out]

theorem announceClassOf_some (live : c ≠ .live) (wait : ∀ x, w = some x → 1 ≤ x ∧ x ≤ 600000) :
    announceClassOf (some c) w = some c := by
  have fits : (w.all fun x => decide (1 ≤ x ∧ x ≤ 600000)) = true := by
    cases w with
    | none => rfl
    | some x => exact decide_eq_true (wait x rfl)
  unfold announceClassOf
  split
  · next h => cases h
  · next h => exact absurd (Option.some.inj h) live
  · next h => rw [if_pos fits, h]

/-- What an ANNOUNCE makes of the state it is taken in. -/
def State.announced (r : State) (tag : Byte) (cls : Option AnnClass) (n : Nat) (w : Option Nat) : State :=
  match announceClassOf cls w with
  | none => r.reply 0x20 tag .range
  | some c =>
    if r.cues.routeState ≠ .ready then r.reply 0x20 tag .wrongState
    else
      match r.cues.clipSets[n]? with
      | none => r.reply 0x20 tag .notFound
      | some set => (r.admitEntry (r.linkEntry c n set w)).1.replyAdmission tag (r.admitEntry (r.linkEntry c n set w)).2

theorem announce_next {cls : Option AnnClass} (h : s.takes 0x20 tag) :
    exec (.announce tag cls n w) s = .next ((s.taken 0x20 tag).announced tag cls n w).endEvent :=
  command_next h _

theorem replyAdmission_keeps (s : State) (o : Admission) :
    (s.replyAdmission tag o).wide = s.wide ∧ (s.replyAdmission tag o).cues = s.cues := by
  cases o <;> exact ⟨rfl, rfl⟩

theorem announced_keeps (r : State) (cls : Option AnnClass) :
    (r.announced tag cls n w).wide = r.wide ∧ (r.announced tag cls n w).cues = r.cues := by
  unfold State.announced
  split
  · exact ⟨rfl, rfl⟩
  · next c _ =>
    split
    · exact ⟨rfl, rfl⟩
    · split
      · exact ⟨rfl, rfl⟩
      · obtain ⟨wide, cues⟩ := replyAdmission_keeps (tag := tag) (r.admitEntry (r.linkEntry c n _ w)).1
          (r.admitEntry (r.linkEntry c n _ w)).2
        exact ⟨wide.trans (admitEntry_wide _ _), cues.trans (admitEntry_cues _ _)⟩

theorem announced_range {cls : Option AnnClass} (h : announceClassOf cls w = none) (r : State) :
    r.announced tag cls n w = r.reply 0x20 tag .range := by
  unfold State.announced
  simp only [h]

theorem announced_unready (hc : announceClassOf (some c) w = some c) {r : State} (hr : r.cues.routeState ≠ .ready) :
    r.announced tag (some c) n w = r.reply 0x20 tag .wrongState := by
  unfold State.announced
  simp only [hc, if_pos hr]

theorem announced_missing (hc : announceClassOf (some c) w = some c) {r : State} (hr : r.cues.routeState = .ready)
    (hn : r.cues.clipSets.length ≤ n) : r.announced tag (some c) n w = r.reply 0x20 tag .notFound := by
  unfold State.announced
  simp only [hc, hr, ne_eq, not_true_eq_false, if_false, List.getElem?_eq_none hn]

theorem announced_admits (hc : announceClassOf (some c) w = some c) {r : State} (hr : r.cues.routeState = .ready)
    (hn : r.cues.clipSets[n]? = some set) {t : State} {o : Admission} (ha : r.admitEntry (r.linkEntry c n set w) = (t, o)) :
    r.announced tag (some c) n w = t.replyAdmission tag o := by
  unfold State.announced
  simp only [hc, hr, ne_eq, not_true_eq_false, if_false, hn, ha]

/-! ### ANNOUNCE: what the entry comes to (R85 to R88) -/

theorem Acts.formed {s t : State} (h : Acts s t) : t.link.formed = s.link.formed := by
  obtain ⟨rs, link⟩ := h.link
  obtain ⟨-, -, -, -, -, -, formed, -⟩ := foldl_report_same rs s.link
  rw [link, formed]

/-- The reply of a request whose owner acts and then answers. -/
theorem answered_after {x : State} {kind : Nat} {code : ResultCode} {data : ReplyData} (h : Acts (s.taken kind tag) x) :
    s.answered (x.reply kind tag code data).endEvent kind tag code data := by
  have held := endEvent_answered (reply_holds x kind tag code data)
  rw [h.formed] at held
  exact held

end

/-- An entry that pre-empts nothing joins a queue with room. -/
theorem joined_answered (s : State) (e : Entry) (tag : Byte) :
    let t := (((s.taken 0x20 tag).joinQueue e).1.reply 0x20 tag .ok (.ticket s.ann.freshTicket)).endEvent
    s.answered t 0x20 tag .ok (.ticket s.ann.freshTicket) ∧ t.ann.ticketCounter = (s.ann.freshTicket + 1) % 256 ∧
      t.ann.admissionCounter = s.ann.admissionCounter + 1 ∧
      (s.ann.active ≠ none → s.voices.requests = [] → t.ann = s.ann.joined e) := by
  intro t
  have frame := endEvent_frame (((s.taken 0x20 tag).joinQueue e).1.reply 0x20 tag .ok (.ticket s.ann.freshTicket))
  obtain ⟨tickets, admissions⟩ := joinQueue_counters (s.taken 0x20 tag) e
  refine ⟨answered_after (joinQueue_acts (.refl _) e), frame.tickets.trans tickets, frame.admissions.trans admissions,
    fun active idle => ?_⟩
  have waits := joinQueue_waits (s := s.taken 0x20 tag) (e := e) active
  refine (endEvent_ungranted ?_).2.1.trans ?_
  · show ((s.taken 0x20 tag).joinQueue e).1.voices.requests = []
    rw [waits]
    exact idle
  · show ((s.taken 0x20 tag).joinQueue e).1.ann = _
    rw [waits]
    rfl

/-- With a full queue an entry that ranks above the one that gives way takes its place. -/
theorem evicted_answered {s : State} {e old : Entry} (tag : Byte) (active : s.ann.active ≠ none) (idle : s.voices.requests = []) :
    let left : Announcements := { s.ann with queue := s.ann.queue.erase old }
    let t := ((((s.taken 0x20 tag).evict old).joinQueue e).1.reply 0x20 tag .ok (.ticket left.freshTicket)).endEvent
    s.answered t 0x20 tag .ok (.ticket left.freshTicket) ∧ t.ann = left.joined e ∧
      (s.link.reports.length < 16 →
        t.holdsReport (.announceEvent (.ended old.ticket .evicted) old.cls old.source old.cue s.clock)) := by
  intro left t
  have removed : Acts (s.taken 0x20 tag) ((s.taken 0x20 tag).setAnn fun a => { a with queue := a.queue.erase old }) :=
    (Acts.refl _).leaf rfl rfl rfl
  have evicted : Acts (s.taken 0x20 tag) ((s.taken 0x20 tag).evict old) :=
    removed.engines (annEnded_engines (.refl _) old .evicted)
  have waits := joinQueue_waits (s := (s.taken 0x20 tag).evict old) (e := e) active
  refine ⟨answered_after (joinQueue_acts evicted e), ?_, fun room => ?_⟩
  · refine (endEvent_ungranted ?_).2.1.trans ?_
    · show (((s.taken 0x20 tag).evict old).joinQueue e).1.voices.requests = []
      rw [waits]
      exact idle
    · show (((s.taken 0x20 tag).evict old).joinQueue e).1.ann = _
      rw [waits]
      rfl
  · refine (endEvent_frame _).reports _ rfl ?_
    rw [waits]
    exact report_holds ((s.taken 0x20 tag).setAnn fun a => { a with queue := a.queue.erase old }) _ room

/-- A WARNING that pre-empts waits for the voices. -/
theorem preempted_answered {s : State} {e x : Entry} (tag : Byte) (ha : s.ann.active = some x) (hc : e.cls ≠ .notice)
    (hf : s.allFree = false) (idle : s.voices.requests = []) :
    ∃ ticket, ((s.taken 0x20 tag).preempt e).2 = .admitted ticket ∧
      (let t := (((s.taken 0x20 tag).preempt e).1.reply 0x20 tag .ok (.ticket ticket)).endEvent
       s.answered t 0x20 tag .ok (.ticket ticket) ∧ Preempted s t x e ticket) := by
  obtain ⟨ticket, admitted, queue, hang, counter, active, suspended, requests, released, dropped, stacked⟩ :=
    preempt_waits (s := s.taken 0x20 tag) (e := e) ha hc hf
  obtain ⟨comm, ann, voices, -⟩ := endEvent_ungranted
    (s := ((s.taken 0x20 tag).preempt e).1.reply 0x20 tag .ok (.ticket ticket)) (requests idle)
  have ann' := ann.trans (reply_ann _ _ _ _ _)
  refine ⟨ticket, admitted, answered_after (preempt_acts (.refl _) e), ?_⟩
  refine ⟨?_, ?_, ?_, ?_, ?_, fun _ => ?_, fun v hv => ?_, ?_, ?_⟩
  · rw [ann']; exact queue
  · rw [ann']; exact hang
  · rw [ann']; exact counter
  · rw [ann']; exact active
  · rw [comm]; exact suspended
  · rw [voices]; exact requests idle
  · rw [State.voice, voices]; exact released v hv
  · rw [ann']; exact dropped
  · rw [ann']; exact stacked

/-! ### CANCEL_ANNOUNCE (R98) -/

section
variable {s : State} {tag : Byte} {ticket : Nat} {e x : Entry}

theorem cancel_unknown (h : s.takes 0x21 tag) (unknown : ∀ e ∈ s.ann.held, e.ticket ≠ ticket) :
    exec (.cancelAnnounce tag ticket) s = .next ((s.taken 0x21 tag).reply 0x21 tag .notFound).endEvent := by
  have absent : (s.taken 0x21 tag).ann.byTicket ticket = none :=
    List.find?_eq_none.2 fun e he => by simpa using unknown e he
  simp only [exec, execCancelAnnounce]
  rw [command_next h]
  simp only [absent]

theorem cancel_live (h : s.takes 0x21 tag) (he : s.ann.byTicket ticket = some e) (live : e.cls = .live) :
    exec (.cancelAnnounce tag ticket) s = .next ((s.taken 0x21 tag).reply 0x21 tag .wrongState).endEvent := by
  have held : (s.taken 0x21 tag).ann.byTicket ticket = some e := he
  simp only [exec, execCancelAnnounce]
  rw [command_next h]
  simp only [held, if_pos live]

theorem cancel_takes (h : s.takes 0x21 tag) (he : s.ann.byTicket ticket = some e) (live : e.cls ≠ .live) :
    exec (.cancelAnnounce tag ticket) s = .next (((s.taken 0x21 tag).reply 0x21 tag .ok).cancelEntry e).endEvent := by
  have held : (s.taken 0x21 tag).ann.byTicket ticket = some e := he
  simp only [exec, execCancelAnnounce]
  rw [command_next h]
  simp only [held, if_neg live]

theorem byTicket_ticket (he : s.ann.byTicket ticket = some e) : e.ticket = ticket := by
  simpa using List.find?_some he

/-- An entry that waits is taken out in place. -/
theorem cancelEntry_waiting (he : e.ticket = ticket) (other : ∀ x, s.ann.active = some x → x.ticket ≠ ticket) :
    s.cancelEntry e = (s.removeWaiting ticket).annEnded e .cancelled := by
  have idle : ¬(s.ann.active.any fun x : Entry => decide (x.ticket = e.ticket)) = true := by
    rw [Option.any_eq_true]
    rintro ⟨x, hx, same⟩
    exact other x hx ((of_decide_eq_true same).trans he)
  unfold State.cancelEntry
  rw [if_neg idle, he]

/-- The active entry ends. -/
theorem cancelEntry_active (ha : s.ann.active = some x) (he : x.ticket = e.ticket) :
    s.cancelEntry e = (s.endActive .cancelled).select := by
  unfold State.cancelEntry
  simp only [ha, Option.any_some, he, decide_true, if_true]

end

/-! ### SET_PRECEDENCE (R101) -/

theorem setPrecedence_range {s : State} {tag : Byte} {code : Nat} (h : s.takes 0x23 tag) (high : 6 ≤ code) :
    exec (.setPrecedence tag code) s = .next ((s.taken 0x23 tag).reply 0x23 tag .range).kick := by
  have out : asFin 6 code = none := dif_neg (Nat.not_lt.2 high)
  simp only [exec, execSetPrecedence]
  rw [query_next h]
  simp only [out]

theorem setPrecedence_sorts {s : State} {tag : Byte} (h : s.takes 0x23 tag) (c : Fin 6) :
    exec (.setPrecedence tag c.val) s =
      .next (((s.taken 0x23 tag).setAnn fun a => a.setCode c).reply 0x23 tag .ok).kick := by
  have known : asFin 6 c.val = some c := dif_pos c.isLt
  simp only [exec, execSetPrecedence]
  rw [query_next h]
  simp only [known]

/-- Settles O35: an ANNOUNCE by its checks and by where `State.admitEntry` sends its entry, a CANCEL_ANNOUNCE by the place of the
entry, a SET_PRECEDENCE by `resort_perm` and `resort_ranked`. -/
theorem announcementRequests : Obligations.AnnouncementRequests := by
  refine ⟨fun tag cls n w s h => ?_, fun a old ho => evictable_spec ho, fun tag ticket s h => ?_, fun tag code s h => ?_⟩
  · obtain ⟨wide, sameCues⟩ := announced_keeps (tag := tag) (n := n) (w := w) (s.taken 0x20 tag) cls
    have kept := endEvent_keeps (wide.trans (show (s.taken 0x20 tag).wide = s.wide from rfl))
    refine ⟨_, announce_next h, kept.1, kept.2.1, kept.2.2, (endEvent_frame _).cues.trans sameCues, fun bad => ?_,
      fun c hcls live wait => ?_⟩
    · rw [announced_range (announceClassOf_none bad)]
      exact command_answered rfl rfl
    · subst hcls
      have hc := announceClassOf_some live wait
      refine ⟨fun unready => ?_, fun ready short => ?_, fun set ready hn => ?_⟩
      · rw [announced_unready (r := s.taken 0x20 tag) hc unready]
        exact command_answered rfl rfl
      · rw [announced_missing (r := s.taken 0x20 tag) hc ready short]
        exact command_answered rfl rfl
      · have admits := fun {t : State} {o : Admission} => announced_admits (tag := tag) (r := s.taken 0x20 tag) (t := t) (o := o)
          hc ready hn
        refine ⟨fun d hd => ?_, fun hd hp room => ?_, fun old hd hp full ho => ⟨fun low => ?_, fun high active idle => ?_⟩,
          fun x hd warning ha other busy idle => ?_⟩
        · rw [admits (admitEntry_merges hd)]
          exact command_answered rfl rfl
        · rw [admits (admitEntry_joins hd hp room)]
          exact joined_answered s (s.linkEntry c n set w) tag
        · rw [admits (admitEntry_full hd hp full ho low)]
          exact command_answered rfl rfl
        · rw [admits (admitEntry_evicts hd hp full ho high)]
          exact evicted_answered tag active idle
        · have preempts : s.ann.preempts (s.linkEntry c n set w) = true := by
            have warns : (s.linkEntry c n set w).cls = .warning := warning
            simp [Announcements.preempts, ha, warns, other]
          have notice : (s.linkEntry c n set w).cls ≠ .notice := by
            show c ≠ .notice
            rw [warning]
            decide
          obtain ⟨ticket, admitted, answered, p⟩ := preempted_answered tag ha notice busy idle
          have outcome : (s.taken 0x20 tag).admitEntry (s.linkEntry c n set w) =
              (((s.taken 0x20 tag).preempt (s.linkEntry c n set w)).1, .admitted ticket) :=
            (admitEntry_preempts (s := s.taken 0x20 tag) hd preempts).trans (by rw [← admitted])
          rw [admits outcome]
          exact ⟨p.queue, p.suspended, p.hang, p.released, ⟨ticket, answered, p.counter, p.active⟩, p.dropped, p.stacked ready⟩
  · by_cases unknown : ∀ e ∈ s.ann.held, e.ticket ≠ ticket
    · refine ⟨_, cancel_unknown h unknown, fun _ => command_answered rfl rfl, fun e he => ?_⟩
      exact absurd (byTicket_ticket he) (unknown e (List.mem_of_find?_eq_some he))
    · obtain ⟨e, he⟩ : ∃ e, s.ann.byTicket ticket = some e := by
        by_contra none
        exact unknown fun e held same => none (Option.isSome_iff_exists.1 (List.find?_isSome.2 ⟨e, held, decide_eq_true same⟩))
      have held := byTicket_ticket he
      by_cases live : e.cls = .live
      · refine ⟨_, cancel_live h he live, fun none => absurd none unknown, fun e' he' => ?_⟩
        obtain rfl := Option.some.inj (he'.symm.trans he)
        exact ⟨fun _ => command_answered rfl rfl, fun other => absurd live other⟩
      · have kept := endEvent_keeps (cancelEntry_wide ((s.taken 0x21 tag).reply 0x21 tag .ok) e)
        refine ⟨_, cancel_takes h he live, fun none => absurd none unknown, fun e' he' => ?_⟩
        obtain rfl := Option.some.inj (he'.symm.trans he)
        refine ⟨fun other => absurd other live, fun _ => ⟨acts_answered (.ofEngines (cancelEntry_engines (.refl _) _)), kept.1,
          kept.2.1, kept.2.2, fun other => ?_, fun x ha same hq hs => ?_⟩⟩
        · rw [cancelEntry_waiting (s := (s.taken 0x21 tag).reply 0x21 tag .ok) held other]
          exact (report_frame_end (((s.taken 0x21 tag).reply 0x21 tag .ok).removeWaiting ticket) _).relink rfl
            ((taken_frame s 0x21 tag).trans (reply_frame _ _ _ _ _)) (fun r hr => reply_keeps _ _ _ _ _ r hr) fun r _ hr => hr
        · rw [cancelEntry_active (s := (s.taken 0x21 tag).reply 0x21 tag .ok) ha (same.trans held.symm)]
          have left := (endSelect_left (s := (s.taken 0x21 tag).reply 0x21 tag .ok) ha hq hs .cancelled).endEvent.1
          exact ⟨left.active, left.hang, left.withdrawn, left.released, left.ended⟩
  · by_cases high : 6 ≤ code
    · refine ⟨_, setPrecedence_range h high, fun _ => query_answered rfl, fun c hc => ?_⟩
      exact absurd (hc ▸ c.isLt) (Nat.not_lt.2 high)
    · obtain ⟨c, rfl⟩ : ∃ c : Fin 6, c.val = code := ⟨⟨code, Nat.not_le.1 high⟩, rfl⟩
      refine ⟨_, setPrecedence_sorts h c, fun high' => absurd high' high, fun c' hc => ?_⟩
      obtain rfl := Fin.ext hc
      obtain ⟨only, answered⟩ := query_answered (s := s) (kind := 0x23) (tag := tag) (code := .ok) (data := .none)
        (u := { s with ann := s.ann.setCode c' }) rfl
      exact ⟨only, answered, resort_perm c' _, resort_ranked c' _⟩

end Sys2Proof.Machine
end

section
/-! SUPPORT. The active entry starts: its chime, or its fan-out, and what the rest of the event leaves of it (R90 to R94). -/

namespace Sys2Proof.Machine

/-! ### States that a fan-out does not tell apart (R93) -/

/-- The states differ in no block that a start of a voice or the forming of a fan-out reads. -/
def State.besides (s t : State) : Prop := ∃ a c l k m q, t = s.beside a c l k m q

namespace State.besides
variable {s t u : State}

theorem refl (s : State) : s.besides s := ⟨s.ann, s.comm, s.lights, s.link, s.mixer, s.cues, rfl⟩

theorem trans (h : s.besides t) (g : t.besides u) : s.besides u := by
  obtain ⟨_, _, _, _, _, _, rfl⟩ := h
  obtain ⟨_, _, _, _, _, _, rfl⟩ := g
  exact ⟨_, _, _, _, _, _, rfl⟩

theorem voices (h : s.besides t) : t.voices = s.voices := by obtain ⟨_, _, _, _, _, _, rfl⟩ := h; rfl
theorem store (h : s.besides t) : t.store = s.store := by obtain ⟨_, _, _, _, _, _, rfl⟩ := h; rfl
theorem settings (h : s.besides t) : t.settings = s.settings := by obtain ⟨_, _, _, _, _, _, rfl⟩ := h; rfl
theorem clip (h : s.besides t) (c : Nat) : t.clip c = s.clip c := by unfold State.clip; rw [h.store]
theorem clock (h : s.besides t) : t.clock = s.clock := by obtain ⟨_, _, _, _, _, _, rfl⟩ := h; rfl

/-- The fan-out of an entry, whatever its place and phase. -/
theorem fanOut (h : s.besides t) {e e' : Entry} (he : (e'.ticket, e'.cls, e'.clips) = (e.ticket, e.cls, e.clips)) :
    (t.fanOut e').2 = (s.fanOut e).2 := by
  obtain ⟨a, c, l, k, m, q, rfl⟩ := h
  obtain ⟨_, formed⟩ := fanOut_beside s e e' he a c l k m q
  rw [formed]

end State.besides

/-! ### What a fan-out leaves of the part -/

section
variable (s : State) (e : Entry)

theorem startRole_requests (role : Role) (clip : Nat) : (s.startRole e role clip).1.voices.requests = s.voices.requests := by
  unfold State.startRole
  split
  · rfl
  · next v _ =>
    have started := startVoice_requests s v clip 0 (.announcement e.ticket role) e.cls
    revert started
    generalize s.startVoice v (.announcement e.ticket role) e.cls clip 0 = p
    obtain ⟨t, o⟩ := p
    cases o <;> exact id

theorem fanSlot_requests (clip : Option Nat) (p : State × FanOut) (i : Fin 12) :
    (State.fanSlot e clip p i).1.voices.requests = p.1.voices.requests := by
  unfold State.fanSlot
  dsimp only
  split
  · rfl
  · next c v _ _ =>
    split
    · rfl
    · have started := startRole_requests p.1 e (.slot i) c
      revert started
      generalize p.1.startRole e (.slot i) c = r
      obtain ⟨t, o, vs⟩ := r
      cases o <;> exact id
  · rfl

theorem fanOut_requests : (s.fanOut e).1.voices.requests = s.voices.requests := by
  have slots : ∀ (l : List (Fin 12)) (clip : Option Nat) (p : State × FanOut),
      (l.foldl (State.fanSlot e clip) p).1.voices.requests = p.1.voices.requests := by
    intro l clip
    induction l with
    | nil => exact fun _ => rfl
    | cons i l ih => exact fun p => (ih _).trans (fanSlot_requests e clip p i)
  unfold State.fanOut
  dsimp only
  cases s.speakerClip e with
  | none => exact slots _ _ _
  | some c => exact (slots _ _ _).trans (startRole_requests s e .speaker c)

theorem fanOut_link : (s.fanOut e).1.link = s.link := by
  obtain ⟨m, formed⟩ := fanOut_beside s e e rfl s.ann s.comm s.lights s.link s.mixer s.cues
  rw [show s.beside s.ann s.comm s.lights s.link s.mixer s.cues = s from rfl] at formed
  rw [formed]
  rfl

end

/-! ### The active entry plays (R93, R94) -/

/-- An entry in PLAYING with a fan-out. -/
def Entry.playing (x : Entry) (f : FanOut) : Entry :=
  { x with
    phase := .playing, map := some f.map, voices := f.voices, chimeVoice := none
    speakerVoice := f.speaker.filter f.voices.contains }

/-- The slots that a map leaves on FALLBACK are reported. -/
def State.tellDegraded (s : State) (x : Entry) (map : Table SlotMap 12) : State :=
  if s.degradedSlots map = 0 then s else s.annReport (.degraded x.ticket (s.degradedSlots map)) x

theorem tellDegraded_same (s : State) (x : Entry) (map : Table SlotMap 12) :
    (s.tellDegraded x map).ann = s.ann ∧ (s.tellDegraded x map).voices = s.voices := by
  unfold State.tellDegraded
  split <;> exact ⟨rfl, rfl⟩

/-- The state in which the active entry has its fan-out and the mixer has been given it. -/
def State.handed (s : State) (x : Entry) : State := ((s.fanOut x).1.setActive (·.playing (s.fanOut x).2)).handMap

/-- The state in which the active entry has its fan-out, with the slots reported that it leaves on FALLBACK. -/
def State.fanned (s : State) (x : Entry) : State := (s.handed x).tellDegraded x (s.fanOut x).2.map

section
variable {s : State} {x : Entry}

theorem handMap_mixer (s : State) : ∃ m : Mixer, s.handMap = { s with mixer := m } := by
  unfold State.handMap
  split
  · exact ⟨s.mixer, rfl⟩
  · split
    · exact ⟨s.mixer, rfl⟩
    · exact ⟨_, rfl⟩

theorem handed_keeps (s : State) (x : Entry) :
    (s.handed x).link = s.link ∧ (s.handed x).seats = s.seats ∧ (s.handed x).clock = s.clock ∧
      (s.handed x).voices.requests = s.voices.requests := by
  have acts := Acts.ofEngines (fanOut_engines (.refl s) x)
  obtain ⟨m, handed⟩ := handMap_mixer ((s.fanOut x).1.setActive (·.playing (s.fanOut x).2))
  unfold State.handed
  rw [handed]
  exact ⟨fanOut_link s x, acts.seats, acts.clock, fanOut_requests s x⟩

theorem fanned_keeps (ha : s.ann.active = some x) :
    (s.fanned x).ann = { s.ann with active := some (x.playing (s.fanOut x).2) } ∧
      (s.fanned x).voices.requests = s.voices.requests := by
  obtain ⟨ann, voices⟩ := tellDegraded_same (s.handed x) x (s.fanOut x).2.map
  unfold State.fanned
  rw [ann, voices, State.handed, (handMap_same _).1, setActive_ann, (fanOut_blocks s x).1, ha]
  exact ⟨rfl, (handed_keeps s x).2.2.2⟩

/-- Slots with listeners on FALLBACK are reported DEGRADED with their number (R94). -/
theorem fanned_degraded (lacks : 0 < s.degradedSlots (s.fanOut x).2.map) (room : s.link.reports.length < 16) :
    (s.fanned x).holdsReport
      (.announceEvent (.degraded x.ticket (s.degradedSlots (s.fanOut x).2.map)) x.cls x.source x.cue s.clock) := by
  obtain ⟨link, seats, clock, -⟩ := handed_keeps s x
  have slots : (s.handed x).degradedSlots (s.fanOut x).2.map = s.degradedSlots (s.fanOut x).2.map := by
    unfold State.degradedSlots
    rw [seats]
  unfold State.fanned State.tellDegraded
  rw [slots, if_neg (Nat.ne_of_gt lacks), State.annReport, clock]
  exact report_holds _ _ (by rw [link]; exact room)

theorem playActive_eq (ha : s.ann.active = some x) :
    s.playActive = if (s.fanOut x).2.voices.isEmpty then (s.fanned x).endActive .completed else s.fanned x := by
  unfold State.playActive
  simp only [ha]
  rfl

/-- An entry with a voice in its fan-out plays. -/
theorem playActive_plays (ha : s.ann.active = some x) (sounds : (s.fanOut x).2.voices ≠ []) : s.playActive = s.fanned x := by
  rw [playActive_eq ha, if_neg (by simpa using sounds)]

/-- An entry without one ends. -/
theorem playActive_ends (ha : s.ann.active = some x) (silent : (s.fanOut x).2.voices = []) :
    s.playActive = (s.fanned x).endActive .completed := by
  rw [playActive_eq ha, if_pos (by simpa using silent)]

theorem endActive_requests (idle : s.voices.requests = []) (o : AnnOutcome) : (s.endActive o).voices.requests = [] := by
  cases ha : s.ann.active with
  | none =>
    unfold State.endActive
    simpa only [ha] using idle
  | some x =>
    obtain ⟨table, m, left, -⟩ := releaseLeave_eq ha
    rw [endActive_eq ha, left]
    show s.voices.requests.filter _ = []
    rw [idle, List.filter_nil]

theorem playActive_requests (idle : s.voices.requests = []) : s.playActive.voices.requests = [] := by
  cases ha : s.ann.active with
  | none =>
    unfold State.playActive
    simpa only [ha] using idle
  | some x =>
    have fanned := (fanned_keeps ha).2.trans idle
    rw [playActive_eq ha]
    split
    · exact endActive_requests fanned _
    · exact fanned

end

/-! ### The active entry starts (R90, R92) -/

/-- What the start of `x` in a state that `u` stands for has come to in `t`. -/
structure Commenced (u t : State) (x : Entry) : Prop where
  started : u.link.reports.length < 15 →
    t.holdsReport (.announceEvent (.started x.ticket x.restart) x.cls x.source x.cue u.clock)
  live : x.cls = .live → t.ann.active = some { x with phase := .playing }
  chimes : ∀ v, x.restart = false → u.settings.chime x.cls ≠ 0 → u.clip (u.settings.chime x.cls) ≠ none →
    u.freeVoice = some v →
    t.ann.active = some { x with phase := .chime, chimeVoice := some v } ∧ (t.voice v).owner = some (.chime x.ticket) ∧
      (t.voice v).clip = some (u.settings.chime x.cls) ∧ (t.voice v).startPage = 0
  plays : x.cls ≠ .live → x.restart = true ∨ u.settings.chime x.cls = 0 ∨ u.clip (u.settings.chime x.cls) = none →
    (u.fanOut x).2.voices ≠ [] → t.ann.active = some (x.playing (u.fanOut x).2)

section
variable {u s : State} {x : Entry} {v : Fin 16}

theorem soundNotice_mixer (s : State) (x : Entry) : ∃ m : Mixer, s.soundNotice x = { s with mixer := m } := by
  unfold State.soundNotice
  split <;> exact ⟨_, rfl⟩

theorem chimeOn_some (hr : x.restart = false) (h0 : s.settings.chime x.cls ≠ 0) (hc : s.clip (s.settings.chime x.cls) ≠ none) :
    s.chimeOn x = s.freeVoice := by
  simp [State.chimeOn, hr, h0, hc]

theorem chimeOn_none (h : x.restart = true ∨ s.settings.chime x.cls = 0 ∨ s.clip (s.settings.chime x.cls) = none) :
    s.chimeOn x = none := by
  unfold State.chimeOn
  rcases h with h | h | h <;> simp [h]

theorem chimeOn_eq_some (h : s.chimeOn x = some v) :
    s.settings.chime x.cls ≠ 0 ∧ s.clip (s.settings.chime x.cls) ≠ none ∧ x.restart = false ∧ s.freeVoice = some v := by
  unfold State.chimeOn at h
  dsimp only at h
  split at h
  · cases h
  · next plays => simp_all

/-- A LIVE entry that starts. -/
theorem startActive_speaks (ha : s.ann.active = some x) (hc : x.cls = .live) :
    s.startActive =
      ((s.soundNotice x).setActive fun e => { e with phase := .playing }).annReport (.started x.ticket x.restart) x := by
  unfold State.startActive
  simp only [ha, if_pos hc]

/-- An entry that starts without a chime. -/
theorem startActive_plays (ha : s.ann.active = some x) (hc : x.cls ≠ .live) (silent : (s.soundNotice x).chimeOn x = none) :
    s.startActive = ((s.soundNotice x).annReport (.started x.ticket x.restart) x).playActive := by
  unfold State.startActive
  simp only [ha, if_neg hc, silent]

/-- An entry that starts with its chime. -/
theorem startActive_chimes (ha : s.ann.active = some x) (hc : x.cls ≠ .live) (chime : (s.soundNotice x).chimeOn x = some v)
    (begun : ((s.soundNotice x).startVoice v (.chime x.ticket) x.cls ((s.soundNotice x).settings.chime x.cls) 0).2 = .started) :
    s.startActive =
      (((s.soundNotice x).startVoice v (.chime x.ticket) x.cls ((s.soundNotice x).settings.chime x.cls) 0).1.setActive
        fun e => { e with phase := .chime, chimeVoice := some v }).annReport (.started x.ticket x.restart) x := by
  unfold State.startActive
  simp only [ha, if_neg hc, chime]
  revert begun
  generalize (s.soundNotice x).startVoice v (.chime x.ticket) x.cls ((s.soundNotice x).settings.chime x.cls) 0 = p
  obtain ⟨t, o⟩ := p
  rintro rfl
  rfl

theorem startVoice_link (s : State) (v : Fin 16) (o : Owner) (cls : AnnClass) (clip page : Nat) :
    (s.startVoice v o cls clip page).1.link = s.link := by
  obtain ⟨m, started⟩ := startVoice_beside s v o cls clip page s.ann s.comm s.lights s.link s.mixer s.cues
  rw [show s.beside s.ann s.comm s.lights s.link s.mixer s.cues = s from rfl] at started
  rw [started]
  rfl

/-- The state in which the entry that starts is reported STARTED. -/
def State.tellStarted (s : State) (x : Entry) : State := s.annReport (.started x.ticket x.restart) x

/-- LIVE is heard at once. -/
theorem commenced_live {w : State} (base : u.besides w) (ha : w.ann.active = some x) (hc : x.cls = .live)
    (room : u.link.reports.length < 15 → w.link.reports.length < 16) : Commenced u w.startActive x := by
  obtain ⟨m, sounds⟩ := soundNotice_mixer w x
  rw [startActive_speaks ha hc, sounds]
  refine ⟨fun h => ?_, fun _ => ?_, fun v _ chime => ?_, fun other => absurd hc other⟩
  · unfold State.annReport
    rw [← base.clock]
    exact report_holds _ _ (room h)
  · show w.ann.active.map _ = _
    rw [ha]
    rfl
  · rw [hc] at chime
    exact absurd rfl chime

/-- A class with a chime clip in the cache plays it, unless the entry starts again (R92). -/
theorem commenced_chime {w : State} (base : u.besides w) (ha : w.ann.active = some x) (hc : x.cls ≠ .live)
    (chime : w.chimeOn x = some v) (reload : u.store.reload = none) (clips : u.clipsPlay)
    (room : u.link.reports.length < 15 → w.link.reports.length < 16) : Commenced u w.startActive x := by
  obtain ⟨m, sounds⟩ := soundNotice_mixer w x
  obtain ⟨-, present, -, free⟩ := chimeOn_eq_some chime
  obtain ⟨k, hk⟩ := Option.ne_none_iff_exists'.1 present
  have long : 0 < k.count := clips k (base.store ▸ List.mem_of_find?_eq_some hk)
  obtain ⟨outcome, owner, clip, startPage, -⟩ := startVoice_begins (s := { w with mixer := m }) v (.chime x.ticket) x.cls
    (by rw [← reload, ← base.store]) hk long
  rw [startActive_chimes ha hc (by rw [sounds]; exact chime) (by rw [sounds]; exact outcome), sounds]
  refine ⟨fun h => ?_, fun live => absurd live hc, fun v' _ _ _ free' => ?_, fun _ silent => ?_⟩
  · unfold State.annReport
    rw [← base.clock]
    have same := startVoice_link { w with mixer := m } v (.chime x.ticket) x.cls (w.settings.chime x.cls) 0
    have clock := (Acts.ofEngines (startVoice_engines (.refl { w with mixer := m }) v (.chime x.ticket) x.cls
      (w.settings.chime x.cls) 0)).clock
    rw [setActive_clock, clock]
    exact report_holds _ _ (by rw [setActive_link, same]; exact room h)
  · obtain rfl : v = v' := Option.some.inj (free.symm.trans ((freeVoice_congr (congrArg _ base.voices)).trans free'))
    rw [← base.settings]
    refine ⟨?_, owner, clip, startPage⟩
    show (State.startVoice _ _ _ _ _ _).1.ann.active.map _ = _
    rw [(startVoice_blocks _ _ _ _ _ _).1]
    show w.ann.active.map _ = _
    rw [ha]
    rfl
  · have unheard : w.chimeOn x = none := chimeOn_none (by rw [base.settings, base.clip]; exact silent)
    rw [unheard] at chime
    cases chime

/-- The other entries form their fan-out. -/
theorem commenced_plays {w : State} (base : u.besides w) (ha : w.ann.active = some x) (hc : x.cls ≠ .live)
    (silent : w.chimeOn x = none) (room : u.link.reports.length < 15 → w.link.reports.length < 16) :
    Commenced u w.startActive x := by
  obtain ⟨m, sounds⟩ := soundNotice_mixer w x
  generalize hz : ({ w with mixer := m } : State).tellStarted x = z
  have active : z.ann.active = some x := by subst hz; exact ha
  have same : (z.fanOut x).2 = (u.fanOut x).2 := (base.trans (by subst hz; exact ⟨_, _, _, _, _, _, rfl⟩)).fanOut rfl
  have started : w.startActive = z.playActive := by
    rw [startActive_plays ha hc (by rw [sounds]; exact silent), sounds, ← hz]
    rfl
  rw [started]
  refine ⟨fun h => (playActive_engines (.refl z)).reports _ rfl ?_, fun live => absurd live hc,
    fun v' first given present free => ?_, fun _ _ sound => ?_⟩
  · subst hz
    rw [← base.clock]
    exact report_holds _ _ (room h)
  · have heard : w.chimeOn x = w.freeVoice :=
      chimeOn_some first (by rw [base.settings]; exact given) (by rw [base.settings, base.clip]; exact present)
    rw [silent, freeVoice_congr (congrArg _ base.voices), free] at heard
    cases heard
  · rw [playActive_plays active (by rw [same]; exact sound), (fanned_keeps active).1, same]

/-- The start of an entry in a state with the voices, the store, the settings and the seats of `u`. -/
theorem startActive_commences {w : State} (base : u.besides w) (ha : w.ann.active = some x) (reload : u.store.reload = none)
    (clips : u.clipsPlay) (room : u.link.reports.length < 15 → w.link.reports.length < 16) :
    Commenced u w.startActive x := by
  by_cases hc : x.cls = .live
  · exact commenced_live base ha hc room
  · cases chime : w.chimeOn x with
    | none => exact commenced_plays base ha hc chime room
    | some v => exact commenced_chime base ha hc chime reload clips room

theorem startActive_requests {w : State} (idle : w.voices.requests = []) : w.startActive.voices.requests = [] := by
  cases ha : w.ann.active with
  | none =>
    unfold State.startActive
    simpa only [ha] using idle
  | some x =>
    obtain ⟨m, sounds⟩ := soundNotice_mixer w x
    unfold State.startActive
    simp only [ha, sounds]
    split
    · exact idle
    · split
      · next v _ =>
        have begun := (startVoice_requests { w with mixer := m } v (w.settings.chime x.cls) 0 (.chime x.ticket) x.cls).trans idle
        revert begun
        generalize ({ w with mixer := m } : State).startVoice v (.chime x.ticket) x.cls (w.settings.chime x.cls) 0 = p
        obtain ⟨t, o⟩ := p
        intro begun
        cases o
        · exact begun
        · exact playActive_requests (s := t.tellStarted x) begun
        · exact playActive_requests (s := t.tellStarted x) begun
      · exact playActive_requests (s := ({ w with mixer := m } : State).tellStarted x) idle

end
end Sys2Proof.Machine
end

section
/-! SUPPORT. What the rest of an event leaves of an entry that has started, and the candidate that follows one that has ended
(R89 to R95). -/

namespace Sys2Proof.Machine

/-! ### After a start -/

/-- An entry is active and has left QUEUED. -/
def State.sounds (s : State) : Prop := ∃ y, s.ann.active = some y ∧ y.phase ≠ .queued

/-- From `s` to `t` nothing has happened to an entry that sounds in `s`, and no report but a POSITION has been lost. -/
structure Follows (s t : State) : Prop where
  reports : ∀ r, r.isPosition = false → s.holdsReport r → t.holdsReport r
  same : s.sounds → t.ann = s.ann ∧ t.voices = s.voices

namespace Follows
variable {s t : State}

theorem refl (s : State) : Follows s s := ⟨fun _ _ h => h, fun _ => ⟨rfl, rfl⟩⟩

/-- A step that leaves an entry that sounds alone. -/
theorem step (h : Follows s t) {u : State} (reports : ∀ r, r.isPosition = false → t.holdsReport r → u.holdsReport r)
    (same : t.sounds → u.ann = t.ann ∧ u.voices = t.voices) : Follows s u where
  reports r hp hr := reports r hp (h.reports r hp hr)
  same hs := by
    obtain ⟨ann, voices⟩ := h.same hs
    obtain ⟨ann', voices'⟩ := same (by unfold State.sounds; rw [ann]; exact hs)
    exact ⟨ann'.trans ann, voices'.trans voices⟩

theorem selectRounds (h : Follows s t) (n : Nat) : Follows s (State.selectRounds n t) :=
  h.step (selectRounds_engines n (.refl t)).reports fun ⟨y, hy, _⟩ => by
    rw [selectRounds_active n (by rw [hy]; nofun)]
    exact ⟨rfl, rfl⟩

theorem select (h : Follows s t) : Follows s t.select := h.selectRounds _

theorem tellFree (h : Follows s t) : Follows s t.tellFree :=
  h.step (tellFree_engines (.refl t)).reports fun ⟨y, hy, phase⟩ => by
    rw [tellFree_started hy phase]
    exact ⟨rfl, rfl⟩

theorem reply (h : Follows s t) (kind : Nat) (tag : Byte) (code : ResultCode) (data : ReplyData) :
    Follows s (t.reply kind tag code data) := h.step (fun _ _ hr => hr) fun _ => ⟨rfl, rfl⟩

theorem endEvent (h : Follows s t) (idle : s.sounds → s.voices.requests = []) : Follows s t.endEvent where
  reports r hp hr := (endEvent_frame t).reports r hp (h.reports r hp hr)
  same hs := by
    obtain ⟨ann, voices⟩ := h.same hs
    obtain ⟨-, ann', voices', -⟩ := endEvent_ungranted (s := t) (by rw [voices]; exact idle hs)
    exact ⟨ann'.trans ann, voices'.trans voices⟩

end Follows

theorem Commenced.later {u s t : State} {x : Entry} (h : Commenced u s x) (f : Follows s t) : Commenced u t x where
  started room := f.reports _ rfl (h.started room)
  live hc := by
    have active := h.live hc
    rw [(f.same ⟨_, active, nofun⟩).1]
    exact active
  chimes v first some present free := by
    obtain ⟨active, owner, clip, startPage⟩ := h.chimes v first some present free
    obtain ⟨ann, voices⟩ := f.same ⟨_, active, nofun⟩
    rw [ann, State.voice, voices]
    exact ⟨active, owner, clip, startPage⟩
  plays hc silent sound := by
    have active := h.plays hc silent sound
    rw [(f.same ⟨_, active, nofun⟩).1]
    exact active

/-! ### An entry that becomes active (R90, R91) -/

section
variable {s t : State} {e x : Entry}

theorem suspend_hushed (h : ∀ i, (s.stream i).current = none) : ∃ c : Commentary, s.suspend = { s with comm := c } := by
  have idle : ∀ l : List (Fin 12), l.foldl State.suspendStream (s, []) = (s, []) := by
    intro l
    induction l with
    | nil => rfl
    | cons i l ih => rw [List.foldl_cons, suspendStream_none s i [] (h i), ih]
  unfold State.suspend
  split
  · exact ⟨s.comm, rfl⟩
  · rw [idle]
    exact ⟨_, rfl⟩

/-- An entry may start as soon as it is active: every voice is FREE and no stream holds a segment, or a NOTICE finds commentary
awake and a voice FREE. -/
def State.clears (s : State) (c : AnnClass) : Prop :=
  (c ≠ .notice ∧ s.allFree = true ∧ ∀ i, (s.stream i).current = none) ∨
    (c = .notice ∧ s.comm.state ≠ .suspended ∧ s.freeVoice ≠ none)

/-- An entry that may start does so where it becomes active. -/
theorem activate_starts (h : s.clears e.cls) :
    ∃ w, s.besides w ∧ w.ann.active = some { e with phase := .queued } ∧ w.link = s.link ∧ s.activate e = w.startActive := by
  generalize hp : (s.setAnn fun a => { a with active := some { e with phase := .queued } }).handClass = p
  have base : s.besides p := by subst hp; exact ⟨_, _, _, _, _, _, rfl⟩
  have active : p.ann.active = some { e with phase := .queued } := by subst hp; rfl
  have link : p.link = s.link := by subst hp; rfl
  have comm : p.comm = s.comm := by subst hp; rfl
  rcases h with ⟨alone, free, hushed⟩ | ⟨notice, awake, free⟩
  · obtain ⟨c, suspended⟩ := suspend_hushed (s := p) fun i => by rw [State.stream, comm]; exact hushed i
    have free' : p.suspend.allFree = true := by rw [suspended]; subst hp; exact free
    refine ⟨p.suspend, base.trans (by rw [suspended]; exact ⟨_, _, _, _, _, _, rfl⟩), by rw [suspended]; exact active,
      by rw [suspended]; exact link, ?_⟩
    unfold State.activate
    simp only [hp, if_neg alone, free', if_true]
  · have resumed : p.resume = p := resume_awake (by rw [comm]; exact awake)
    have free' : p.freeVoice.isSome = true := by
      rw [freeVoice_congr (congrArg _ base.voices)]
      exact Option.isSome_iff_ne_none.2 free
    refine ⟨p, base, active, link, ?_⟩
    unfold State.activate
    simp only [hp, if_pos notice, resumed, free', if_true]

/-- A NOTICE that finds no voice FREE asks for one (R91). -/
theorem activate_asks (notice : e.cls = .notice) (awake : s.comm.state ≠ .suspended) (full : s.freeVoice = none) :
    (s.activate e).ann.active = some { e with phase := .queued } ∧
      Requester.announcement ∈ (s.activate e).voices.requests ∧ (s.activate e).freeVoice = none := by
  generalize hp : (s.setAnn fun a => { a with active := some { e with phase := .queued } }).handClass = p
  have resumed : p.resume = p := resume_awake (by subst hp; exact awake)
  have full' : p.freeVoice = none := by subst hp; exact full
  have asks : s.activate e = p.askVoice .announcement := by
    unfold State.activate
    simp only [hp, if_pos notice, resumed, full', Option.isSome_none, Bool.false_eq_true, if_false]
  rw [asks]
  refine ⟨by rw [askVoice_ann]; subst hp; rfl, (mem_askVoice p).2 (.inr rfl), ?_⟩
  rw [freeVoice_congr (askVoice_table p .announcement), full']

/-- An entry heard alone that waits for the voices is active in QUEUED under SUSPENDED commentary. -/
structure Waits (s t : State) (x : Entry) : Prop where
  ann : t.ann = { s.ann with active := some x }
  suspended : t.comm.state = .suspended
  busy : t.allFree = false
  requests : s.voices.requests = [] → t.voices.requests = []

theorem activate_waits (hc : e.cls ≠ .notice) (hf : s.allFree = false) : Waits s (s.activate e) { e with phase := .queued } := by
  rw [activate_suspends hc hf]
  refine ⟨suspend_ann _, suspend_state _, ?_, fun idle => suspend_requests idle⟩
  rw [(Commented.refl _).suspend.allFree]
  exact hf

theorem tellFree_waits (h : s.allFree = false) : s.tellFree = s := by
  unfold State.tellFree
  split
  · rfl
  · exact if_neg fun ⟨_, _, all⟩ => by rw [h] at all; cases all

theorem Waits.endEvent (h : Waits s t x) (idle : s.voices.requests = []) : t.endEvent.ann = { s.ann with active := some x } ∧
    t.endEvent.comm.state = .suspended := by
  obtain ⟨comm, ann, -⟩ := endEvent_ungranted (h.requests idle)
  rw [comm, ann]
  exact ⟨h.ann, h.suspended⟩

/-! ### The next candidate (R89) -/

/-- With nothing active the end of the event makes nothing so. -/
theorem endEvent_unheard (h : s.ann.active = none) : s.endEvent.ann.active = none := by
  have spoke : Spoke s s.arbitrate := by
    unfold State.arbitrate
    exact Spoke.grants grantLimit h
  rw [(endEvent_announces s).1, spoke.ann]
  exact h

theorem selectRounds_next {n : Nat} {q : Entry} {left : Announcements} (ha : s.ann.active = none)
    (hc : s.ann.takeCandidate = some (q, left)) :
    State.selectRounds (n + 1) s =
      if s.expired q then State.selectRounds n ((s.setAnn fun _ => left).annEnded q .expired)
      else State.selectRounds n ((s.setAnn fun _ => left).activate q) := by
  conv_lhs => unfold State.selectRounds
  simp only [ha, hc]
  rfl

theorem selectRounds_empty (n : Nat) (ha : s.ann.active = none) (hq : s.ann.queue = []) (hs : s.ann.stack = []) :
    (State.selectRounds n s).ann.active = none := by
  cases n with
  | zero => exact ha
  | succ n =>
    rw [selectRounds_drained n ha (takeCandidate_empty hq hs), resume_ann]
    exact ha

/-- The candidate does not depend on the entry that has left. -/
theorem takeCandidate_left {a left : Announcements} {q : Entry} (h : a.takeCandidate = some (q, left)) :
    ({ a with active := none, hangTimer := none } : Announcements).takeCandidate =
      some (q, { left with active := none, hangTimer := none }) := by
  unfold Announcements.takeCandidate at h ⊢
  dsimp only
  split at h
  · cases h
  · next hs hq => cases h; simp only [hq]
  · next hs hq => cases h; simp only [hs]
  · next hs hq =>
    simp only [hs, hq]
    split at h
    · next higher => cases h; simp only [if_pos higher, hs]
    · next lower => cases h; simp only [if_neg lower, hq]

theorem takeCandidate_queue {a : Announcements} {top head : Entry} {ts qs : List Entry} (hs : a.stack = top :: ts)
    (hq : a.queue = head :: qs) (higher : rank a.code head.cls < rank a.code top.cls) :
    a.takeCandidate = some (head, { a with queue := qs }) := by
  unfold Announcements.takeCandidate
  simp only [hs, hq, if_pos higher]

theorem takeCandidate_stack {a : Announcements} {top head : Entry} {ts qs : List Entry} (hs : a.stack = top :: ts)
    (hq : a.queue = head :: qs) (lower : rank a.code top.cls ≤ rank a.code head.cls) :
    a.takeCandidate = some (top, { a with stack := ts }) := by
  unfold Announcements.takeCandidate
  simp only [hs, hq, if_neg (Nat.not_lt.2 lower)]

/-- An entry that holds no voice leaves the voices alone when it ends. -/
theorem endActive_silent (ha : s.ann.active = some x) (voices : x.voices = []) (chime : x.chimeVoice = none)
    (idle : s.voices.requests = []) (o : AnnOutcome) :
    ∃ m : Mixer, s.endActive o =
      ({ s with ann := { s.ann with active := none, hangTimer := none }, mixer := m } : State).annEnded x o := by
  have kept : s.withdraw .announcement = s := by
    unfold State.withdraw
    rw [idle, List.filter_nil, ← idle]
  have released : s.releaseActive = s := by
    unfold State.releaseActive
    simp only [ha, voices, chime, Option.toList_none, List.append_nil, List.foldl_nil]
    exact kept
  obtain ⟨m, left⟩ := leaveActive_eq s
  exact ⟨m, by rw [endActive_eq ha, released, left]⟩

end
end Sys2Proof.Machine
end

section
/-! OBLIGATION. An entry from its start to its end, and the candidate that follows it (R89 to R95, R103). -/

namespace Sys2Proof.Machine

/-! ### An ANNOUNCE taken by an empty engine (R89 to R91) -/

section
variable {s : State} {tag : Byte} {c : AnnClass} {n : Nat} {w : Option Nat} {set : ClipSet}

theorem linkEntry_fresh : s.expired (s.linkEntry c n set w) = false := by
  cases w with
  | none => rfl
  | some k =>
    have now : elapsed s.clock s.clock = 0 := by simp [elapsed]
    simp [State.expired, State.linkEntry, now]

/-- An ANNOUNCE that an empty engine takes makes its entry active. -/
theorem announce_empty (h : s.takes 0x20 tag) (live : c ≠ .live) (wait : ∀ k, w = some k → 1 ≤ k ∧ k ≤ 600000)
    (ready : s.cues.routeState = .ready) (hn : s.cues.clipSets[n]? = some set) (ha : s.ann.active = none)
    (hq : s.ann.queue = []) (hs : s.ann.stack = []) :
    ∃ a : Announcements,
      exec (.announce tag (some c) n w) s =
        .next ((State.selectRounds 1 (((s.taken 0x20 tag).setAnn fun _ => a).activate
          (s.ann.only (s.linkEntry c n set w)))).reply 0x20 tag .ok (.ticket s.ann.freshTicket)).endEvent := by
  have held : s.ann.held = [] := by simp [Announcements.held, ha, hq, hs]
  have noDuplicate : (s.taken 0x20 tag).ann.duplicate (s.linkEntry c n set w) = none := by
    rw [Announcements.duplicate, show (s.taken 0x20 tag).ann.held = [] from held]
    rfl
  have noneActive : (s.taken 0x20 tag).ann.preempts (s.linkEntry c n set w) = false := by
    rw [Announcements.preempts, show (s.taken 0x20 tag).ann.active = none from ha]
  have joins := admitEntry_joins noDuplicate noneActive (by rw [show (s.taken 0x20 tag).ann.queue = [] from hq]; decide)
  obtain ⟨a, -, -, joined⟩ := joinQueue_empty (s := s.taken 0x20 tag) (e := s.linkEntry c n set w) ha hq hs
  have fresh : (s.taken 0x20 tag).expired (s.linkEntry c n set w) = false := linkEntry_fresh
  rw [fresh, if_neg Bool.false_ne_true] at joined
  refine ⟨a, ?_⟩
  rw [announce_next h, announced_admits (r := s.taken 0x20 tag) (announceClassOf_some live wait) ready hn
    (joins.trans (Prod.ext joined (joinQueue_outcome _ _)))]
  rfl

variable (a : Announcements) (tag : Byte) (x : Entry)

/-- The entry starts where it may. -/
theorem announce_commences (h : s.clears x.cls) (queued : x.phase = .queued) (idle : s.voices.requests = [])
    (reload : s.store.reload = none) (clips : s.clipsPlay) (data : ReplyData) :
    Commenced s ((State.selectRounds 1 (((s.taken 0x20 tag).setAnn fun _ => a).activate x)).reply 0x20 tag .ok data).endEvent
      x := by
  have clears : ((s.taken 0x20 tag).setAnn fun _ => a).clears x.cls := h
  obtain ⟨w, base, active, link, starts⟩ := activate_starts clears
  have taken : s.besides ((s.taken 0x20 tag).setAnn fun _ => a) := ⟨_, _, _, _, _, _, rfl⟩
  have same : ({ x with phase := .queued } : Entry) = x := by rw [← queued]
  rw [same] at active
  have commenced := startActive_commences (taken.trans base) active reload clips fun room => by
    rw [link]
    exact Nat.lt_succ_of_lt room
  have idle' : w.voices.requests = [] := by rw [base.voices]; exact idle
  rw [starts]
  exact commenced.later ((((Follows.refl _).selectRounds 1).reply _ _ _ _).endEvent fun _ => startActive_requests idle')

/-- An entry heard alone waits while a voice is busy. -/
theorem announce_waits (alone : x.cls ≠ .notice) (queued : x.phase = .queued) (busy : s.allFree = false)
    (idle : s.voices.requests = []) (data : ReplyData) :
    let t := ((State.selectRounds 1 (((s.taken 0x20 tag).setAnn fun _ => a).activate x)).reply 0x20 tag .ok data).endEvent
    t.ann.active = some x ∧ t.comm.state = .suspended := by
  have waits := activate_waits (s := (s.taken 0x20 tag).setAnn fun _ => a) alone busy
  have same : ({ x with phase := .queued } : Entry) = x := by rw [← queued]
  rw [same] at waits
  rw [selectRounds_active 1 (by rw [waits.ann]; nofun)]
  have replied : Waits ((s.taken 0x20 tag).setAnn fun _ => a)
      ((((s.taken 0x20 tag).setAnn fun _ => a).activate x).reply 0x20 tag .ok data) x :=
    ⟨waits.ann, waits.suspended, waits.busy, waits.requests⟩
  obtain ⟨ann, suspended⟩ := replied.endEvent idle
  exact ⟨by rw [ann], suspended⟩

/-- A NOTICE waits while no voice is FREE, and asks for one. -/
theorem announce_asks (notice : x.cls = .notice) (queued : x.phase = .queued) (awake : s.comm.state ≠ .suspended)
    (full : s.freeVoice = none) (data : ReplyData) :
    let t := ((State.selectRounds 1 (((s.taken 0x20 tag).setAnn fun _ => a).activate x)).reply 0x20 tag .ok data).endEvent
    t.ann.active = some x ∧ Requester.announcement ∈ t.voices.requests := by
  obtain ⟨active, asked, full'⟩ := activate_asks (s := (s.taken 0x20 tag).setAnn fun _ => a) notice awake full
  have same : ({ x with phase := .queued } : Entry) = x := by rw [← queued]
  rw [same] at active
  rw [selectRounds_active 1 (by rw [active]; nofun)]
  obtain ⟨-, ann, voices, -⟩ :=
    (endEvent_frame ((((s.taken 0x20 tag).setAnn fun _ => a).activate x).reply 0x20 tag .ok data)).ungranted (.inr full')
  exact ⟨by rw [ann]; exact active, by rw [voices]; exact asked⟩

end

/-! ### The end of a voice (R94, R95) -/

section
variable {s : State} {v : Fin 16} {e : Entry}

theorem fadeEnd_next (running : s.running = true) (stopping : (s.voice v).state = .stopping) (faded : 20 ≤ (s.voice v).fade) :
    exec (.fadeEnd v) s = .next (s.dropVoice v).tellFree.endEvent := by
  rw [exec_fadeEnd v running, if_pos (by simp [State.fadeOver, stopping, faded])]

theorem dropVoice_allFree (others : ∀ w, w ≠ v → (s.voice w).state = .free) : (s.dropVoice v).allFree = true := by
  refine (Table.all_iff _ _).2 fun w => decide_eq_true ?_
  show ((s.dropVoice v).voice w).state = .free
  by_cases hw : w = v
  · subst hw
    rw [dropVoice_self]
    rfl
  · rw [dropVoice_other s hw]
    exact others w hw

theorem dropVoice_busy {w : Fin 16} (hw : w ≠ v) (busy : (s.voice w).state ≠ .free) : (s.dropVoice v).allFree = false := by
  refine Bool.eq_false_iff.2 fun all => busy ?_
  rw [← dropVoice_other s hw]
  exact of_decide_eq_true ((Table.all_iff _ _).1 all w)

/-- An entry heard alone that waits starts when all voices are FREE. -/
theorem tellFree_starts (ha : s.ann.active = some e) (hc : e.cls ≠ .notice) (hp : e.phase = .queued) (free : s.allFree = true) :
    s.tellFree = s.startActive.select := by
  unfold State.tellFree
  simp only [ha, ne_eq, hc, not_false_eq_true, hp, free, and_self, if_true]

theorem voicePageDue_ends {d : Clock} (running : s.running = true) (playing : (s.voice v).state = .playing)
    (due : (s.voice v).due = some d) (now : reached s.clock d = true) (last : (s.voice v).pageCount ≤ (s.voice v).nextPlay) :
    exec (.voicePageDue v) s = .next (s.voiceEnded v).endEvent := by
  rw [exec_voicePageDue v running, if_pos (pageDue_iff.2 ⟨.inl playing, d, due, now⟩), if_pos playing,
    duePlaying_ends (.inl last)]

/-- The entry without its chime. -/
def Entry.chimed (e : Entry) : Entry := { e with chimeVoice := none }

/-- The end of the chime leads to the fan-out (R93). -/
theorem voiceEnded_chime (ho : (s.voice v).owner = some (.chime e.ticket)) (ha : s.ann.active = some e)
    (hp : e.phase = .chime) (hv : e.chimeVoice = some v) :
    s.voiceEnded v = ((s.dropVoice v).setActive Entry.chimed).playActive.select.tellFree := by
  have active : (s.dropVoice v).ann.active = some e := ha
  unfold State.voiceEnded State.ownerActs State.annVoiceEnded
  rw [ho]
  simp only [active, hv, hp, if_true]
  rfl

/-- The end of the last voice ends the entry (R95). -/
theorem voiceEnded_last {role : Role} (ho : (s.voice v).owner = some (.announcement e.ticket role)) (ha : s.ann.active = some e)
    (hv : e.voices = [v]) (chime : e.chimeVoice = none) :
    s.voiceEnded v = (((s.dropVoice v).setActive (·.without v)).endActive .completed).select.tellFree := by
  have active : (s.dropVoice v).ann.active = some e := ha
  unfold State.voiceEnded State.ownerActs State.annVoiceEnded
  rw [ho]
  simp only [active, chime, reduceCtorEq, if_false, List.contains_iff_mem, hv, List.mem_singleton, if_true]
  rw [if_pos (by simp)]
  rfl

/-! ### After the chime -/

/-- The number of slots with listeners that a fan-out leaves on FALLBACK. -/
def State.lacking (s : State) (f : FanOut) : Nat :=
  (List.finRange 12).countP fun i => decide (0 < s.seats.counts.get i) && decide (f.map.get i = .fallback)

theorem degradedSlots_eq (s : State) (f : FanOut) : s.degradedSlots f.map = s.lacking f :=
  (List.countP_eq_length_filter ..).symm

theorem chimed_besides (s : State) (v : Fin 16) : (s.dropVoice v).besides ((s.dropVoice v).setActive Entry.chimed) :=
  ⟨_, _, _, _, _, _, rfl⟩

theorem chimed_active (ha : s.ann.active = some e) : ((s.dropVoice v).setActive Entry.chimed).ann.active = some e.chimed := by
  show s.ann.active.map Entry.chimed = _
  rw [ha]
  rfl

/-- An entry with a voice in its fan-out plays. -/
theorem chime_plays (ha : s.ann.active = some e) (idle : s.voices.requests = [])
    (sounds : ((s.dropVoice v).fanOut e).2.voices ≠ []) :
    let t := (((s.dropVoice v).setActive Entry.chimed).playActive.select.tellFree).endEvent
    t.ann.active = some (e.playing ((s.dropVoice v).fanOut e).2) ∧
      (0 < s.lacking ((s.dropVoice v).fanOut e).2 → s.link.reports.length < 16 →
        t.holdsReport
          (.announceEvent (.degraded e.ticket (s.lacking ((s.dropVoice v).fanOut e).2)) e.cls e.source e.cue s.clock)) := by
  have active := chimed_active (v := v) ha
  have formed := (chimed_besides s v).fanOut (e := e) (e' := e.chimed) rfl
  generalize hu : (s.dropVoice v).setActive Entry.chimed = u at active formed
  have plays := playActive_plays active (by rw [formed]; exact sounds)
  obtain ⟨ann, requests⟩ := fanned_keeps active
  have idle' : (u.fanned e.chimed).voices.requests = [] := by
    rw [requests]
    subst hu
    exact idle
  have follows : Follows (u.fanned e.chimed) u.playActive.select.tellFree.endEvent := by
    rw [plays]
    exact (Follows.refl _).select.tellFree.endEvent fun _ => idle'
  have active' : (u.fanned e.chimed).ann.active = some (e.playing ((s.dropVoice v).fanOut e).2) := by
    rw [ann, formed]
    rfl
  refine ⟨?_, fun lacking room => follows.reports _ rfl ?_⟩
  · rw [(follows.same ⟨_, active', nofun⟩).1]
    exact active'
  · have slots : u.degradedSlots (u.fanOut e.chimed).2.map = s.lacking ((s.dropVoice v).fanOut e).2 := by
      rw [formed, degradedSlots_eq]
      subst hu
      rfl
    have degraded := fanned_degraded (s := u) (x := e.chimed) (by rw [slots]; exact lacking) (by subst hu; exact room)
    rw [slots] at degraded
    subst hu
    exact degraded

/-- An entry without a voice in its fan-out ends. -/
theorem chime_ends (ha : s.ann.active = some e) (silent : ((s.dropVoice v).fanOut e).2.voices = [])
    (hq : s.ann.queue = []) (hs : s.ann.stack = []) :
    (((s.dropVoice v).setActive Entry.chimed).playActive.select.tellFree).endEvent.ann.active = none := by
  have active := chimed_active (v := v) ha
  have formed := (chimed_besides s v).fanOut (e := e) (e' := e.chimed) rfl
  have ann := (fanned_keeps active).1
  have left := endSelect_left (s := ((s.dropVoice v).setActive Entry.chimed).fanned e.chimed)
    (by rw [ann]) (by rw [ann]; exact hq) (by rw [ann]; exact hs) .completed
  rw [playActive_ends active (by rw [formed]; exact silent), tellFree_none left.active]
  exact left.endEvent.1.active

/-! ### After the last voice -/

/-- The last voice of `e` has ended: `b` is the state in which the entry has left, with its voice FREE and itself reported. -/
structure LastEnded (s b : State) (v : Fin 16) (e : Entry) : Prop where
  base : (s.dropVoice v).besides b
  ann : b.ann = { s.ann with active := none, hangTimer := none }
  comm : b.comm = s.comm
  link : b.link = (s.annEnded e .completed).link

theorem lastVoice_ends (ha : s.ann.active = some e) (hv : e.voices = [v]) (chime : e.chimeVoice = none)
    (idle : s.voices.requests = []) :
    LastEnded s (((s.dropVoice v).setActive (·.without v)).endActive .completed) v e := by
  have active : ((s.dropVoice v).setActive (·.without v)).ann.active = some (e.without v) := by
    show s.ann.active.map _ = _
    rw [ha]
    rfl
  obtain ⟨m, ended⟩ := endActive_silent active (by simp [Entry.without, hv]) chime idle .completed
  rw [ended]
  exact ⟨⟨_, _, _, _, _, _, rfl⟩, rfl, rfl, rfl⟩

theorem lastVoice_left (ha : s.ann.active = some e) (hq : s.ann.queue = []) (hs : s.ann.stack = []) :
    let t := ((((s.dropVoice v).setActive (·.without v)).endActive .completed).select.tellFree).endEvent
    Left ((s.dropVoice v).setActive (·.without v)) t (e.without v) .completed ∧ t.lights.cls = .none := by
  have active : ((s.dropVoice v).setActive (·.without v)).ann.active = some (e.without v) := by
    show s.ann.active.map _ = _
    rw [ha]
    rfl
  have left := endSelect_left active hq hs .completed
  rw [tellFree_none left.active]
  exact left.endEvent

namespace LastEnded
variable {b : State} {q : Entry} {left : Announcements}

theorem active (h : LastEnded s b v e) : b.ann.active = none := by rw [h.ann]

theorem idle (h : LastEnded s b v e) (idle : s.voices.requests = []) : b.voices.requests = [] := by
  rw [h.base.voices]
  exact idle

theorem completed (h : LastEnded s b v e) (room : s.link.reports.length < 16) :
    b.select.tellFree.endEvent.holdsReport
      (.announceEvent (.ended e.ticket .completed) e.cls e.source e.cue s.clock) := by
  have follows : Follows b b.select.tellFree.endEvent :=
    (Follows.refl b).select.tellFree.endEvent fun ⟨_, active, _⟩ => by rw [h.active] at active; cases active
  refine follows.reports _ rfl ?_
  have held := report_holds s (.announceEvent (.ended e.ticket .completed) e.cls e.source e.cue s.clock) room
  unfold State.holdsReport
  rw [h.link]
  exact held

/-- The end is the event's first report. -/
theorem reports (h : LastEnded s b v e) (room : s.link.reports.length < 15) :
    b.link.reports.length = s.link.reports.length + 1 := by
  rw [h.link]
  show (s.link.report _).reports.length = _
  rw [report_room _ _ (Nat.lt_succ_of_lt room), List.length_append]
  rfl

/-- The engine with the candidate taken out. -/
theorem select_eq (h : LastEnded s b v e) (hc : s.ann.takeCandidate = some (q, left)) :
    ∃ n r, b.besides r ∧ r.ann = { left with active := none, hangTimer := none } ∧ r.link = b.link ∧ r.comm = b.comm ∧
      b.select = if s.expired q then State.selectRounds n (r.annEnded q .expired) else State.selectRounds n (r.activate q) := by
  have taken : b.ann.takeCandidate = some (q, { left with active := none, hangTimer := none }) := by
    rw [h.ann]
    exact takeCandidate_left hc
  have same : b.expired q = s.expired q := by
    obtain ⟨_, _, _, _, _, _, rfl⟩ := h.base
    rfl
  refine ⟨b.ann.queue.length + b.ann.stack.length, b.setAnn fun _ => { left with active := none, hangTimer := none },
    ⟨_, _, _, _, _, _, rfl⟩, rfl, rfl, rfl, ?_⟩
  rw [← same]
  exact selectRounds_next h.active taken

/-- An expired candidate ends, and with none left behind it nothing is active. -/
theorem expires (h : LastEnded s b v e) (hc : s.ann.takeCandidate = some (q, left)) (expired : s.expired q = true)
    (hq : left.queue = []) (hs : left.stack = []) :
    b.select.tellFree.endEvent.ann.active = none ∧
      (s.link.reports.length < 15 →
        b.select.tellFree.endEvent.holdsReport
          (.announceEvent (.ended q.ticket .expired) q.cls q.source q.cue s.clock)) := by
  obtain ⟨n, r, base, ann, link, -, selected⟩ := h.select_eq hc
  rw [if_pos expired] at selected
  have ann' : (r.annEnded q .expired).ann = { left with active := none, hangTimer := none } := ann
  have empty : b.select.ann.active = none := by
    rw [selected]
    exact selectRounds_empty n (by rw [ann']) (by rw [ann']; exact hq) (by rw [ann']; exact hs)
  rw [tellFree_none empty]
  refine ⟨endEvent_unheard empty, fun room => (endEvent_frame _).reports _ rfl ?_⟩
  have clock : r.clock = s.clock := (h.base.trans base).clock
  rw [selected, ← clock]
  refine (selectRounds_engines n (.refl _)).reports _ rfl (report_holds r _ ?_)
  rw [link, h.reports room]
  exact Nat.succ_lt_succ room

/-- A candidate heard alone waits while another voice is busy. -/
theorem waits (h : LastEnded s b v e) (hc : s.ann.takeCandidate = some (q, left)) (fresh : s.expired q = false)
    (alone : q.cls ≠ .notice) {w : Fin 16} (hw : w ≠ v) (busy : (s.voice w).state ≠ .free) (idle : s.voices.requests = []) :
    b.select.tellFree.endEvent.ann.active = some { q with phase := .queued } ∧
      b.select.tellFree.endEvent.ann.queue = left.queue ∧ b.select.tellFree.endEvent.ann.stack = left.stack ∧
      b.select.tellFree.endEvent.comm.state = .suspended := by
  obtain ⟨n, r, base, ann, -, -, selected⟩ := h.select_eq hc
  rw [fresh, if_neg Bool.false_ne_true] at selected
  have voices : r.voices = (s.dropVoice v).voices := (h.base.trans base).voices
  have full : r.allFree = false := by
    unfold State.allFree
    rw [voices]
    exact dropVoice_busy hw busy
  have waits := activate_waits (s := r) alone full
  have settled : b.select = r.activate q := by
    rw [selected]
    exact selectRounds_active n (by rw [waits.ann]; nofun)
  obtain ⟨ann', suspended⟩ := waits.endEvent (by rw [voices]; exact idle)
  rw [settled, tellFree_waits waits.busy, ann', ann]
  exact ⟨rfl, rfl, rfl, suspended⟩

/-- A candidate heard alone starts at once when every other voice is FREE and no stream holds a segment. -/
theorem commences (h : LastEnded s b v e) (hc : s.ann.takeCandidate = some (q, left)) (fresh : s.expired q = false)
    (alone : q.cls ≠ .notice) (others : ∀ w, w ≠ v → (s.voice w).state = .free) (hushed : ∀ i, (s.stream i).current = none)
    (room : s.link.reports.length < 14) (idle : s.voices.requests = []) (reload : s.store.reload = none) (clips : s.clipsPlay) :
    Commenced (s.dropVoice v) b.select.tellFree.endEvent { q with phase := .queued } := by
  obtain ⟨n, r, base, -, link, comm, selected⟩ := h.select_eq hc
  rw [fresh, if_neg Bool.false_ne_true] at selected
  have base' := h.base.trans base
  have clears : r.clears q.cls := by
    refine .inl ⟨alone, ?_, fun i => ?_⟩
    · unfold State.allFree
      rw [base'.voices]
      exact dropVoice_allFree others
    · rw [State.stream, comm, h.comm]
      exact hushed i
  obtain ⟨w, started, active, link', starts⟩ := activate_starts clears
  have commenced := startActive_commences (base'.trans started) active reload clips fun _ => by
    rw [link', link, h.reports (Nat.lt_succ_of_lt room)]
    omega
  have idle' : w.voices.requests = [] := by
    rw [(base'.trans started).voices]
    exact idle
  rw [selected, starts]
  exact commenced.later (((Follows.refl _).selectRounds n).tellFree.endEvent fun _ => startActive_requests idle')

end LastEnded

/-- Settles O37: a start by `Commenced`, the end of the chime by `chime_plays` and `chime_ends`, the end of the last voice by
`LastEnded`, and the candidate by `takeCandidate_queue` and `takeCandidate_stack`. -/
theorem announcementProgress : Obligations.AnnouncementProgress := by
  unfold Obligations.AnnouncementProgress
  intro begins
  have begin_of : ∀ {u t : State} {x : Entry}, Commenced u t x → begins u t x := fun h => ⟨h.started, h.live, h.chimes, h.plays⟩
  refine ⟨?_, ?_, ?_, fun a top head ts qs hs hq => ⟨takeCandidate_queue hs hq, takeCandidate_stack hs hq⟩⟩
  · intro tag c n w set s h live wait ready hn ha hq hs idle reload clips x
    obtain ⟨a, taken⟩ := announce_empty h live wait ready hn ha hq hs
    have starts : s.clears c → begins s _ x := fun clears =>
      begin_of (announce_commences a tag x clears rfl idle reload clips (.ticket s.ann.freshTicket))
    refine ⟨_, taken, fun alone free hushed => starts (.inl ⟨alone, free, hushed⟩), fun alone busy => ?_,
      fun notice awake free => starts (.inr ⟨notice, awake, free⟩), fun notice awake full => ?_⟩
    · exact announce_waits a tag x alone rfl busy idle _
    · exact announce_asks a tag x notice rfl awake full _
  · intro v x s running stopping faded others ha alone queued idle reload clips
    refine ⟨_, fadeEnd_next running stopping faded, begin_of ?_⟩
    have commenced := startActive_commences (.refl (s.dropVoice v)) ha reload clips Nat.lt_succ_of_lt
    rw [tellFree_starts (s := s.dropVoice v) ha alone queued (dropVoice_allFree others)]
    exact commenced.later ((Follows.refl _).select.endEvent fun _ => startActive_requests idle)
  · intro v d e s running playing due now last ha idle reload clips
    refine ⟨_, voicePageDue_ends running playing due now last, fun owner hp chime => ?_, fun role owner _ hv chime => ?_⟩
    · rw [voiceEnded_chime owner ha hp chime]
      exact ⟨fun sounds => chime_plays ha idle sounds, fun silent hq hs => chime_ends ha silent hq hs⟩
    · have ended := lastVoice_ends ha hv chime idle
      rw [voiceEnded_last owner ha hv chime]
      refine ⟨ended.completed, fun hq hs => ?_, fun q left hc => ⟨fun expired hq hs => ended.expires hc expired hq hs,
        fun fresh alone ⟨w, hw, busy⟩ => ended.waits hc fresh alone hw busy idle,
        fun fresh alone others hushed room => begin_of (ended.commences hc fresh alone others hushed room idle reload clips)⟩⟩
      obtain ⟨gone, dark⟩ := lastVoice_left (v := v) ha hq hs
      exact ⟨gone.active, gone.hang, dark, gone.awake⟩

end
end Sys2Proof.Machine
end

section
/-! SUPPORT. The bounds of the fault record and of the link's queues (R113, R171, R173, R175): what the operations keep. -/

namespace Sys2Proof.Machine

/-- One page fault is recorded exactly while the count is above 0, and the link's queues keep their sizes. -/
def Bounded (s : State) : Prop := FaultInv s ∧ LinkInv s

/-- What the bounds read of a state: the count of page faults, the first one, and the lengths of the link's queues. -/
def State.tallies (s : State) : Nat × Option FaultRecord × Nat × Nat × Nat :=
  (s.voices.integrity, s.voices.firstFault, s.link.input.length, s.link.busy.length, s.link.reports.length)

/-- The link's part of the bounds. -/
def Link.Bounded (l : Link) : Prop := l.input.length ≤ 4 ∧ l.busy.length ≤ 4 ∧ l.reports.length ≤ 16

theorem linkInv_iff (s : State) : LinkInv s ↔ s.link.Bounded :=
  ⟨fun h => ⟨h.input, h.busy, h.reports⟩, fun ⟨input, busy, reports⟩ => ⟨input, busy, reports⟩⟩

namespace Link.Bounded
variable {l : Link} (h : l.Bounded)
include h

/-! ### The queues (R171, R173, R174, R175) -/

theorem foldReports (rs : List Report) : (rs.foldl Link.report l).Bounded := by
  obtain ⟨-, -, input, busy, -⟩ := foldl_report_same rs l
  exact ⟨by rw [input]; exact h.1, by rw [busy]; exact h.2.1, foldl_report_length rs l h.2.2⟩

theorem kick : l.kick.Bounded := by
  obtain ⟨busy, -, reports⟩ := kick_lengths l
  exact ⟨by rw [kick_input]; exact h.1, busy.trans h.2.1, reports.trans h.2.2⟩

theorem take (kind tag : Byte) : ({ l with input := takeFirst kind tag l.input } : Link).Bounded :=
  ⟨(takeFirst_length _ _ _).trans_le h.1, h.2⟩

/-- A good frame joins a queue with room alone, or is answered from a busy list with room alone (R173). -/
theorem takeFrame (kind tag : Byte) (body : List Byte) : (l.takeFrame kind tag body).Bounded := by
  unfold Link.takeFrame
  dsimp only
  split
  · next room => exact ⟨by simpa using room, h.2⟩
  · split
    · next room => exact ⟨h.1, by simpa using room, h.2.2⟩
    · exact h

theorem frameComplete (length : Nat) (received : List Byte) : (l.frameComplete length received).Bounded := by
  unfold Link.frameComplete
  split
  · split
    · exact h.takeFrame _ _ _
    · exact h
  · exact h

theorem gather (b : Byte) : (l.gather b).Bounded := by
  unfold Link.gather
  split
  · exact h
  · split
    · exact h
    · dsimp only
      split <;> exact h
  · split
    · exact h
    · exact Link.Bounded.frameComplete (l := { l with receiver := .hunt }) h _ _

theorem leaveQueue (r : Reply) (input : List QueuedRequest) (hi : input = l.input ∨ input = Machine.leaveQueue r l.input) :
    ({ l with sending := none, input := input } : Link).Bounded := by
  refine ⟨?_, h.2⟩
  rcases hi with rfl | rfl
  · exact h.1
  · exact (List.length_eraseP_le).trans h.1

end Link.Bounded

namespace Bounded
variable {s t : State}

theorem reads (h : Bounded s) (ht : t.tallies = s.tallies) : Bounded t := by
  obtain ⟨integrity, first, input, busy, reports⟩ :
      t.voices.integrity = s.voices.integrity ∧ t.voices.firstFault = s.voices.firstFault ∧
        t.link.input.length = s.link.input.length ∧ t.link.busy.length = s.link.busy.length ∧
        t.link.reports.length = s.link.reports.length := by simpa [State.tallies] using ht
  exact ⟨⟨integrity ▸ h.1.integrity, by rw [integrity, first]; exact h.1.firstFault⟩,
    ⟨input ▸ h.2.input, busy ▸ h.2.busy, reports ▸ h.2.reports⟩⟩

/-- Only the link's part changes. -/
theorem relink (h : Bounded s) {l : Link} (hl : l.Bounded) : Bounded { s with link := l } :=
  ⟨{ h.1 with }, (linkInv_iff _).2 hl⟩

theorem link (h : Bounded s) : s.link.Bounded := (linkInv_iff s).1 h.2

/-- The acts of the engines and of cues count no page fault, and hand the link reports alone. -/
theorem acts (h : Bounded s) (a : Acts s t) : Bounded t := by
  obtain ⟨rs, link⟩ := a.link
  refine ⟨⟨a.integrity ▸ h.1.integrity, by rw [a.integrity, a.firstFault]; exact h.1.firstFault⟩, (linkInv_iff t).2 ?_⟩
  rw [link]
  exact h.link.foldReports rs

theorem engines (h : Bounded s) (e : Engines s t) : Bounded t := h.acts (.ofEngines e)

/-! ### The link, and the end of an event -/

theorem report (h : Bounded s) (r : Report) : Bounded (s.report r) := h.engines (report_engines (.refl s) r)

theorem reply (h : Bounded s) (kind : Nat) (tag : Byte) (code : ResultCode) (data : ReplyData) :
    Bounded (s.reply kind tag code data) :=
  h.reads rfl

theorem kick (h : Bounded s) : Bounded s.kick := h.relink h.link.kick

theorem setLink (h : Bounded s) {f : Link → Link} (hf : (f s.link).Bounded) : Bounded (s.setLink f) := h.relink hf

theorem endEvent (h : Bounded s) : Bounded s.endEvent := by
  have granted : Bounded s.arbitrate := h.engines (arbitrate_engines (.refl s))
  obtain ⟨seats, published, -⟩ := publish_eq s.arbitrate
  obtain ⟨port, write, settled, -⟩ := settlePort_eq s.arbitrate.publish
  have chosen : Bounded s.arbitrate.publish.settlePort := by
    rw [settled, published]
    exact granted.reads rfl
  exact chosen.kick

theorem request {kind : Nat} {tag : Byte} {owner : State → State} (h : Bounded s)
    (ho : ∀ u, Bounded u → Bounded (owner u)) : Bounded (s.request kind tag owner) := by
  have taken := h.relink (h.link.take (BitVec.ofNat 8 kind) tag)
  unfold State.request
  split
  · dsimp only
    split
    · split
      · exact (taken.reply _ _ _ _).kick
      · exact ho _ taken
    · exact ho _ taken
  · exact h

theorem ofEvent {act : State → State} (ha : ∀ u, Bounded u → Bounded (act u)) (he : s.event act = .next t) (h : Bounded s) :
    Bounded t := by
  unfold State.event at he
  cases he
  split
  · exact (ha s h).endEvent
  · exact h

theorem ofCommand {kind : Nat} {tag : Byte} {act : State → State} (ha : ∀ u, Bounded u → Bounded (act u))
    (he : s.command kind tag act = .next t) (h : Bounded s) : Bounded t := by
  unfold State.command at he
  cases he
  exact h.request fun u hu => (ha u hu).endEvent

theorem ofQuery {kind : Nat} {tag : Byte} {act : State → State} (ha : ∀ u, (act u).tallies = u.tallies)
    (he : s.query kind tag act = .next t) (h : Bounded s) : Bounded t := by
  unfold State.query at he
  cases he
  exact h.request fun u hu => (hu.reads (ha u)).kick

/-! ### Page faults (R113) -/

/-- The count of a failing page saturates above 0, and a fault is recorded with it. -/
theorem pageFailed (h : Bounded s) (record : FaultRecord) (quiet : Bool) : Bounded (s.pageFailed record quiet) := by
  have counted : ∀ f : Option FaultRecord, f.isSome = true →
      Bounded { s with voices := { s.voices with integrity := min (s.voices.integrity + 1) 15, firstFault := f } } := by
    intro f hf
    refine ⟨⟨Nat.min_le_right _ _, ?_⟩, { h.2 with }⟩
    dsimp only
    rw [hf]
    exact ⟨fun _ => by omega, fun _ => rfl⟩
  unfold State.pageFailed
  dsimp only
  split
  · next f hf => exact (counted s.voices.firstFault (by rw [hf]; rfl)).reads rfl
  · split
    · exact (counted (some record) rfl).reads rfl
    · exact (counted (some record) rfl).report _

theorem checkPage (h : Bounded s) (page : Nat) (data : Option (List Byte)) (clip index : Nat) (quiet : Bool) :
    Bounded (s.checkPage page data clip index quiet).2 := by
  unfold State.checkPage
  split
  · exact h.pageFailed _ _
  · exact h

theorem readPage (h : Bounded s) (page : Nat) (failed : Bool) : Bounded (s.readPage page failed).2 := by
  obtain ⟨n, read⟩ := readPage_state s page failed
  rw [read]
  exact h.reads rfl

theorem voicePage (h : Bounded s) (v : Fin 16) (serial index page : Nat) (data : Option (List Byte)) :
    Bounded (s.voicePage v serial index page data) := by
  unfold State.voicePage
  split
  · split
    · exact h
    · next clip _ =>
      have checked := h.checkPage page data clip index false
      exact checked.engines (topUp_engines (setVoice_engines (.refl _) v _) v)
  · exact h

theorem residentPage (h : Bounded s) (buffer index page : Nat) (data : Option (List Byte)) (quiet : Bool) :
    Bounded (s.residentPage buffer index page data quiet) := by
  unfold State.residentPage
  split
  · exact h
  · next r _ =>
    split
    · have checked := h.checkPage page data r.clip index quiet
      exact checked.reads rfl
    · exact h

end Bounded
end Sys2Proof.Machine
end

section
/-! SUPPORT. The bounds through the seats, the cues, routes, settings, reloads and start-ups. -/

namespace Sys2Proof.Machine
namespace Bounded
variable {s t : State}

/-! ### Seats (R42 to R58) -/

theorem tellListeners (h : Bounded s) : Bounded s.tellListeners := by
  obtain ⟨r, l, p, rs, told⟩ := tellListeners_eq s
  rw [told]
  exact (h.relink (h.link.foldReports rs)).reads rfl

theorem seatsTaken (h : Bounded s) (table : SeatTable) : Bounded (s.seatsTaken table) := by
  obtain ⟨u, hu, taken | told⟩ := seatsTaken_spec s table
  · rw [taken]; exact engines (h.reads (by rfl)) hu
  · rw [told]; exact (engines (h.reads (by rfl)) hu).tellListeners

theorem refreshEnabled (h : Bounded s) : Bounded s.refreshEnabled := by
  obtain ⟨-, same⟩ | ⟨u, hu, formed | told⟩ := refreshEnabled_spec s
  · rw [same]; exact h
  · rw [formed]; exact engines (h.reads (by rfl)) hu
  · rw [told]; exact (engines (h.reads (by rfl)) hu).tellListeners

theorem endListenersHold (h : Bounded s) : Bounded s.endListenersHold := by
  have cleared : Bounded { s with seats := { s.seats with reportPending := false } } := h.reads rfl
  unfold State.endListenersHold
  dsimp only
  split
  · exact cleared
  · exact report (cleared.reads (by rfl)) _

theorem missReply (h : Bounded s) (box : Fin 16) : Bounded (s.missReply box) := by
  have seated : ∀ table : SeatTable, Bounded { s with seats := table } := fun _ => h.reads rfl
  unfold State.missReply
  dsimp only
  split
  · exact ((seated _).report _).seatsTaken _
  · exact seated _

theorem takeReply (h : Bounded s) (r : PollReply) : Bounded (s.takeReply r) := by
  unfold State.takeReply
  dsimp only
  split
  · exact h.seatsTaken _
  · exact (h.report _).seatsTaken _

/-! ### The voices (R110, R111) -/

theorem duePlaying (h : Bounded s) (v : Fin 16) : Bounded (s.duePlaying v) := by
  unfold State.duePlaying
  dsimp only
  split
  · exact h.engines (voiceEnded_engines (.refl s) v)
  · split
    · exact h.engines (topUp_engines (setVoice_engines (.refl s) v _) v)
    · split
      · exact h.reads rfl
      · exact h.engines (voiceEnded_engines (.refl s) v)

theorem freed (h : Bounded s) (v : Fin 16) : Bounded (s.dropVoice v).tellFree :=
  h.engines (tellFree_engines (dropVoice_engines (.refl s) v))

theorem dueStopping (h : Bounded s) (v : Fin 16) : Bounded (s.dueStopping v) := by
  unfold State.dueStopping
  dsimp only
  split
  · exact h.freed v
  · split <;> exact h.reads rfl

/-! ### The tracker and the modes (R1 to R15, R124, R125) -/

theorem advance (h : Bounded s) : Bounded s.advance := h.acts (advance_acts (.refl s))

theorem deriveNeed (h : Bounded s) : Bounded s.deriveNeed := h.acts (deriveNeed_acts (.refl s))

theorem pulse (h : Bounded s) (arrival : BitVec 32) : Bounded (s.pulse arrival) := by
  have moved : ∀ tr : Tracker, Bounded { s with tracker := tr } := fun _ => h.reads rfl
  unfold State.pulse
  split
  · dsimp only
    split
    · exact (moved _).advance
    · exact moved _
  · exact moved _

theorem motionTest (h : Bounded s) : Bounded s.motionTest := by
  obtain ⟨mode, pending, tested⟩ := motionTest_acts s
  exact acts (h.reads (by rfl)) tested

theorem endWindow (h : Bounded s) : Bounded s.endWindow := by
  have renewed : Bounded s.windowed := h.reads rfl
  exact renewed.advance.motionTest

theorem hardFix (h : Bounded s) (projected : Nat) : Bounded (s.hardFix projected) := by
  have moved : ∀ tr : Tracker, Bounded { s with tracker := tr } := fun _ => h.reads rfl
  unfold State.hardFix
  dsimp only
  split
  · exact (moved _).acts (jumpBackward_acts (.refl _) _)
  · exact (moved _).acts (jumpForward_acts (.refl _))

theorem leaveByMotion (h : Bounded s) : Bounded s.leaveByMotion := by
  have run : Bounded { s with store := { s.store with mode := .run, motionPending := false } } := h.reads rfl
  exact run.advance.report _

/-! ### Routes (R16, R22 to R27) -/

theorem routeChange (h : Bounded s) : Bounded s.routeChange := by
  have left : ∀ u, Bounded u → ∀ (c : CueEngine) (tr : Tracker),
      Bounded ({ u with cues := c, tracker := tr } : State).stopCommentary.dropCueEntries := fun u hu c tr =>
    engines (s := { u with cues := c, tracker := tr }) (hu.reads rfl)
      (dropCueEntries_engines (stopCommentary_engines (.refl _)))
  have dark : ∀ u, Bounded u → ∀ l : Lights, Bounded (({ u with lights := l } : State).setQuiet false).refreshEnabled :=
    fun u hu l => (acts (s := { u with lights := l }) (hu.reads rfl) (setQuiet_acts (.refl _) false)).refreshEnabled
  unfold State.routeChange
  dsimp only
  refine dark _ (left _ ?_ _ _) _
  split
  · exact h.report _
  · exact h

theorem failLoad (h : Bounded s) (reason : RouteFailure) : Bounded (s.failLoad reason) :=
  (h.report (.routeFailed s.cues.routeNumber reason)).reads rfl

theorem loadPage (h : Bounded s) (extent : Extent) (load : Load) (page : List Byte) : Bounded (s.loadPage extent load page) := by
  have ready : ∀ (c : CueEngine) (r : Report), Bounded (({ s with cues := c } : State).report r).refreshEnabled := fun c r =>
    (report (s := { s with cues := c }) (h.reads rfl) r).refreshEnabled
  unfold State.loadPage
  dsimp only
  split
  · exact ready _ _
  · exact h.failLoad _
  · split
    · exact h.failLoad _
    · exact h.reads rfl

theorem routePage (h : Bounded s) (serial index page : Nat) (data : Option (List Byte)) :
    Bounded (s.routePage serial index page data) := by
  unfold State.routePage
  split
  · split
    · split
      · exact h.failLoad _
      · exact h.loadPage _ _ _
    · exact h
  · exact h

theorem readRoutePage (h : Bounded s) (page : Nat) (failed : Bool) : Bounded (s.readRoutePage page failed).2 := by
  unfold State.readRoutePage
  split
  · exact h
  · exact h.readPage _ _

/-! ### Reloads (R137, R120) -/

theorem waitingLookup (h : Bounded s) (v : Fin 16) : Bounded (s.waitingLookup v) := by
  unfold State.waitingLookup
  split
  · exact h
  · next clip page _ =>
    have looked := h.engines (lookUp_engines (.refl s) v clip page)
    revert looked
    generalize s.lookUp v clip page = p
    intro looked
    obtain ⟨u, o⟩ := p
    cases o
    case started => exact looked
    all_goals exact looked.engines (ownerActs_engines (.refl u) _ v)

theorem waitingLookups (l : List (Fin 16)) (h : Bounded s) : Bounded (l.foldl State.waitingLookup s) := by
  induction l generalizing s with
  | nil => exact h
  | cons v l ih => exact ih (h.waitingLookup v)

theorem endReload (h : Bounded s) (r : Reload) : Bounded (s.endReload r) := by
  have told : ∀ (c : CueEngine) (st : Store) (p : Report), Bounded (({ s with cues := c, store := st } : State).report p) :=
    fun c st p => report (s := { s with cues := c, store := st }) (h.reads rfl) p
  unfold State.endReload
  generalize List.finRange 16 = voices
  dsimp only
  split
  · exact (waitingLookups voices (reads (told _ _ _) (by rfl))).leaveByMotion
  · exact waitingLookups voices (reads (told _ _ _) (by rfl))

theorem directoryPage (h : Bounded s) (use : ReadUse) (d : Option (List Byte)) (erasing : Bool) :
    Bounded (s.directoryPage use d erasing) := by
  unfold State.directoryPage
  split
  · exact h
  · dsimp only
    split
    · exact h.endReload _
    · exact h.reads rfl

/-! ### Settings (R179) -/

theorem settingWritten (h : Bounded s) (id : Nat) : Bounded (s.settingWritten id) := by
  have mixed : ∀ m : Mixer, Bounded { s with mixer := m } := fun _ => h.reads rfl
  unfold State.settingWritten
  split
  case h_2 => exact h.advance
  case h_3 => exact h.advance.motionTest
  case h_4 => exact h.refreshEnabled
  case h_5 => exact h.seatsTaken _
  case h_6 => exact (mixed _).deriveNeed.engines (deriveDemand_engines (.refl _))
  case h_11 =>
    unfold State.delayWritten
    split <;> exact h.reads rfl
  case h_13 => exact (mixed _).deriveNeed
  all_goals exact h.reads rfl

/-! ### Power (R181 to R186) -/

/-- A start-up and the entry into STANDBY abandon both records. -/
theorem fresh (hv : t.voices = {}) (hl : t.link = {}) : Bounded t :=
  ⟨⟨by rw [hv]; exact Nat.zero_le _, by rw [hv]; decide⟩, (linkInv_iff t).2 (by rw [hl]; exact ⟨by decide, by decide, by decide⟩)⟩

theorem beginStartUp (s : State) (kind : StartKind) (latches : Latches) : Bounded (s.beginStartUp kind latches) :=
  fresh rfl rfl

theorem enterStandby (s : State) : Bounded s.enterStandby := fresh rfl rfl

theorem wakeInput (h : Bounded s) (w : WakeCause) : Bounded (s.wakeInput w) := by
  unfold State.wakeInput
  split
  · exact h
  · unfold State.abortEntry
    dsimp only
    split <;> exact report (h.reads (by rfl)) _
  · exact beginStartUp s _ _
  · split
    · exact h.reads rfl
    · exact h

theorem afterWrite (h : Bounded s) : Bounded s.afterWrite := by
  unfold State.afterWrite
  split
  · exact enterStandby s
  · exact h

theorem writeDone (h : Bounded s) {store : Store} {act : State → State} (ha : ∀ u, Bounded u → Bounded (act u)) :
    Bounded (s.writeDone store act) := by
  have ended : Bounded { s with store := store.writeEnds } := h.reads rfl
  exact (ha _ ended).endEvent.afterWrite

theorem receive (h : Bounded s) (b : Byte) : Bounded (s.receive b) := by
  unfold State.receive
  split
  · split
    · have woken := h.wakeInput .link
      exact woken.setLink woken.link
    · exact h.setLink h.link
  · exact h.setLink (Link.Bounded.gather (l := { s.link with lastByte := s.clock }) h.link b)

theorem takeLoad (h : Bounded s) (r : PortRead) (data : Option (List Byte)) : Bounded (s.takeLoad r data) := by
  unfold State.takeLoad
  split
  · exact h.reads rfl
  · dsimp only
    split <;> exact h.reads rfl
  · exact h.residentPage _ _ _ _ _
  · unfold State.takeLockPage
    split <;> exact h.reads rfl
  · exact h

theorem storeFaults (l : List FaultRecord) (h : Bounded s) : Bounded (l.foldl (fun s f => s.report (.storeFault f)) s) := by
  induction l generalizing s with
  | nil => exact h
  | cons f l ih => exact ih (h.report _)

theorem completeStartUp (h : Bounded s) : Bounded s.completeStartUp := by
  have sampled : ∀ u, Bounded u → Bounded (if u.power.ignition then u else u.armTimer) := by
    intro u hu
    split
    · exact hu
    · exact hu.reads rfl
  unfold State.completeStartUp
  dsimp only
  exact (sampled _ (storeFaults _ (report (h.reads (by rfl)) _))).kick

theorem loadArrives (h : Bounded s) (failed : Bool) : Bounded (s.loadArrives failed) := by
  unfold State.loadArrives
  split
  · exact h
  · next r _ =>
    have loaded := (h.readPage r.page failed).takeLoad r (s.readPage r.page failed).1
    dsimp only
    split
    · exact loaded.reads rfl
    · exact completeStartUp (loaded.reads rfl)

end Bounded
end Sys2Proof.Machine
end

section
/-! OBLIGATION. One page fault is recorded exactly while the count is above 0, and the link's queues keep their sizes. -/

namespace Sys2Proof.Machine
namespace Bounded
variable {s t : State}

theorem replyAdmission (h : Bounded s) (tag : Byte) (o : Admission) : Bounded (s.replyAdmission tag o) := by
  cases o <;> exact h.reply _ _ _ _

theorem beginLoad (h : Bounded s) (n : Nat) (extent : Extent) : Bounded (s.beginLoad n extent) := h.reads rfl

/-- An event that acts when it is due, and changes nothing before (log 19). -/
theorem ofDue {due : State → Bool} {act : State → State} (ha : ∀ u, Bounded u → Bounded (act u))
    (he : s.event (fun u => if due u then act u else u) = .next t) (h : Bounded s) : Bounded t := by
  refine ofEvent (fun u hu => ?_) he h
  split
  · exact ha u hu
  · exact hu

/-- Every request keeps the bounds: its owner acts on commentary, cues, seats, routes or settings, and it is answered. -/
theorem ofRequest {c : Instr} (hr : (requestOf c).isSome = true) (he : exec c s = .next t) (h : Bounded s) : Bounded t := by
  cases c
  -- Requests of whose work the bounds read nothing.
  case getPosition | getCues | getSeats | getStreams | getAnnouncements | setPrecedence | volatileOn
      | volatileOff | lockdown | freezeLocks | getStoreState | setLight | applyScene | clearScene | setMaster | getLights
      | getStatus | restart | getSetting | standby | fixSoft | detourBegin =>
    simp only [exec, execGetPosition, execGetCues, execGetSeats, execGetStreams, execGetAnnouncements, execSetPrecedence,
      execVolatileOn, execVolatileOff, execLockdown, execFreezeLocks, execGetStoreState, execSetLight, execApplyScene,
      execClearScene, execSetMaster, execGetLights, execGetStatus, execRestart, execGetSetting, execStandby, execFixSoft,
      execDetourBegin] at he
    exact ofQuery (fun u => by (repeat' split) <;> rfl) he h
  case storeRead | storeProgram | storeErase | reloadDirectory | lockPersistent | unlockAll | saveSettings =>
    simp only [exec, execStoreRead, execStoreProgram, execStoreErase, execReloadDirectory, execLockPersistent, execUnlockAll,
      execSaveSettings] at he
    exact ofCommand (fun u hu => hu.reads (by (repeat' split) <;> rfl)) he h
  -- The fault record cleared (R114).
  case clearStoreFaults tag =>
    simp only [exec, execClearStoreFaults, State.query] at he
    cases he
    refine h.request fun u hu => ?_
    have cleared : Bounded { u with voices := { u.voices with integrity := 0, firstFault := none } } :=
      ⟨⟨Nat.zero_le _, by simp⟩, { hu.2 with }⟩
    exact (cleared.reply _ _ _ _).kick
  -- Announcements and seats.
  case announce tag cls clipSet maxWait =>
    simp only [exec, execAnnounce] at he
    refine ofCommand (fun u hu => ?_) he h
    split
    · exact hu.reply _ _ _ _
    · split
      · exact hu.reply _ _ _ _
      · split
        · exact hu.reply _ _ _ _
        · exact replyAdmission (hu.acts (admitEntry_acts (.refl u) _)) _ _
  case cancelAnnounce tag ticket =>
    simp only [exec, execCancelAnnounce] at he
    refine ofCommand (fun u hu => ?_) he h
    split
    · exact hu.reply _ _ _ _
    · split
      · exact hu.reply _ _ _ _
      · exact (hu.reply _ _ _ _).engines (cancelEntry_engines (.refl _) _)
  case setSeat tag seat f =>
    simp only [exec, execSetSeat] at he
    refine ofCommand (fun u hu => ?_) he h
    split
    · exact hu.reply _ _ _ _
    · split
      · exact hu.reply _ _ _ _
      · split
        · exact hu.reply _ _ _ _
        · exact (hu.seatsTaken _).reply _ _ _ _
  case seatApply tag f =>
    simp only [exec, execSeatApply] at he
    refine ofCommand (fun u hu => ?_) he h
    split
    · exact hu.reply _ _ _ _
    · split
      · exact hu.reply _ _ _ _
      · exact (hu.seatsTaken _).reply _ _ _ _
  -- Fixes, modes and cues.
  case fixHard =>
    simp only [exec, execFixHard] at he
    refine ofCommand (fun u hu => ?_) he h
    split
    · exact hu.reply _ _ _ _
    · exact (hu.reply _ _ _ _).hardFix _
  case detourEnd =>
    simp only [exec, execDetourEnd] at he
    refine ofCommand (fun u hu => ?_) he h
    split
    · exact advance (hu.reads (by rfl))
    · exact hu.reply _ _ _ _
  case forceCue =>
    simp only [exec, execForceCue] at he
    refine ofCommand (fun u hu => ?_) he h
    split
    · exact hu.reply _ _ _ _
    · split
      · exact hu.reply _ _ _ _
      · split
        · exact (hu.reply _ _ _ _).acts (fireCue_acts (.refl _) _ _)
        · exact hu.reply _ _ _ _
  case enterService tag =>
    simp only [exec, execEnterService] at he
    refine ofCommand (fun u hu => ?_) he h
    split
    · exact hu.reply _ _ _ _
    · split
      · exact engines (hu.reads (by rfl)) (stopCommentary_engines (.refl _))
      · exact hu.reply _ _ _ _
  case leaveService =>
    simp only [exec, execLeaveService] at he
    refine ofCommand (fun u hu => ?_) he h
    split
    · exact hu.reply _ _ _ _
    · split
      · exact hu.reply _ _ _ _
      · exact advance (hu.reads (by rfl))
  -- Routes, settings and zones.
  case selectRoute tag route =>
    simp only [exec, execSelectRoute] at he
    refine ofCommand (fun u hu => ?_) he h
    split
    · exact hu.reply _ _ _ _
    · split
      · exact (hu.reply _ _ _ _).routeChange
      · split
        · exact hu.reply _ _ _ _
        · exact (hu.reply _ _ _ _).routeChange.beginLoad _ _
  case setSetting tag id value =>
    simp only [exec, execSetSetting] at he
    refine ofCommand (fun u hu => ?_) he h
    split
    · exact hu.reply _ _ _ _
    · split
      · exact hu.reply _ _ _ _
      · split
        · exact hu.reply _ _ _ _
        · exact (settingWritten (hu.reads (by rfl)) id).reply _ _ _ _
  case setZone tag zone gain commentary =>
    simp only [exec, execSetZone] at he
    refine ofCommand (fun u hu => ?_) he h
    split
    · exact hu.reply _ _ _ _
    · exact (deriveNeed (hu.reads (by rfl))).reply _ _ _ _
  all_goals cases hr

/-- Every other command keeps the bounds. -/
theorem ofOther {c : Instr} (hr : requestOf c = none) (he : exec c s = .next t) (h : Bounded s) : Bounded t := by
  cases c
  -- Events of which the bounds read nothing.
  case poll | lightRampAdvance | flashPhaseEnd | ignitionOffTimer | settingsEraseComplete | duckRampAdvance
      | outputRampAdvance =>
    simp only [exec, execPoll, execLightRampAdvance, execFlashPhaseEnd, execIgnitionOffTimer, execSettingsEraseComplete,
      execDuckRampAdvance, execOutputRampAdvance] at he
    exact ofEvent (fun u hu => hu.reads (by (repeat' split) <;> rfl)) he h
  -- Pages that arrive (R112, R113).
  case voicePageArrival voice failed =>
    simp only [exec, execVoicePageArrival] at he
    refine ofEvent (fun u hu => ?_) he h
    split
    · next page v serial index _ =>
      split
      · exact voicePage ((hu.readPage page failed).reads (by rfl)) _ _ _ _ _
      · exact hu
    · exact hu
  case residentPageArrival failed =>
    simp only [exec, execResidentPageArrival] at he
    refine ofEvent (fun u hu => ?_) he h
    split
    · next page buffer index _ => exact residentPage ((hu.readPage page failed).reads (by rfl)) _ _ _ _ _
    · exact hu
  case storeReadData failed =>
    simp only [exec, execStoreReadData] at he
    refine ofEvent (fun u hu => ?_) he h
    split
    · next page tag _ => exact (hu.readPage page failed).reads rfl
    · exact hu
  case blankCheckData failed =>
    simp only [exec, execBlankCheckData] at he
    refine ofEvent (fun u hu => ?_) he h
    split
    · next page tag bytes _ =>
      refine (hu.readPage page failed).reads ?_
      unfold State.blankChecked
      (repeat' split) <;> rfl
    · exact hu
  case routePageArrival failed =>
    simp only [exec, execRoutePageArrival] at he
    refine ofEvent (fun u hu => ?_) he h
    split
    · next page serial index _ => exact routePage ((hu.readRoutePage page failed).reads (by rfl)) _ _ _ _
    · exact hu
  case directoryPageArrival failed =>
    simp only [exec, execDirectoryPageArrival] at he
    refine ofEvent (fun u hu => ?_) he h
    split
    · exact hu
    · next r _ =>
      split
      · exact directoryPage ((hu.readPage r.page failed).reads (by rfl)) _ _ _
      · exact hu
  -- Events that act when they are due.
  case noticeMaxWait | hangTimerExpiry =>
    simp only [exec, execNoticeMaxWait, execHangTimerExpiry] at he
    exact ofDue (fun u hu => hu.engines (select_engines (endActive_engines (.refl u) _))) he h
  case streamDelayEnd slot =>
    simp only [exec, execStreamDelayEnd] at he
    exact ofDue (fun u hu => hu.engines (endDelay_engines (.refl u) slot)) he h
  case segmentTimeEnd slot =>
    simp only [exec, execSegmentTimeEnd] at he
    exact ofDue (fun u hu => hu.engines (finishSegment_engines (.refl u) slot)) he h
  case voicePageDue v =>
    simp only [exec, execVoicePageDue] at he
    refine ofDue (fun u hu => ?_) he h
    split
    · exact hu.duePlaying v
    · exact hu.dueStopping v
  case fadeEnd v =>
    simp only [exec, execFadeEnd] at he
    exact ofDue (fun u hu => hu.freed v) he h
  case missedReply box =>
    simp only [exec, execMissedReply] at he
    exact ofDue (fun u hu => hu.missReply box) he h
  case pollReply r =>
    simp only [exec, execPollReply] at he
    exact ofDue (fun u hu => hu.takeReply r) he h
  case listenersHoldEnd =>
    simp only [exec, execListenersHoldEnd] at he
    exact ofDue (fun u hu => hu.endListenersHold) he h
  case odometerPulse => exact ofEvent (fun u hu => hu.pulse _) he h
  case speedWindow =>
    simp only [exec, execSpeedWindow] at he
    exact ofDue (fun u hu => hu.endWindow) he h
  case positionReport =>
    simp only [exec, execPositionReport] at he
    exact ofDue (fun u hu => report (hu.reads (by rfl)) _) he h
  case writeBegin =>
    simp only [exec, execWriteBegin] at he
    refine ofDue (fun u hu => ?_) he h
    rw [shiftWrite_eq]
    exact hu.reads rfl
  -- The receiver and the transmitter.
  case lineErrorByte | frameTimeout =>
    simp only [exec, execLineErrorByte, execFrameTimeout] at he
    cases he
    split
    · exact kick (h.reads (by rfl))
    · exact h
  case badKind tag kind =>
    simp only [exec, execBadKind] at he
    cases he
    split
    · exact ((h.setLink (f := fun l => { l with input := takeFirst kind tag l.input }) (h.link.take kind tag)).reply
        _ _ _ _).kick
    · exact h
  case linkByte =>
    simp only [exec, execLinkByte] at he
    cases he
    split
    · exact (h.receive _).kick
    · split
      · exact h.wakeInput _
      · exact h
  case frameSent =>
    simp only [exec, execFrameSent] at he
    cases he
    split
    · exact h
    · next r _ =>
      split
      · exact beginStartUp _ _ _
      · refine kick (h.setLink (h.link.leaveQueue r _ ?_))
        split
        · exact .inl rfl
        · exact .inr rfl
    · exact kick (h.reads (by rfl))
  -- Start-ups and the input lines.
  case powerOn => cases he; exact beginStartUp _ _ _
  case startupPageArrival =>
    simp only [exec, execStartupPageArrival] at he
    cases he
    split
    · exact h.loadArrives _
    · exact h
  case pttPress =>
    simp only [exec, execPttPress] at he
    cases he
    split
    · exact h
    · have woken := wakeInput (s := { s with power := { s.power with pttLine := true } }) (h.reads rfl) .ptt
      split
      · exact (acts (woken.reads (by rfl)) (livePress_acts _)).endEvent
      · exact woken
  case pttRelease =>
    simp only [exec, execPttRelease] at he
    cases he
    split
    · have released : Bounded { s with power := { s.power with pttLine := false } } := h.reads rfl
      split
      · exact (engines (released.reads (by rfl)) (liveRelease_engines _)).endEvent
      · exact released
    · exact h
  case ignitionRise =>
    simp only [exec, execIgnitionRise] at he
    cases he
    split
    · exact h
    · have woken := wakeInput (s := { s with power := { s.power with ignition := true, offTimer := none } }) (h.reads rfl)
        .ignition
      split
      · exact woken.endEvent
      · exact woken
  case ignitionFall =>
    simp only [exec, execIgnitionFall] at he
    cases he
    split
    · split <;> exact h.reads rfl
    · exact h
  case entryPhaseEnd =>
    simp only [exec, execEntryPhaseEnd] at he
    cases he
    split
    · split
      · exact enterStandby _
      · exact h.reads rfl
    · exact h
  -- Writes done.
  case pageProgramComplete | lockProgramComplete =>
    simp only [exec, execPageProgramComplete, execLockProgramComplete] at he
    cases he
    split
    · split
      · exact h.writeDone fun u hu => hu.reply _ _ _ _
      · exact h
    · exact h
  case sectorEraseComplete | lockEraseComplete | settingsSaved =>
    simp only [exec, execSectorEraseComplete, execLockEraseComplete, execSettingsSaved] at he
    cases he
    split
    · split
      · exact h.writeDone fun u hu => hu.report _
      · exact h
    · exact h
  all_goals cases hr

theorem ofExec {c : Instr} (he : exec c s = .next t) (h : Bounded s) : Bounded t := by
  cases hr : requestOf c with
  | none => exact ofOther hr he h
  | some q => exact ofRequest (by rw [hr]; rfl) he h

end Bounded

/-- Settles O43: a page fault is counted and recorded by `Bounded.pageFailed` alone, the engines hand the link reports alone
(`Bounded.acts`), and the receiver keeps its queues by `Link.Bounded.takeFrame`. -/
theorem faultsAndQueuesStayBounded : Obligations.FaultsAndQueuesStayBounded := by
  intro s t h hs
  unfold step at hs
  split at hs
  · next c rest _ => exact Bounded.ofExec hs (Bounded.reads (s := s) h rfl)
  · cases hs
    unfold State.idle
    split
    · split <;> exact Bounded.reads h rfl
    · exact h

end Sys2Proof.Machine
end

section
/-! OBLIGATION. The read port's choice (R118, R119). -/

namespace Sys2Proof.Machine

/-! ### The first of the waiting voice fetches (R118) -/

theorem fetchBefore_iff (voices : Table Voice 16) {a b : PortRead} {v w : Fin 16} {m n i j : Nat} (ha : a.use = .voice v m i)
    (hb : b.use = .voice w n j) :
    fetchBefore voices a b = true ↔ (voices.get v).queue.length < (voices.get w).queue.length ∨
      ((voices.get v).queue.length = (voices.get w).queue.length ∧ v < w) := by
  simp [fetchBefore, ha, hb]

theorem fetchBefore_asymm {voices : Table Voice 16} {a b : PortRead} (h : fetchBefore voices a b = true) :
    fetchBefore voices b a = false := by
  unfold fetchBefore at *
  split at h
  · next v _ _ w _ _ ha hb =>
    simp only [ha, hb, Bool.or_eq_true, Bool.and_eq_true, Bool.or_eq_false_iff, Bool.and_eq_false_iff, decide_eq_true_eq,
      decide_eq_false_iff_not] at *
    omega
  · cases h

/-- A waiting fetch that goes before every other is the one chosen. -/
theorem bestFetch_first {voices : Table Voice 16} {l : List PortRead} {r : PortRead} (hr : r ∈ l)
    (first : ∀ q ∈ l, q = r ∨ fetchBefore voices r q = true) : bestFetch voices l = some r := by
  induction l with
  | nil => cases hr
  | cons a l ih =>
    by_cases later : r ∈ l
    · have best := ih later fun q hq => first q (List.mem_cons_of_mem a hq)
      rw [bestFetch, best]
      rcases first a List.mem_cons_self with rfl | before
      · exact ite_self _
      · exact if_pos before
    · obtain rfl : r = a := (List.mem_cons.1 hr).resolve_right later
      rw [bestFetch]
      cases hb : bestFetch voices l with
      | none => rfl
      | some b =>
        have member := bestFetch_mem hb
        have before := (first b (List.mem_cons_of_mem r member)).resolve_left fun same => later (same ▸ member)
        exact if_neg (by rw [fetchBefore_asymm before]; exact Bool.false_ne_true)

/-! ### A program at the port (R119) -/

/-- Whether a kind of write programs when it runs. -/
def WriteKind.programs : WriteKind → Prop
  | .pageProgram _ _ | .lockProgram _ _ => True
  | .settingsSave _ erased => erased = true
  | .sectorErase | .lockErase => False

theorem programming_iff (st : Store) :
    st.programming = true ↔ ∃ w, st.write = some w ∧ w.phase = .running ∧ w.kind.programs := by
  unfold Store.programming
  cases st.write with
  | none => simp
  | some w =>
    dsimp only
    cases hk : w.kind <;> simp [WriteKind.programs, hk]

theorem programs_iff (k : WriteKind) :
    k.programs ↔ (∃ data tag, k = .pageProgram data tag) ∨ (∃ target tag, k = .lockProgram target tag) ∨
      ∃ record, k = .settingsSave record true := by
  cases k <;> simp [WriteKind.programs]

/-! ### The port by what waits (R118, R119) -/

/-- The phase of the write in flight and the port are set apart from one another. -/
theorem shiftWrite_port (s : State) (p : Port) (old new : WritePhase) :
    ({ s with port := p } : State).shiftWrite old new = { s.shiftWrite old new with port := p } := by
  rw [shiftWrite_eq, shiftWrite_eq]

section
variable {s : State}

theorem settlePort_serving {r : PortRead} (h : s.port.serving = some r) : s.settlePort = s := by
  unfold State.settlePort
  rw [h]

theorem settlePort_programming (h : s.store.programming = true) : s.settlePort = s := by
  unfold State.settlePort
  split
  · rfl
  · exact if_pos h

variable (free : s.port.serving = none) (idle : s.store.programming = false)
include free idle

theorem settlePort_fetch {r : PortRead} (h : bestFetch s.voices.voices s.port.fetches = some r) :
    s.settlePort = { s.shiftWrite .running .suspended with
      port := { s.port with serving := some r, fetches := s.port.fetches.erase r } } := by
  unfold State.settlePort
  simp only [free, idle, h, Bool.false_eq_true, if_false]
  exact shiftWrite_port s _ _ _

theorem settlePort_second {r : PortRead} {rs : List PortRead} (hf : s.port.fetches = []) (hs : s.port.second = r :: rs) :
    s.settlePort = { s.shiftWrite .running .suspended with port := { s.port with serving := some r, second := rs } } := by
  unfold State.settlePort
  simp only [free, idle, hf, hs, bestFetch, Bool.false_eq_true, if_false]
  exact shiftWrite_port s _ _ _

theorem settlePort_idle (hf : s.port.fetches = []) (hs : s.port.second = []) :
    s.settlePort = s.shiftWrite .suspended .running := by
  unfold State.settlePort
  simp only [free, idle, hf, hs, bestFetch, Bool.false_eq_true, if_false]

end

/-- Settles O42: the waiting fetch that goes before every other is `bestFetch` (`bestFetch_first`), and a write that runs
gives way unless it programs (`programming_iff`). -/
theorem readPortChoice : Obligations.ReadPortChoice := by
  intro s phased
  have shifted : ∀ old new, phased old new = s.shiftWrite old new := by
    intro old new
    unfold State.shiftWrite
    dsimp only [phased]
    cases s.store.write <;> rfl
  refine ⟨fun r served => settlePort_serving served, fun w hw running program => ?_, fun free erases => ?_⟩
  · exact settlePort_programming ((programming_iff _).2 ⟨w, hw, running, (programs_iff _).2 program⟩)
  · have idle : s.store.programming = false := by
      refine Bool.eq_false_iff.2 fun programming => ?_
      obtain ⟨w, hw, running, programs⟩ := (programming_iff _).1 programming
      rcases erases w hw running with kind | kind | ⟨record, kind⟩ <;> rw [kind] at programs
      · exact programs
      · exact programs
      · cases programs
    refine ⟨fun r v serial index waits use first => ?_, fun r rs fetches second => ?_, fun fetches second => ?_⟩
    · rw [shifted]
      refine settlePort_fetch free idle (bestFetch_first waits fun q hq => (first q hq).imp_right ?_)
      rintro ⟨w, serial', index', use', before⟩
      exact (fetchBefore_iff _ use use').2 before
    · rw [shifted]
      exact settlePort_second free idle fetches second
    · rw [shifted]
      exact settlePort_idle free idle fetches second

end Sys2Proof.Machine
end

section
/-! OBLIGATION. The mixes of slots and zones (R110, R111, R141, R143, R144, R150, Table 8-2). -/

namespace Sys2Proof.Machine

/-! ### Factors (R141, R150) -/

theorem applyFactor_floor (x : Int) (f : Nat) :
    32768 * applyFactor x f ≤ x * f ∧ x * f < 32768 * (applyFactor x f + 1) := by
  unfold applyFactor
  generalize x * (f : Int) = y
  omega

@[simp] theorem applyFactor_zero (x : Int) : applyFactor x 0 = 0 := by simp [applyFactor]

@[simp] theorem zero_applyFactor (f : Nat) : applyFactor 0 f = 0 := by simp [applyFactor]

@[simp] theorem fadeSample_zero (m : Mixer) : m.fadeSample 0 = 0 := by simp [Mixer.fadeSample]

theorem saturate16_eq (x : Int) : saturate16 x = max (-32768) (min 32767 x) := by
  rw [saturate16, min_comm]

/-! ### Samples (R110, R111) -/

theorem sample_silent {v : Voice} (h : v.state = .free ∨ v.state = .priming) (k : Nat) : v.sample k = 0 := by
  unfold Voice.sample
  rcases h with h | h <;> rw [h]

theorem sample_playing {v : Voice} (h : v.state = .playing) (k : Nat) : v.sample k = v.sounding.getD k v.hold := by
  unfold Voice.sample
  rw [h]

theorem sample_stopping {v : Voice} (h : v.state = .stopping) (k : Nat) :
    v.sample k = applyFactor (v.sounding.getD k v.hold) (32767 * (20 - v.fade) / 20) := by
  unfold Voice.sample
  rw [h]
  rfl

/-! ### Sums (R143, R144) -/

theorem voiceSum_eq (s : State) (k : Nat) (factor : Destination → Option Nat) :
    s.voiceSum k factor =
      ((List.finRange 16).map fun v =>
        ((s.mixer.destinations.get v).bind factor).elim 0 fun f => applyFactor ((s.voice v).sample k) f).sum := by
  unfold State.voiceSum
  rw [← List.sum_eq_foldl]
  refine congrArg List.sum (List.map_congr_left fun v _ => ?_)
  cases s.mixer.destinations.get v with
  | none => rfl
  | some d =>
    dsimp only [Option.bind]
    cases factor d <;> rfl

/-- The saturated sum of the microphone and the voices, each under the factor of its destination. -/
theorem mix_eq (s : State) (k : Nat) (mic : Int) {f g : Destination → Option Nat} (h : ∀ d, f d = g d) :
    saturate16 (s.voiceSum k f + s.micSample mic) =
      max (-32768) (min 32767 ((if s.mixer.microphone = true then applyFactor mic 32767 else 0) +
        ((List.finRange 16).map fun v =>
          ((s.mixer.destinations.get v).bind g).elim 0 fun f => applyFactor ((s.voice v).sample k) f).sum)) := by
  rw [funext h, voiceSum_eq, saturate16_eq, add_comm]
  rfl

/-- A zone with gain step 0 is silent: its factor is the last of Table 8-2. -/
theorem zoneMix_silent (s : State) (upper : Bool) (k : Nat) (mic : Int)
    (h : (if upper then s.mixer.upper else s.mixer.lower).gain = 0) : s.zoneMix upper k mic = 0 := by
  have silent : gainFactor 15 = 0 := rfl
  unfold State.zoneMix
  simp [h, silent]

/-- Settles O54: the sums by `mix_eq`, kind of destination by kind. -/
theorem mixesFormed : Obligations.MixesFormed := by
  refine ⟨applyFactor_floor, by decide, fun v k => ?_, fun s k mic => ?_⟩
  · exact ⟨fun h => sample_silent h k, fun h => sample_playing h k, fun h => sample_stopping h k⟩
  · refine ⟨fun i => ?_, ?_, ?_, fun h => zoneMix_silent s true k mic h, fun h => zoneMix_silent s false k mic h⟩
    · refine congrArg s.mixer.fadeSample (mix_eq s k mic fun d => ?_)
      obtain ⟨kind, slots, zone⟩ := d
      cases kind <;> simp
    · refine congrArg (fun x => s.mixer.fadeSample (applyFactor x _)) (mix_eq s k mic fun d => ?_)
      obtain ⟨kind, slots, zone⟩ := d
      cases kind <;> simp [zoneFactor]
    · refine congrArg (fun x => s.mixer.fadeSample (applyFactor x _)) (mix_eq s k mic fun d => ?_)
      obtain ⟨kind, slots, zone⟩ := d
      cases kind <;> simp [zoneFactor, and_assoc, imp_iff_or_not]

end Sys2Proof.Machine
end

section
/-! SUPPORT. A page as the store returns it, and the answer to its arrival (R118, R126, R138). -/

namespace Sys2Proof.Machine

section
variable {s : State} {page : Nat} {failed : Bool}

/-! ### The page as read (R112, R138) -/

/-- The store reports the read failed, or the sector is interrupted. -/
theorem readPage_unreadable (h : failed = true ∨ page / 512 ∈ s.store.interrupted) : s.readPage page failed = (none, s) := by
  unfold State.readPage
  exact if_pos (by rw [Bool.or_eq_true, List.contains_iff_mem]; exact h)

/-- Outside a sector under erase a read counts no free value (log 7). -/
theorem readPage_whole (h : s.store.erasing (page / 512) = false) : (s.readPage page failed).2 = s := by
  unfold State.readPage
  rw [show s.store.erasing (sectorOf page) = false from h]
  split <;> rfl

theorem readPage_bytes (hf : failed = false) (hi : page / 512 ∉ s.store.interrupted)
    (he : s.store.erasing (page / 512) = false) (wf : s.store.cells.wf = true) :
    (s.readPage page failed).1 = some ((List.range 512).map fun k => s.store.cells.read (page * 512 + k)) := by
  have readable : (failed || s.store.interrupted.contains (sectorOf page)) = false := by
    rw [hf, Bool.false_or, Bool.eq_false_iff, ne_eq, List.contains_iff_mem]
    exact hi
  unfold State.readPage
  simp only [readable, Bool.false_eq_true, if_false, show s.store.erasing (sectorOf page) = false from he, readRun_eq wf]

end

/-! ### Answers outside a request's own command (R171) -/

/-- The end of an event that has answered a request taken earlier: the frame against the state before the answer, and the
reply. -/
theorem reply_ends (u : State) (kind : Nat) (tag : Byte) (code : ResultCode) (data : ReplyData) :
    EventFrame u (u.reply kind tag code data).endEvent ∧ u.answered (u.reply kind tag code data).endEvent kind tag code data :=
  ⟨(endEvent_frame _).relink rfl (reply_frame _ _ _ _ _) (reply_keeps u kind tag code data) fun _ _ h => h,
    endEvent_answered (reply_holds u kind tag code data)⟩

end Sys2Proof.Machine
end

section
/-! OBLIGATION. STORE_READ (R126). -/

namespace Sys2Proof.Machine

section
variable {s : State} {tag : Byte} {page : Nat}

theorem storeRead_refused (h : s.takes 0x32 tag) (hp : 1048575 < page) :
    ∃ t, exec (.storeRead tag page) s = .next t ∧ EventFrame s t ∧ s.answered t 0x32 tag .range := by
  refine ⟨_, command_next h _, ?_⟩
  rw [if_pos (show lastPage < page from hp)]
  exact command_answered rfl rfl

theorem storeRead_posts (h : s.takes 0x32 tag) (hp : page ≤ 1048575) :
    ∃ t, exec (.storeRead tag page) s = .next t ∧
      EventFrame { s with port := { s.port with second := s.port.second ++ [{ page := page, use := .storeRead tag }] } } t := by
  refine ⟨_, command_next h _, ?_⟩
  rw [if_neg (show ¬lastPage < page from Nat.not_lt.2 hp)]
  exact command_frame rfl rfl

theorem storeReadData_next {failed : Bool} (running : s.running = true)
    (served : s.port.serving = some { page := page, use := .storeRead tag }) :
    exec (.storeReadData failed) s =
      .next ((s.readPage page failed).2.portDone.reply 0x32 tag .ok (.storePage (s.readPage page failed).1)).endEvent := by
  simp only [exec, execStoreReadData]
  rw [event_next _ _ running]
  simp only [served]

end

/-- Settles O45: the data of a read are what `readPage_unreadable` and `readPage_bytes` say, and the answer is all that an
arrival does (`reply_ends`). -/
theorem storeRead : Obligations.StoreRead := by
  refine ⟨fun tag page s h => ?_, fun failed page tag s running served wf => ?_⟩
  · rcases Nat.lt_or_ge 1048575 page with beyond | within
    · obtain ⟨t, next, refused⟩ := storeRead_refused h beyond
      exact ⟨t, next, fun _ => refused, fun within => absurd beyond (Nat.not_lt.2 within)⟩
    · obtain ⟨t, next, posts⟩ := storeRead_posts h within
      exact ⟨t, next, fun beyond => absurd beyond (Nat.not_lt.2 within), fun _ => posts⟩
  · refine ⟨_, storeReadData_next running served, ?_⟩
    obtain ⟨n, read⟩ := readPage_state s page failed
    obtain ⟨frame, -⟩ := reply_ends (s.readPage page failed).2.portDone 0x32 tag .ok (.storePage (s.readPage page failed).1)
    refine ⟨?_, ?_, ?_, ?_, fun unreadable => ?_, fun ok whole clear => ?_⟩
    · rw [frame.cells, read]; rfl
    · rw [frame.integrity, read]; rfl
    · rw [frame.firstFault, read]; rfl
    · rw [frame.tracker, read]; rfl
    · rw [readPage_unreadable unreadable]
      exact reply_ends s.portDone 0x32 tag .ok (.storePage none)
    · rw [readPage_whole clear, readPage_bytes ok whole clear wf]
      exact reply_ends s.portDone 0x32 tag .ok (.storePage (some _))

end Sys2Proof.Machine
end

section
/-! SUPPORT. The checks of a write, its begin and its end (R118, R129, R130, R131). -/

namespace Sys2Proof.Machine

/-! ### Checks 1 to 5 (R129, R131) -/

theorem reserved_iff (sector : Nat) : reserved sector = true ↔ sector = 0 ∨ sector = 2047 := decide_eq_true_iff

theorem isLocked_iff (st : Store) (sector : Nat) :
    st.isLocked sector = true ↔ sector ∈ st.locked ∨ sector ∈ st.volatileLocks := by
  unfold Store.isLocked
  rw [Bool.or_eq_true, List.contains_iff_mem, List.contains_iff_mem]

section
variable {s : State} {n top sector : Nat}

theorem writeCheck_run (h : s.store.mode = .run) : s.writeCheck n top sector = some .wrongState := if_pos h

variable (service : s.store.mode = .service)
include service

theorem writeCheck_range (h : top < n) : s.writeCheck n top sector = some .range := by
  simp [State.writeCheck, service, h]

variable (bounded : n ≤ top)
include bounded

theorem writeCheck_busy (h : s.store.reload ≠ none) : s.writeCheck n top sector = some .busy := by
  simp [State.writeCheck, service, Nat.not_lt.2 bounded, Option.isSome_iff_ne_none, h]

variable (settled : s.store.reload = none)
include settled

theorem writeCheck_protected
    (h : sector = 0 ∨ sector = 2047 ∨ sector ∈ s.store.locked ∨ sector ∈ s.store.volatileLocks) :
    s.writeCheck n top sector = some .sectorProtected := by
  rw [← or_assoc, ← reserved_iff, ← isLocked_iff] at h
  simp [State.writeCheck, service, Nat.not_lt.2 bounded, settled, h]

variable (lower : sector ≠ 0) (upper : sector ≠ 2047) (unlocked : sector ∉ s.store.locked)
  (unheld : sector ∉ s.store.volatileLocks)
include lower upper unlocked unheld

theorem writeCheck_unprotected :
    s.writeCheck n top sector = if s.inUse sector = true then some .inUse else none := by
  have free : reserved sector = false := by
    rw [Bool.eq_false_iff, ne_eq, reserved_iff]
    exact not_or.2 ⟨lower, upper⟩
  have unlocked : s.store.isLocked sector = false := by
    rw [Bool.eq_false_iff, ne_eq, isLocked_iff]
    exact not_or.2 ⟨unlocked, unheld⟩
  simp [State.writeCheck, service, Nat.not_lt.2 bounded, settled, free, unlocked]

end

/-! ### A write begins (R118, R119) -/

section
variable {s t : State}

/-- What holds against a state holds against one in which the write in flight has another phase. -/
theorem EventFrame.rephase {w : Option WriteRecord} (h : EventFrame { s with store := { s.store with write := w } } t)
    (hw : w.map WriteRecord.target = s.store.write.map WriteRecord.target) : EventFrame s t :=
  { h with
    store := congrArg (fun st : Store => { st with write := s.store.write }) h.store
    write := h.write.trans hw }

theorem shiftWrite_of_write {w : WriteRecord} (h : s.store.write = some w) (old new : WritePhase) :
    s.shiftWrite old new =
      { s with store := { s.store with write := some (if w.phase = old then { w with phase := new } else w) } } := by
  rw [shiftWrite_eq, h]
  rfl

section
variable {w : WriteRecord} (hw : s.store.write = some w) (running : w.phase = .running) (free : s.port.serving = none)
  (fetches : s.port.fetches = []) (second : s.port.second = [])
include hw running free fetches second

/-- A write that runs at a port with no read goes on. -/
theorem settlePort_running : s.settlePort.store.write = some w := by
  cases programming : s.store.programming with
  | true => rw [settlePort_programming programming]; exact hw
  | false =>
    rw [settlePort_idle free programming fetches second, shiftWrite_of_write hw, if_neg (by rw [running]; decide)]

/-- With no voice request, the end of the event posts no read. -/
theorem endEvent_running (quiet : s.voices.requests = []) : s.endEvent.store.write = some w := by
  obtain ⟨seats, published, -⟩ := publish_eq s
  unfold State.endEvent
  rw [arbitrate_none (.inl quiet), published]
  exact settlePort_running hw running free fetches second

end

/-! ### A write ends (R130, R131, R185) -/

/-- While the entry phase is not over, the end of a write is only the end of an event. -/
theorem afterWrite_before (h : s.power.phaseOver = false) : s.afterWrite = s := by
  unfold State.afterWrite
  exact if_neg fun ⟨_, ended, _⟩ => Bool.false_ne_true (h.symm.trans ended)

theorem writeDone_reply {store : Store} {kind : Nat} {tag : Byte} {code : ResultCode} {data : ReplyData}
    (h : s.power.phaseOver = false) :
    EventFrame { s with store := store.writeEnds } (s.writeDone store fun u => u.reply kind tag code data) ∧
      s.answered (s.writeDone store fun u => u.reply kind tag code data) kind tag code data := by
  obtain ⟨frame, answered⟩ := reply_ends { s with store := store.writeEnds } kind tag code data
  unfold State.writeDone
  rw [afterWrite_before (by rw [frame.power]; exact h)]
  exact ⟨frame, answered⟩

end

end Sys2Proof.Machine
end

section
/-! OBLIGATION. STORE_PROGRAM (R129, R130). -/

namespace Sys2Proof.Machine

section
variable {s : State} {tag : Byte} {page : Nat} {data : List Byte}

/-! ### The request (R129) -/

theorem storeProgram_checked (h : s.takes 0x33 tag) (whole : data.length = 512) :
    ∃ t, exec (.storeProgram tag page data) s = .next t ∧
      (∀ code, s.programCheck page = some code → EventFrame s t ∧ s.answered t 0x33 tag code) ∧
      (s.programCheck page = none →
        EventFrame
          { s with
            port := { s.port with second := s.port.second ++ [{ page := page, use := .blankCheck tag data }] } } t) := by
  refine ⟨_, command_next h _, fun code refused => ?_, fun passed => ?_⟩
  · rw [if_neg (not_not.2 whole), show (s.taken 0x33 tag).programCheck page = some code from refused]
    exact command_answered rfl rfl
  · rw [if_neg (not_not.2 whole), show (s.taken 0x33 tag).programCheck page = none from passed]
    exact command_frame rfl rfl

/-! ### The blank check (R129) -/

theorem blankCheckData_next {failed : Bool} (running : s.running = true)
    (served : s.port.serving = some { page := page, use := .blankCheck tag data }) :
    exec (.blankCheckData failed) s =
      .next ((s.readPage page failed).2.portDone.blankChecked tag page data (s.readPage page failed).1).endEvent := by
  simp only [exec, execBlankCheckData]
  rw [event_next _ _ running]
  simp only [served]

/-- A page that still passes its checks is blank or not, and a write is in flight or not. -/
theorem blankChecked_passed {bytes : Option (List Byte)} (passed : s.programCheck page = none) :
    (blank bytes = false → s.blankChecked tag page data bytes = s.reply 0x33 tag .notErased) ∧
    (blank bytes = true → s.store.write ≠ none → s.blankChecked tag page data bytes = s.reply 0x33 tag .storeBusy) ∧
    (blank bytes = true → s.store.write = none →
      s.blankChecked tag page data bytes = s.acceptWrite (.pageProgram data tag) (page / 512) (some page)) := by
  unfold State.blankChecked
  rw [passed]
  refine ⟨fun h => ?_, fun h busy => ?_, fun h idle => ?_⟩
  · simp [h]
  · simp [h, Option.isSome_iff_ne_none, busy]
  · simp [h, idle, sectorOf]

/-! ### The program runs (R130) -/

theorem writeBegin_next (running : s.running = true) :
    exec .writeBegin s = .next (if s.writeCanBegin then s.shiftWrite .waiting .running else s).endEvent :=
  event_next _ _ running

theorem writeBegin_frame :
    EventFrame s (if s.writeCanBegin then s.shiftWrite .waiting .running else s).endEvent := by
  split
  · have target := shiftWrite_target s .waiting .running
    rw [shiftWrite_eq] at *
    exact (endEvent_frame _).rephase target
  · exact endEvent_frame s

theorem writeBegin_runs {w : WriteRecord} (hw : s.store.write = some w) (waiting : w.phase = .waiting)
    (free : s.port.serving = none) (fetches : s.port.fetches = []) (second : s.port.second = [])
    (quiet : s.voices.requests = []) :
    (if s.writeCanBegin then s.shiftWrite .waiting .running else s).endEvent.store.write =
      some { w with phase := .running } := by
  have begins : s.writeCanBegin = true := by simp [State.writeCanBegin, free, fetches, second, hw, waiting]
  rw [if_pos begins, shiftWrite_of_write hw, if_pos waiting]
  exact endEvent_running rfl rfl free fetches second quiet

theorem pageProgramComplete_next {w : WriteRecord} (running : s.running = true) (hw : s.store.write = some w)
    (runs : w.phase = .running) (program : w.kind = .pageProgram data tag) (target : w.page = some page) :
    exec .pageProgramComplete s =
      .next (s.writeDone (s.store.programDone page data) fun u => u.reply 0x33 tag .ok) := by
  obtain ⟨kind, sector, target', phase⟩ := w
  subst runs program target
  have record : s.store.runningWrite = some { kind := .pageProgram data tag, sector := sector, page := some page,
                                              phase := .running } := by
    unfold Store.runningWrite
    rw [hw]
    rfl
  simp only [exec, execPageProgramComplete, running, if_true, record]

/-- The bytes of a page are those whose address over 512 is the page. -/
theorem read_programDone {a : Nat} (wf : s.store.cells.wf = true) (whole : data.length = 512) (inside : pageOk page) :
    (s.store.programDone page data).cells.read a =
      if a / 512 = page then s.store.cells.read a &&& data.getD (a % 512) 0 else s.store.cells.read a := by
  unfold pageOk at inside
  unfold Store.programDone
  rw [read_program wf _ _ _ (by omega), whole]
  by_cases within : a / 512 = page
  · rw [if_pos within, if_pos (by omega), show a - page * 512 = a % 512 by omega]
  · rw [if_neg within, if_neg (by omega)]

end

/-- Settles O46: the request by the checks of R129, the blank check by `blankChecked_passed`, the begin by the port (R118),
and the end by what a run of programmed bytes reads as. -/
theorem pageProgrammed : Obligations.PageProgrammed := by
  refine ⟨fun tag page data s h whole => ?_, fun failed page tag data s running served passed clear => ?_,
    fun w s running hw waiting => ?_, fun w page tag data s running before inv hw runs program target => ?_⟩
  · obtain ⟨t, next, refused, posted⟩ := storeProgram_checked (page := page) h whole
    refine ⟨t, next, fun run => refused _ (writeCheck_run run),
      fun service beyond => refused _ (writeCheck_range service beyond), fun service within =>
      ⟨fun reloading => refused _ (writeCheck_busy service within reloading), fun settled =>
        ⟨fun held => refused _ (writeCheck_protected service within settled held),
          fun lower upper unlocked unheld => ⟨fun used => refused _ ?_, fun unused => posted ?_⟩⟩⟩⟩
    · exact (writeCheck_unprotected service within settled lower upper unlocked unheld).trans (if_pos used)
    · exact (writeCheck_unprotected service within settled lower upper unlocked unheld).trans
        (if_neg (Bool.eq_false_iff.1 unused))
  · refine ⟨_, blankCheckData_next running served, ?_⟩
    rw [readPage_whole clear]
    obtain ⟨written, busy, accepted⟩ :=
      blankChecked_passed (s := s.portDone) (tag := tag) (data := data) (bytes := (s.readPage page failed).1) passed
    refine ⟨fun h => ?_, fun h occupied => ?_, fun h idle => ?_⟩
    · rw [written h]
      exact reply_ends s.portDone 0x33 tag .notErased .none
    · rw [busy h occupied]
      exact reply_ends s.portDone 0x33 tag .storeBusy .none
    · rw [accepted h idle]
      exact endEvent_frame _
  · exact ⟨_, writeBegin_next running, writeBegin_frame, writeBegin_runs hw waiting⟩
  · have sound := inv.write w hw
    unfold WriteRecord.sound at sound
    rw [program] at sound
    obtain ⟨whole, ⟨p, same, inside, -⟩, -⟩ := sound
    obtain rfl : page = p := Option.some.inj (target.symm.trans same)
    obtain ⟨frame, answered⟩ :=
      writeDone_reply (store := s.store.programDone page data) (kind := 0x33) (tag := tag) (code := .ok) (data := .none)
        before
    have cells := frame.cells
    refine ⟨_, pageProgramComplete_next running hw runs program target, ?_, answered, ?_, fun a => ?_⟩
    · rw [cells]; exact frame
    · rw [cells]
      exact program_wf inv.cells data (by unfold pageOk at inside; omega)
    · rw [cells]
      exact read_programDone inv.cells whole inside

end Sys2Proof.Machine
end

section
/-! OBLIGATION. RELOAD_DIRECTORY, and the pages of the directories and the resident buffers (R137, R120, R123). -/

namespace Sys2Proof.Machine

/-! ### What a page of a directory adds (R137, log 7) -/

theorem clipsOfErasedPage_absent (data : Option (List Byte)) (index : Nat) : (clipsOfErasedPage data index).1 = [] := by
  cases data <;> rfl

/-! ### The end of the reload (R137 steps 1 to 6) -/

section
variable {s : State} {r : Reload}

theorem residentBuffers_empty : ∀ b ∈ s.residentBuffers, b.pages = [] := by
  intro b member
  unfold State.residentBuffers at member
  obtain ⟨clip, -, found⟩ := List.mem_filterMap.1 member
  obtain ⟨entry, -, rfl⟩ := Option.map_eq_some_iff.1 found
  rfl

/-- With no start waiting on the reload no lookup is made. -/
theorem waitingLookups_none (h : ∀ v, (s.voice v).waiting = none) (l : List (Fin 16)) :
    l.foldl State.waitingLookup s = s := by
  induction l with
  | nil => rfl
  | cons v l ih =>
    have still : s.waitingLookup v = s := by
      unfold State.waitingLookup
      rw [h v]
    rw [List.foldl_cons, still, ih]

/-- Both caches replaced, and the resident buffers emptied with their reads posted (R137, R120). -/
def State.reloaded (s : State) (r : Reload) : State :=
  let cached : State :=
    { s with
      cues := { s.cues with directory := r.routes }
      store := { s.store with clips := r.clips, rejected := r.rejected, reload := none } }
  { cached with
    voices := { s.voices with residents := cached.residentBuffers }
    port := { s.port with second := s.port.second ++ residentReads cached.residentBuffers } }

/-- With motion not pending and no start waiting, the end of the reload does no more. -/
theorem endReload_settled (still : s.store.motionPending = false) (waiting : ∀ v, (s.voice v).waiting = none) :
    s.endReload r = (s.reloaded r).report (.directoryReady r.clips.length r.rejected r.routes.length s.clock) := by
  unfold State.endReload
  dsimp only
  rw [waitingLookups_none (by exact waiting)]
  exact if_neg (Bool.eq_false_iff.1 still)

end

/-! ### A directory page arrives (R137) -/

section
variable {s : State} {failed : Bool} {page : Nat} {use : ReadUse} {r : Reload}

theorem directoryPageArrival_next (running : s.running = true) (served : s.port.serving = some { page := page, use := use })
    (directory : use.isDirectory = true) :
    exec (.directoryPageArrival failed) s =
      .next ((s.readPage page failed).2.portDone.directoryPage use (s.readPage page failed).1
        (s.store.erasing (page / 512))).endEvent := by
  simp only [exec, execDirectoryPageArrival]
  rw [event_next _ _ running]
  simp only [served, directory, if_true, sectorOf]

/-- A page before the last is kept aside. -/
theorem directoryPage_kept {data : Option (List Byte)} {erasing : Bool} (reload : s.store.reload = some r)
    (more : use ≠ .clipDirectory 255) :
    s.directoryPage use data erasing =
      { s with store := { s.store with reload := some (r.take s.inForce.partition use data erasing) } } := by
  unfold State.directoryPage
  simp only [reload, if_neg more]

theorem directoryPage_last {data : Option (List Byte)} {erasing : Bool} (reload : s.store.reload = some r) :
    s.directoryPage (.clipDirectory 255) data erasing =
      s.endReload (r.take s.inForce.partition (.clipDirectory 255) data erasing) := by
  unfold State.directoryPage
  simp only [reload, if_true]

theorem directoryPageArrival_kept (running : s.running = true) (reload : s.store.reload = some r)
    (served : s.port.serving = some { page := page, use := use }) (directory : use.isDirectory = true)
    (more : use ≠ .clipDirectory 255) :
    ∃ t, exec (.directoryPageArrival failed) s = .next t ∧ t.store.clips = s.store.clips ∧
      t.cues.directory = s.cues.directory ∧
      t.store.reload = some
        (r.take s.inForce.partition use (s.readPage page failed).1 (s.store.erasing (page / 512))) := by
  refine ⟨_, directoryPageArrival_next running served directory, ?_⟩
  obtain ⟨n, read⟩ := readPage_state s page failed
  rw [read, directoryPage_kept (r := r) (by exact reload) more]
  have frame := endEvent_frame
    { ({ s with freeSerial := n } : State).portDone with
      store := { s.store with
        reload := some (r.take s.inForce.partition use (s.readPage page failed).1 (s.store.erasing (page / 512))) } }
  exact ⟨(congrArg Store.clips frame.store :), congrArg CueEngine.directory frame.cues,
    (congrArg Store.reload frame.store :)⟩

theorem directoryPageArrival_last (running : s.running = true) (reload : s.store.reload = some r)
    (served : s.port.serving = some { page := page, use := .clipDirectory 255 })
    (still : s.store.motionPending = false) (waiting : ∀ v, (s.voice v).waiting = none) :
    ∃ t, exec (.directoryPageArrival failed) s = .next t ∧
      let full := r.take s.inForce.partition (.clipDirectory 255) (s.readPage page failed).1 (s.store.erasing (page / 512))
      t.store.reload = none ∧ t.store.clips = full.clips ∧ t.store.rejected = full.rejected ∧
        t.cues.directory = full.routes ∧ (∀ b ∈ t.voices.residents, b.pages = []) ∧
        (s.link.reports.length < 16 →
          t.holdsReport (.directoryReady full.clips.length full.rejected full.routes.length s.clock)) := by
  refine ⟨_, directoryPageArrival_next running served rfl, ?_⟩
  obtain ⟨n, read⟩ := readPage_state s page failed
  rw [read, directoryPage_last (r := r) (by exact reload)]
  intro full
  rw [endReload_settled (by exact still) (by exact waiting)]
  have frame := endEvent_frame ((State.reloaded ({ s with freeSerial := n } : State).portDone full).report
    (.directoryReady full.clips.length full.rejected full.routes.length s.clock))
  refine ⟨(congrArg Store.reload frame.store :), (congrArg Store.clips frame.store :),
    (congrArg Store.rejected frame.store :), congrArg CueEngine.directory frame.cues, fun b member => ?_, fun room => ?_⟩
  · have same := frame.residents
    exact residentBuffers_empty b (same ▸ member)
  · exact frame.reports _ rfl (report_holds _ _ room)

end

/-! ### A resident page arrives (R120, R131) -/

section
variable {s : State} {failed quiet : Bool} {page buffer index clip : Nat} {data : Option (List Byte)} {r : Resident}

/-- The page as checked: as it is when the check passes outside a sector under erase, silent otherwise. -/
theorem checkPage_page :
    (s.checkPage page data clip index quiet).1 =
      if readFault data clip index = none ∧ s.store.erasing (page / 512) = false then .audio (data.getD []) else .silent := by
  by_cases fault : s.clipPageFault page data clip index = none
  · have sound := mt clipPageFault_ne_none.2 (not_not.2 fault)
    obtain ⟨whole, passes⟩ := not_or.1 sound
    have present : data ≠ none := by
      rintro rfl
      exact passes nofun
    rw [checkPage_passes fault, if_pos ⟨not_not.1 passes, Bool.eq_false_iff.2 fun erasing => whole ⟨present, erasing⟩⟩]
  · rw [(checkPage_fails fault).1, if_neg]
    rintro ⟨passes, clear⟩
    rcases clipPageFault_ne_none.1 fault with ⟨-, erasing⟩ | fails
    · exact Bool.false_ne_true (clear.symm.trans erasing)
    · exact fails passes

theorem residentPage_joins (held : s.voices.residents[buffer]? = some r) (next : r.pages.length = index) :
    (s.residentPage buffer index page data quiet).voices.residents[buffer]? =
      some { r with pages := r.pages ++ [(s.checkPage page data r.clip index quiet).1] } := by
  obtain ⟨n, f, l, faults, checked⟩ := checkPage_state s page data r.clip index quiet
  obtain ⟨inside, -⟩ := List.getElem?_eq_some_iff.1 held
  unfold State.residentPage
  simp only [held, next, if_true, checked, List.getElem?_set_self inside]

theorem residentPageArrival_next (running : s.running = true)
    (served : s.port.serving = some { page := page, use := .resident buffer index }) :
    exec (.residentPageArrival failed) s =
      .next ((s.readPage page failed).2.portDone.residentPage buffer index page (s.readPage page failed).1 false).endEvent := by
  simp only [exec, execResidentPageArrival]
  rw [event_next _ _ running]
  simp only [served]

theorem residentPageArrival_joins (running : s.running = true)
    (served : s.port.serving = some { page := page, use := .resident buffer index })
    (held : s.voices.residents[buffer]? = some r) (next : r.pages.length = index) :
    ∃ t, exec (.residentPageArrival failed) s = .next t ∧
      t.voices.residents[buffer]? = some
        { r with pages := r.pages ++ [((s.readPage page failed).2.portDone.checkPage page (s.readPage page failed).1 r.clip index
          false).1] } := by
  refine ⟨_, residentPageArrival_next running served, ?_⟩
  rw [(endEvent_frame _).residents]
  refine residentPage_joins ?_ next
  obtain ⟨n, read⟩ := readPage_state s page failed
  rw [read]
  exact held

end

/-! ### The request (R137) -/

theorem reloadDirectory_answers {s : State} {tag : Byte} (h : s.takes 0x35 tag) :
    ∃ t, exec (.reloadDirectory tag) s = .next t ∧
      (s.store.mode = .run → EventFrame s t ∧ s.answered t 0x35 tag .wrongState) ∧
      (s.store.mode = .service → s.store.reload ≠ none → EventFrame s t ∧ s.answered t 0x35 tag .busy) ∧
      (s.store.mode = .service → s.store.reload = none → s.allFree = false →
        EventFrame s t ∧ s.answered t 0x35 tag .inUse) ∧
      (s.store.mode = .service → s.store.reload = none → s.allFree = true →
        EventFrame s.beginReload t ∧ s.answered t 0x35 tag .accepted) := by
  have mode : (s.taken 0x35 tag).store.mode = s.store.mode := rfl
  have reload : (s.taken 0x35 tag).store.reload = s.store.reload := rfl
  have free : (s.taken 0x35 tag).allFree = s.allFree := rfl
  refine ⟨_, command_next h _, fun run => ?_, fun service busy => ?_, fun service settled used => ?_,
    fun service settled unused => ?_⟩
  · rw [mode, run, if_pos rfl]
    exact command_answered rfl rfl
  · rw [mode, service, if_neg (by decide), reload, if_pos (Option.isSome_iff_ne_none.2 busy)]
    exact command_answered rfl rfl
  · rw [mode, service, if_neg (by decide), reload, settled, if_neg (by decide), free, if_pos used]
    exact command_answered rfl rfl
  · rw [mode, service, if_neg (by decide), reload, settled, if_neg (by decide), free, if_neg (by rw [unused]; decide)]
    exact command_answered rfl rfl

/-- Settles O49: a page before the last is kept aside (`directoryPageArrival_kept`), the last ends the reload
(`directoryPageArrival_last`), and a resident page joins its buffer as `checkPage_page` says. -/
theorem directoryReloaded : Obligations.DirectoryReloaded := by
  refine ⟨fun tag s h => ?_, fun failed page index r s running reload => ⟨fun served => ?_, fun served => ?_⟩,
    fun failed page buffer index r s running served held next => ?_⟩
  · obtain ⟨t, next, run, busy, used, accepted⟩ := reloadDirectory_answers h
    exact ⟨t, next, run, busy, used, fun service settled unused => (accepted service settled unused).symm⟩
  · obtain ⟨t, next, clips, routes, kept⟩ := directoryPageArrival_kept running reload served rfl nofun
    have wide := exec_wide rfl next
    exact ⟨t, next, clips, routes, (settings_cells_of_wide wide).2, tracker_of_wide wide, kept⟩
  · intro found
    have absent : s.store.erasing (page / 512) = true → found.1 = [] := fun erasing =>
      (congrArg Prod.fst (if_pos erasing)).trans (clipsOfErasedPage_absent _ _)
    by_cases last : index = 255
    · subst last
      by_cases settled : s.store.motionPending = false ∧ ∀ v, (s.voice v).waiting = none
      · obtain ⟨still, waiting⟩ := settled
        obtain ⟨t, next, ends⟩ := directoryPageArrival_last (failed := failed) running reload served still waiting
        have wide := exec_wide rfl next
        exact ⟨t, next, (settings_cells_of_wide wide).2, tracker_of_wide wide, absent, fun more => absurd rfl more,
          fun _ _ _ => ends⟩
      · have next := directoryPageArrival_next (failed := failed) running served rfl
        have wide := exec_wide rfl next
        exact ⟨_, next, (settings_cells_of_wide wide).2, tracker_of_wide wide, absent, fun more => absurd rfl more,
          fun _ still waiting => absurd ⟨still, waiting⟩ settled⟩
    · obtain ⟨t, next, clips, routes, kept⟩ := directoryPageArrival_kept (failed := failed) running reload served rfl
        fun same => last (ReadUse.clipDirectory.inj same)
      have wide := exec_wide rfl next
      exact ⟨t, next, (settings_cells_of_wide wide).2, tracker_of_wide wide, absent, fun _ => ⟨clips, routes, kept⟩,
        fun same => absurd same last⟩
  · intro data
    obtain ⟨t, arrives, joins⟩ := residentPageArrival_joins (failed := failed) running served held next
    have wide := exec_wide rfl arrives
    refine ⟨t, arrives, (settings_cells_of_wide wide).2, tracker_of_wide wide, joins.trans ?_⟩
    obtain ⟨n, read⟩ := readPage_state s page failed
    rw [checkPage_page, read]
    rfl

end Sys2Proof.Machine
end

section
/-! SUPPORT. What the store's invariant reads of a state, and the operations that leave it alone: one lemma per operation. -/

namespace Sys2Proof.Machine

/-- The part of the state that the store's invariant reads: the write in flight without its phase, and whether the part runs. -/
structure StoreGuard where
  cells : Memory
  target : Option (WriteKind × Nat × Option Nat)
  locked : List Nat
  volatileLocks : List Nat
  freeze : Bool
  running : Bool

/-- That part of a state. -/
def State.guarded (s : State) : StoreGuard :=
  { cells := s.store.cells, target := s.store.write.map WriteRecord.target, locked := s.store.locked
    volatileLocks := s.store.volatileLocks, freeze := s.store.freeze, running := s.running }

/-- Whether a read is a blank check (R129). -/
def ReadUse.isBlankCheck : ReadUse → Bool
  | .blankCheck _ _ => true
  | _ => false

/-- From `s` to `t` nothing has changed that the store's invariant reads, and no blank check has come to the port. -/
structure StoreKept (s t : State) : Prop where
  guarded : t.guarded = s.guarded
  checks : ∀ r ∈ t.port.reads, r.use.isBlankCheck = true → r ∈ s.port.reads

namespace StoreKept
variable {s t u : State}

theorem refl (s : State) : StoreKept s s := ⟨rfl, fun _ member _ => member⟩

theorem trans (h : StoreKept s t) (g : StoreKept t u) : StoreKept s u :=
  ⟨g.guarded.trans h.guarded, fun r member check => h.checks r (g.checks r member check) check⟩

/-- An update that touches neither what the invariant reads nor the port. -/
theorem leaf (h : StoreKept s t) (guarded : u.guarded = t.guarded) (port : u.port = t.port) : StoreKept s u :=
  h.trans ⟨guarded, fun _ member _ => port ▸ member⟩

theorem cells (h : StoreKept s t) : t.store.cells = s.store.cells := congrArg StoreGuard.cells h.guarded

theorem target (h : StoreKept s t) : t.store.write.map WriteRecord.target = s.store.write.map WriteRecord.target :=
  congrArg StoreGuard.target h.guarded

theorem locked (h : StoreKept s t) : t.store.locked = s.store.locked := congrArg StoreGuard.locked h.guarded

theorem volatileLocks (h : StoreKept s t) : t.store.volatileLocks = s.store.volatileLocks :=
  congrArg StoreGuard.volatileLocks h.guarded

theorem freeze (h : StoreKept s t) : t.store.freeze = s.store.freeze := congrArg StoreGuard.freeze h.guarded

theorem running (h : StoreKept s t) : t.running = s.running := congrArg StoreGuard.running h.guarded

/-! ### Engines, cues and the end of an event -/

/-- Voices post reads of their own alone. -/
theorem acts (h : StoreKept s t) (a : Acts t u) : StoreKept s u := by
  refine h.trans ⟨?_, fun r member check => ?_⟩
  · unfold State.guarded State.running
    rw [a.store, a.power]
  · obtain ⟨voices, fetches, isVoice⟩ := a.fetches
    unfold Port.reads at *
    rw [a.serving, a.second, fetches] at member
    have other : r ∉ voices := fun posted => by
      obtain ⟨v, serial, index, use⟩ := isVoice r posted
      rw [use] at check
      cases check
    simp only [List.mem_append] at *
    tauto

theorem engines (h : StoreKept s t) (e : Engines t u) : StoreKept s u := h.acts (.ofEngines e)

theorem endEvent (h : StoreKept s t) : StoreKept s t.endEvent := by
  have granted : StoreKept s t.arbitrate := h.engines (arbitrate_engines (.refl t))
  obtain ⟨seats, published, -⟩ := publish_eq t.arbitrate
  have handed : StoreKept s t.arbitrate.publish := by
    rw [published]
    exact granted.leaf rfl rfl
  obtain ⟨port, write, settled, target, reads⟩ := settlePort_eq t.arbitrate.publish
  refine handed.trans (u := t.endEvent) ?_
  unfold State.endEvent
  rw [settled]
  refine ⟨?_, fun r member _ => (reads r).1 member⟩
  unfold State.guarded
  exact congrArg (fun w => { t.arbitrate.publish.guarded with target := w }) target

/-- A shift of its phase leaves the write in flight what it is (R118). -/
theorem shiftWrite (h : StoreKept s t) (old new : WritePhase) : StoreKept s (t.shiftWrite old new) := by
  have target := shiftWrite_target t old new
  rw [shiftWrite_eq] at *
  exact h.trans ⟨congrArg (fun w => { t.guarded with target := w }) target, fun _ member _ => member⟩

/-! ### The link and the port -/

theorem reply (h : StoreKept s t) (kind : Nat) (tag : Byte) (code : ResultCode) (data : ReplyData) :
    StoreKept s (t.reply kind tag code data) := h.leaf rfl rfl

theorem report (h : StoreKept s t) (r : Report) : StoreKept s (t.report r) := h.leaf rfl rfl

theorem kick (h : StoreKept s t) : StoreKept s t.kick := h.leaf rfl rfl

theorem readPage (h : StoreKept s t) (page : Nat) (failed : Bool) : StoreKept s (t.readPage page failed).2 := by
  obtain ⟨n, read⟩ := readPage_state t page failed
  rw [read]
  exact h.leaf rfl rfl

theorem readRoutePage (h : StoreKept s t) (page : Nat) (failed : Bool) : StoreKept s (t.readRoutePage page failed).2 := by
  obtain ⟨n, read⟩ := readRoutePage_state (s := t) page failed
  rw [read]
  exact h.leaf rfl rfl

theorem portDone (h : StoreKept s t) : StoreKept s t.portDone := by
  refine h.trans ⟨rfl, fun r member _ => ?_⟩
  unfold Port.reads at *
  simp only [portDone_port, Option.toList, List.nil_append, List.append_assoc] at *
  exact List.mem_append_right _ member

/-- Reads of the second class other than blank checks are posted (R118). -/
theorem posts (h : StoreKept s t) {reads : List PortRead} (plain : ∀ r ∈ reads, r.use.isBlankCheck = false)
    (guarded : u.guarded = t.guarded) (port : u.port = { t.port with second := t.port.second ++ reads }) : StoreKept s u := by
  refine h.trans ⟨guarded, fun r member check => ?_⟩
  have other : r ∉ reads := fun posted => Bool.false_ne_true ((plain r posted).symm.trans check)
  rw [port] at member
  unfold Port.reads at *
  simp only [List.mem_append] at *
  tauto

theorem postRead (h : StoreKept s t) {r : PortRead} (plain : r.use.isBlankCheck = false) : StoreKept s (t.postRead r) :=
  h.posts (fun q member => by rw [List.mem_singleton.1 member]; exact plain) rfl rfl

/-- A served read is followed by one that is no blank check. -/
theorem serves (h : StoreKept s t) {r : PortRead} (plain : r.use.isBlankCheck = false) :
    StoreKept s { t with port := { t.port with serving := some r } } := by
  refine h.portDone.trans ⟨rfl, fun q member check => ?_⟩
  unfold Port.reads at *
  rcases List.mem_append.1 member with served | waiting
  · rcases List.mem_append.1 served with first | fetched
    · obtain rfl : q = r := by simpa using first
      exact absurd (plain.symm.trans check) Bool.false_ne_true
    · exact List.mem_append_left _ (List.mem_append_right _ fetched)
  · exact List.mem_append_right _ waiting

/-! ### Seats (R42 to R58) -/

theorem tellListeners (h : StoreKept s t) : StoreKept s t.tellListeners := by
  obtain ⟨r, l, p, rs, told⟩ := tellListeners_eq t
  rw [told]
  exact h.leaf rfl rfl

theorem seatsTaken (h : StoreKept s t) (table : SeatTable) : StoreKept s (t.seatsTaken table) := by
  obtain ⟨u, formed, taken | told⟩ := seatsTaken_spec t table
  · rw [taken]; exact engines (h.leaf (by rfl) (by rfl)) formed
  · rw [told]; exact (engines (h.leaf (by rfl) (by rfl)) formed).tellListeners

theorem refreshEnabled (h : StoreKept s t) : StoreKept s t.refreshEnabled := by
  obtain ⟨-, same⟩ | ⟨u, formed, taken | told⟩ := refreshEnabled_spec t
  · rw [same]; exact h
  · rw [taken]; exact engines (h.leaf (by rfl) (by rfl)) formed
  · rw [told]; exact (engines (h.leaf (by rfl) (by rfl)) formed).tellListeners

theorem endListenersHold (h : StoreKept s t) : StoreKept s t.endListenersHold := by
  unfold State.endListenersHold
  dsimp only
  split <;> exact h.leaf rfl rfl

theorem missReply (h : StoreKept s t) (box : Fin 16) : StoreKept s (t.missReply box) := by
  unfold State.missReply
  dsimp only
  split
  · exact seatsTaken (h.leaf (by rfl) (by rfl)) _
  · exact h.leaf rfl rfl

theorem takeReply (h : StoreKept s t) (r : PollReply) : StoreKept s (t.takeReply r) := by
  unfold State.takeReply
  dsimp only
  split
  · exact h.seatsTaken _
  · exact (h.report _).seatsTaken _

/-! ### The voices and their pages (R109 to R113) -/

theorem checkPage (h : StoreKept s t) (page : Nat) (data : Option (List Byte)) (clip index : Nat) (quiet : Bool) :
    StoreKept s (t.checkPage page data clip index quiet).2 := by
  obtain ⟨n, f, l, faults, checked⟩ := checkPage_state t page data clip index quiet
  rw [checked]
  exact h.leaf rfl rfl

theorem voicePage (h : StoreKept s t) (v : Fin 16) (serial index page : Nat) (data : Option (List Byte)) :
    StoreKept s (t.voicePage v serial index page data) := by
  unfold State.voicePage
  split
  · split
    · exact h
    · exact (h.checkPage page data _ index false).engines (topUp_engines (setVoice_engines (.refl _) v _) v)
  · exact h

theorem residentPage (h : StoreKept s t) (buffer index page : Nat) (data : Option (List Byte)) (quiet : Bool) :
    StoreKept s (t.residentPage buffer index page data quiet) := by
  unfold State.residentPage
  split
  · exact h
  · split
    · exact (h.checkPage page data _ index quiet).leaf rfl rfl
    · exact h

theorem freed (h : StoreKept s t) (v : Fin 16) : StoreKept s (t.dropVoice v).tellFree :=
  h.engines (tellFree_engines (dropVoice_engines (.refl t) v))

theorem duePlaying (h : StoreKept s t) (v : Fin 16) : StoreKept s (t.duePlaying v) := by
  unfold State.duePlaying
  dsimp only
  split
  · exact h.engines (voiceEnded_engines (.refl t) v)
  · split
    · exact h.engines (topUp_engines (setVoice_engines (.refl t) v _) v)
    · split
      · exact h.leaf rfl rfl
      · exact h.engines (voiceEnded_engines (.refl t) v)

theorem dueStopping (h : StoreKept s t) (v : Fin 16) : StoreKept s (t.dueStopping v) := by
  unfold State.dueStopping
  dsimp only
  split
  · exact h.freed v
  · split <;> exact h.leaf rfl rfl

/-! ### The tracker and the modes (R1 to R15, R124, R125) -/

theorem advance (h : StoreKept s t) : StoreKept s t.advance := h.acts (advance_acts (.refl t))

theorem deriveNeed (h : StoreKept s t) : StoreKept s t.deriveNeed := h.acts (deriveNeed_acts (.refl t))

theorem pulse (h : StoreKept s t) (arrival : BitVec 32) : StoreKept s (t.pulse arrival) := by
  have moved : ∀ tr : Tracker, StoreKept s { t with tracker := tr } := fun _ => h.leaf rfl rfl
  unfold State.pulse
  split
  · dsimp only
    split
    · exact (moved _).advance
    · exact moved _
  · exact moved _

theorem motionTest (h : StoreKept s t) : StoreKept s t.motionTest := by
  obtain ⟨mode, pending, tested⟩ := motionTest_acts t
  exact acts (h.leaf (by rfl) (by rfl)) tested

theorem endWindow (h : StoreKept s t) : StoreKept s t.endWindow := by
  have renewed : StoreKept s t.windowed := h.leaf rfl rfl
  exact renewed.advance.motionTest

theorem hardFix (h : StoreKept s t) (projected : Nat) : StoreKept s (t.hardFix projected) := by
  have moved : ∀ tr : Tracker, StoreKept s { t with tracker := tr } := fun _ => h.leaf rfl rfl
  unfold State.hardFix
  dsimp only
  split
  · exact (moved _).acts (jumpBackward_acts (.refl _) _)
  · exact (moved _).acts (jumpForward_acts (.refl _))

theorem leaveByMotion (h : StoreKept s t) : StoreKept s t.leaveByMotion := by
  have run : StoreKept s { t with store := { t.store with mode := .run, motionPending := false } } := h.leaf rfl rfl
  exact run.advance.report _

/-! ### Routes (R16, R22 to R27) -/

theorem routeChange (h : StoreKept s t) : StoreKept s t.routeChange := by
  have left : StoreKept s t.leaveRoute := by
    unfold State.leaveRoute
    split <;> exact h.leaf rfl rfl
  have silent : StoreKept s t.leaveRoute.stopCommentary.dropCueEntries :=
    left.engines (dropCueEntries_engines (stopCommentary_engines (.refl _)))
  have dark : ∀ u, StoreKept s u → StoreKept s u.darken := fun u hu =>
    (acts (t := { u with lights := u.lights.clearScene u.clock }) (hu.leaf rfl rfl) (setQuiet_acts (.refl _) false)).refreshEnabled
  rw [routeChange_eq]
  exact dark _ silent

theorem beginLoad (h : StoreKept s t) (n : Nat) (extent : Extent) : StoreKept s (t.beginLoad n extent) :=
  h.posts (fun r member => by rw [List.mem_singleton.1 member]; rfl) rfl rfl

theorem failLoad (h : StoreKept s t) (reason : RouteFailure) : StoreKept s (t.failLoad reason) := h.leaf rfl rfl

theorem routePage (h : StoreKept s t) (serial index page : Nat) (data : Option (List Byte)) :
    StoreKept s (t.routePage serial index page data) := by
  have ready : ∀ p, StoreKept s (t.routeReady p) := fun p => refreshEnabled (h.leaf (by rfl) (by rfl))
  unfold State.routePage
  split
  · split
    · split
      · exact h.failLoad _
      · unfold State.loadPage
        dsimp only
        split
        · exact ready _
        · exact h.failLoad _
        · split
          · exact h.failLoad _
          · exact h.posts (fun r member => by rw [List.mem_singleton.1 member]; rfl) rfl rfl
    · exact h
  · exact h

/-! ### Reloads (R137, R120) -/

theorem waitingLookup (h : StoreKept s t) (v : Fin 16) : StoreKept s (t.waitingLookup v) := by
  unfold State.waitingLookup
  split
  · exact h
  · next clip page _ =>
    have looked := h.engines (lookUp_engines (.refl t) v clip page)
    revert looked
    generalize t.lookUp v clip page = p
    intro looked
    obtain ⟨u, o⟩ := p
    cases o
    case started => exact looked
    all_goals exact looked.engines (ownerActs_engines (.refl u) _ v)

theorem waitingLookups (l : List (Fin 16)) (h : StoreKept s t) : StoreKept s (l.foldl State.waitingLookup t) := by
  induction l generalizing t with
  | nil => exact h
  | cons v l ih => exact ih (h.waitingLookup v)

end StoreKept

theorem directoryReads_plain (partition : Fin 16) : ∀ r ∈ directoryReads partition, r.use.isBlankCheck = false := by
  intro r member
  unfold directoryReads at member
  rcases List.mem_append.1 member with routes | clips
  · obtain ⟨i, -, rfl⟩ := List.mem_map.1 routes
    rfl
  · obtain ⟨i, -, rfl⟩ := List.mem_map.1 clips
    rfl

theorem residentReads_plain (buffers : List Resident) : ∀ r ∈ residentReads buffers, r.use.isBlankCheck = false := by
  intro r member
  unfold residentReads at member
  obtain ⟨b, -, inside⟩ := List.mem_flatMap.1 member
  split at inside
  · cases inside
  · obtain ⟨i, -, rfl⟩ := List.mem_map.1 inside
    rfl

namespace StoreKept
variable {s t u : State}

theorem beginReload (h : StoreKept s t) : StoreKept s t.beginReload :=
  h.posts (directoryReads_plain t.inForce.partition) rfl rfl

theorem endReload (h : StoreKept s t) (r : Reload) : StoreKept s (t.endReload r) := by
  have told : ∀ (c : CueEngine) (clips : List ClipEntry) (rejected : Nat) (p : Report),
      StoreKept s (({ t with
        cues := c, store := { t.store with clips := clips, rejected := rejected, reload := none } } : State).report p) :=
    fun _ _ _ _ => h.leaf rfl rfl
  unfold State.endReload
  generalize List.finRange 16 = voices
  dsimp only
  split
  · exact (waitingLookups voices ((told _ _ _ _).posts (residentReads_plain _) (by rfl) (by rfl))).leaveByMotion
  · exact waitingLookups voices ((told _ _ _ _).posts (residentReads_plain _) (by rfl) (by rfl))

theorem directoryPage (h : StoreKept s t) (use : ReadUse) (data : Option (List Byte)) (erasing : Bool) :
    StoreKept s (t.directoryPage use data erasing) := by
  unfold State.directoryPage
  split
  · exact h
  · dsimp only
    split
    · exact h.endReload _
    · exact h.leaf rfl rfl

/-! ### Settings (R179) -/

theorem settingWritten (h : StoreKept s t) (id : Nat) : StoreKept s (t.settingWritten id) := by
  have mixed : ∀ m : Mixer, StoreKept s { t with mixer := m } := fun _ => h.leaf rfl rfl
  unfold State.settingWritten
  split
  case h_2 => exact h.advance
  case h_3 => exact h.advance.motionTest
  case h_4 => exact h.refreshEnabled
  case h_5 => exact h.seatsTaken _
  case h_6 => exact (mixed _).deriveNeed.engines (deriveDemand_engines (.refl _))
  case h_11 =>
    unfold State.delayWritten
    split <;> exact h.leaf rfl rfl
  case h_13 => exact (mixed _).deriveNeed
  all_goals exact h.leaf rfl rfl

/-! ### Power (R182 to R186) -/

/-- An entry phase begins in a part that runs. -/
theorem beginEntry (h : StoreKept s t) (running : t.running = true) (cause : EntryCause) : StoreKept s (t.beginEntry cause) := by
  refine h.leaf ?_ rfl
  unfold State.guarded
  rw [running]
  rfl

theorem abortEntry (h : StoreKept s t) (running : t.running = true) (wake : WakeCause) : StoreKept s (t.abortEntry wake) := by
  have awake : StoreKept s { t with
      power := { t.power with state := .awake, phaseEnd := none, phaseOver := false }
      mixer := t.mixer.restoreOutput
      lights := t.lights.setBlank false } := by
    refine h.leaf ?_ rfl
    unfold State.guarded
    rw [running]
    rfl
  unfold State.abortEntry
  dsimp only
  split <;> exact awake.leaf rfl rfl

end StoreKept
end Sys2Proof.Machine
end

section
/-! SUPPORT. What a command can do to what the store's invariant reads: accept a write, post a blank check, set locks, freeze them,
complete the write that runs, load the lock map; and then let the part run on, or abandon its state. -/

namespace Sys2Proof.Machine

/-- The store after the completion of the write that runs: its bytes, and the write that follows a settings erase (R127, R130,
R131, R133, R135, R180). -/
def Store.finished (st : Store) (w : WriteRecord) : Option Store :=
  match w.kind with
  | .pageProgram data _ => w.page.map fun page => (st.programDone page data).writeEnds
  | .sectorErase => some (st.eraseDone w.sector).writeEnds
  | .lockProgram target _ => some (st.lockDone target).writeEnds
  | .lockErase => some st.unlockDone.writeEnds
  | .settingsSave record true => some (st.programDone 0 record).writeEnds
  | .settingsSave record false =>
    some { st.eraseDone 0 with
      write := some { kind := .settingsSave record true, sector := 0, page := some 0, phase := .waiting } }

/-- What a command does to the store's controller before the rest of its event. -/
inductive StoreAct (s : State) : State → Prop where
  | rests : StoreAct s s
  | accepts (w : WriteRecord) (running : s.running = true) (sound : w.sound s.store) :
      StoreAct s { s with store := { s.store with write := some w } }
  | checks (page : Nat) (tag : Byte) (data : List Byte) (inside : pageOk page) (whole : data.length = 512) :
      StoreAct s (s.postRead { page := page, use := .blankCheck tag data })
  | holds (sectors : List Nat)
      (apart : ∀ w, s.store.write = some w → w.sector ∈ sectors → w.sector ∈ s.store.volatileLocks) :
      StoreAct s { s with store := { s.store with volatileLocks := sectors } }
  | freezes (apart : ∀ w, s.store.write = some w → w.kind.locks = false) :
      StoreAct s { s with store := { s.store with freeze := true } }
  | finishes (w : WriteRecord) (st : Store) (running : s.running = true) (write : s.store.write = some w)
      (runs : w.phase = .running) (finished : s.store.finished w = some st) : StoreAct s { s with store := st }
  | loads (locked : List Nat) (power : Power) (starting : s.power.state = .starting) :
      StoreAct s { s with store := { s.store with locked := locked }, power := power }

/-- A start-up or STANDBY has abandoned the state `s`: its bytes stay, its write and its reads are gone (R138, R181, R185). -/
structure Abandoned (s t : State) : Prop where
  cells : t.store.cells = s.store.cells
  write : t.store.write = none
  asleep : t.running = false
  plain : ∀ r ∈ t.port.reads, r.use.isBlankCheck = false

/-- Everything that a command can do to what the store's invariant reads. -/
inductive StoreStep (s t : State) : Prop where
  | runs {u : State} (act : StoreAct s u) (rest : StoreKept u t)
  | abandons {u : State} (act : StoreAct s u) (rest : Abandoned u t)

section
variable {s t u : State}

theorem StoreKept.step (h : StoreKept s t) : StoreStep s t := .runs .rests h

/-- An update that touches neither what the invariant reads nor the port. -/
theorem StoreStep.same (guarded : t.guarded = s.guarded) (port : t.port = s.port) : StoreStep s t :=
  ((StoreKept.refl s).leaf guarded port).step

theorem Abandoned.step (h : Abandoned s t) : StoreStep s t := .abandons .rests h

/-! ### Start-ups and STANDBY -/

theorem Abandoned.kept (h : Abandoned s t) (k : StoreKept t u) : Abandoned s u where
  cells := k.cells.trans h.cells
  write := Option.map_eq_none_iff.1 (k.target.trans (Option.map_eq_none_iff.2 h.write))
  asleep := k.running.trans h.asleep
  plain r member := by
    cases check : r.use.isBlankCheck with
    | false => rfl
    | true => exact check.symm.trans (h.plain r (k.checks r member check))

theorem cutOff_cells (st : Store) : st.cutOff.cells = st.cells := by
  unfold Store.cutOff
  split <;> rfl

theorem beginStartUp_abandons (s : State) (kind : StartKind) (latches : Latches) :
    Abandoned s (s.beginStartUp kind latches) where
  cells := cutOff_cells s.store
  write := rfl
  asleep := rfl
  plain r member := by
    obtain rfl : r = { page := routeDirectoryPage 0, use := .routeDirectory 0 } := List.mem_singleton.1 member
    rfl

theorem enterStandby_abandons (s : State) : Abandoned s s.enterStandby where
  cells := rfl
  write := rfl
  asleep := rfl
  plain r member := by cases member

theorem StoreKept.abandons (h : StoreKept s t) (a : Abandoned t u) : Abandoned s u :=
  { a with cells := a.cells.trans h.cells }

/-! ### Steps one after another -/

theorem StoreStep.kept (h : StoreStep s t) (k : StoreKept t u) : StoreStep s u := by
  cases h with
  | runs act rest => exact .runs act (rest.trans k)
  | abandons act rest => exact .abandons act (rest.kept k)

theorem StoreStep.reply (h : StoreStep s t) (kind : Nat) (tag : Byte) (code : ResultCode) (data : ReplyData) :
    StoreStep s (t.reply kind tag code data) := h.kept ((StoreKept.refl t).reply _ _ _ _)

theorem StoreStep.endEvent (h : StoreStep s t) : StoreStep s t.endEvent := h.kept (StoreKept.refl t).endEvent

/-- What a step does to the store does not depend on the waiting commands or the link. -/
theorem StoreStep.outside {pending : List Instr} {link : Link}
    (h : StoreStep { s with pending := pending, link := link } t) : StoreStep s t := by
  have acts : ∀ {u}, StoreAct { s with pending := pending, link := link } u →
      ∃ v, StoreAct s v ∧ StoreKept v u ∧ u.store.cells = v.store.cells := by
    intro u act
    cases act with
    | rests => exact ⟨_, .rests, (StoreKept.refl s).leaf rfl rfl, rfl⟩
    | accepts w running sound => exact ⟨_, .accepts w running sound, (StoreKept.refl _).leaf rfl rfl, rfl⟩
    | checks page tag data inside whole =>
      exact ⟨_, .checks page tag data inside whole, (StoreKept.refl _).leaf rfl rfl, rfl⟩
    | holds sectors apart => exact ⟨_, .holds sectors apart, (StoreKept.refl _).leaf rfl rfl, rfl⟩
    | freezes apart => exact ⟨_, .freezes apart, (StoreKept.refl _).leaf rfl rfl, rfl⟩
    | finishes w st running write runs finished =>
      exact ⟨_, .finishes w st running write runs finished, (StoreKept.refl _).leaf rfl rfl, rfl⟩
    | loads locked power starting => exact ⟨_, .loads locked power starting, (StoreKept.refl _).leaf rfl rfl, rfl⟩
  cases h with
  | runs act rest =>
    obtain ⟨v, act, same, -⟩ := acts act
    exact .runs act (same.trans rest)
  | abandons act rest =>
    obtain ⟨v, act, -, cells⟩ := acts act
    exact .abandons act { rest with cells := rest.cells.trans cells }

/-! ### Events and requests -/

theorem StoreStep.ofEvent {act : State → State} (ha : s.running = true → StoreStep s (act s)) (he : s.event act = .next t) :
    StoreStep s t := by
  unfold State.event at he
  cases he
  split
  · next running => exact (ha running).endEvent
  · exact (StoreKept.refl s).step

theorem StoreStep.request {kind : Nat} {tag : Byte} {owner : State → State}
    (ho : ∀ u, u.running = true → StoreStep u (owner u)) : StoreStep s (s.request kind tag owner) := by
  unfold State.request
  split
  · next turn =>
    have running := ((turnOf_iff _ _ _).1 turn).1
    have acts := ho { s with link := { s.link with input := takeFirst (BitVec.ofNat 8 kind) tag s.link.input } } running
    dsimp only
    split
    · split
      · exact .same rfl rfl
      · exact acts.outside
    · exact acts.outside
  · exact (StoreKept.refl s).step

theorem StoreStep.ofCommand {kind : Nat} {tag : Byte} {act : State → State}
    (ha : ∀ u, u.running = true → StoreStep u (act u)) (he : s.command kind tag act = .next t) : StoreStep s t := by
  unfold State.command at he
  cases he
  exact StoreStep.request fun u running => (ha u running).endEvent

theorem StoreStep.ofQuery {kind : Nat} {tag : Byte} {act : State → State}
    (ha : ∀ u, u.running = true → StoreStep u (act u)) (he : s.query kind tag act = .next t) : StoreStep s t := by
  unfold State.query at he
  cases he
  exact StoreStep.request fun u running => (ha u running).kept (StoreKept.refl _).kick

/-! ### Wake inputs (R185, R186) -/

theorem wakeInput_step (h : StoreKept s t) (wake : WakeCause) : StoreStep s (t.wakeInput wake) := by
  unfold State.wakeInput
  split
  · exact h.step
  · next entering =>
    have running : t.running = true := by
      unfold State.running
      rw [entering]
    exact (h.abortEntry running wake).step
  · exact (h.abandons (beginStartUp_abandons t _ _)).step
  · split
    · exact (h.leaf (by rfl) (by rfl)).step
    · exact h.step

theorem receive_step (s : State) (b : Byte) : StoreStep s (s.receive b) := by
  unfold State.receive
  split
  · split
    · exact (wakeInput_step (.refl s) .link).kept ((StoreKept.refl _).leaf rfl rfl)
    · exact .same rfl rfl
  · exact .same rfl rfl

/-! ### The loading sequence (R132, R181, R182) -/

/-- From `s` to `t` the lock map and the power may have changed, and beside them nothing that the store's invariant reads. -/
def Loaded (s t : State) : Prop :=
  ∃ (locked : List Nat) (power : Power),
    StoreKept { s with store := { s.store with locked := locked }, power := power } t

theorem Loaded.kept (h : Loaded s t) (k : StoreKept t u) : Loaded s u := by
  obtain ⟨locked, power, rest⟩ := h
  exact ⟨locked, power, rest.trans k⟩

theorem StoreKept.loaded (h : StoreKept s t) (locked : List Nat) (power : Power) :
    Loaded s { t with store := { t.store with locked := locked }, power := power } := by
  refine ⟨locked, power, ?_, h.checks⟩
  exact congrArg (fun g : StoreGuard => { g with locked := locked, running := ({ s with power := power } : State).running })
    h.guarded

theorem Loaded.loaded (h : Loaded s t) (locked : List Nat) (power : Power) :
    Loaded s { t with store := { t.store with locked := locked }, power := power } := by
  obtain ⟨_, _, rest⟩ := h
  obtain ⟨locked, power, rest⟩ := rest.loaded locked power
  exact ⟨locked, power, rest⟩

theorem takeLoad_loaded (s : State) (r : PortRead) (data : Option (List Byte)) : Loaded s (s.takeLoad r data) := by
  have same : ∀ t, StoreKept s t → Loaded s t := fun t k => k.loaded t.store.locked t.power
  unfold State.takeLoad
  split
  · exact same _ ((StoreKept.refl s).leaf rfl rfl)
  · dsimp only
    split <;> exact same _ ((StoreKept.refl s).leaf rfl rfl)
  · exact same _ ((StoreKept.refl s).residentPage _ _ _ _ _)
  · have locks := (StoreKept.refl s).loaded
    unfold State.takeLockPage
    split
    · exact locks _ s.power
    · exact (locks _ _).kept ((StoreKept.refl _).leaf rfl rfl)
  · exact same _ (StoreKept.refl s)

theorem residentRead_plain (s : State) (b i : Nat) : (s.residentRead b i).use.isBlankCheck = false := by
  unfold State.residentRead
  split
  · rfl
  · split
    · rfl
    · split <;> rfl

theorem nextLoad_plain {use : ReadUse} {r : PortRead} (h : s.nextLoad use = some r) : r.use.isBlankCheck = false := by
  unfold State.nextLoad at h
  split at h
  · split at h <;> (cases h; rfl)
  · split at h
    · cases h; rfl
    · cases h; exact residentRead_plain s 0 0
  · cases h; exact residentRead_plain s _ _
  · split at h
    · cases h; rfl
    · cases h
  · cases h

theorem completeStartUp_loaded (s : State) : Loaded s s.completeStartUp := by
  have sampled : ∀ u : State, StoreKept u (if u.power.ignition then u else u.armTimer) := by
    intro u
    split
    · exact .refl u
    · exact (StoreKept.refl u).leaf rfl rfl
  have reported : ∀ (faults : List FaultRecord) (u : State),
      StoreKept u (faults.foldl (fun s f => s.report (.storeFault f)) u) := by
    intro faults
    induction faults with
    | nil => exact .refl
    | cons f faults ih => exact fun u => ((StoreKept.refl u).report _).trans (ih _)
  have awake := (StoreKept.refl s).loaded s.store.locked { s.power with state := .awake, latches := {}, faults := [] }
  unfold State.completeStartUp
  exact awake.kept ((((StoreKept.refl _).leaf (by rfl) (by rfl)).trans (reported _ _)).trans (sampled _)).kick

theorem loadArrives_step (starting : s.power.state = .starting) (failed : Bool) : StoreStep s (s.loadArrives failed) := by
  have ends : ∀ t, Loaded s t → StoreStep s t := fun t ⟨locked, power, rest⟩ => .runs (.loads locked power starting) rest
  unfold State.loadArrives
  split
  · exact (StoreKept.refl s).step
  · next r _ =>
    obtain ⟨n, read⟩ := readPage_state s r.page failed
    dsimp only
    rw [read]
    obtain ⟨locked, power, rest⟩ := takeLoad_loaded { s with freeSerial := n } r (s.readPage r.page failed).1
    have taken : Loaded s (State.takeLoad { s with freeSerial := n } r (s.readPage r.page failed).1) :=
      ⟨locked, power, rest.guarded, rest.checks⟩
    split
    · next next following => exact ends _ (taken.kept ((StoreKept.refl _).serves (nextLoad_plain following)))
    · obtain ⟨locked, power, completed⟩ :=
        completeStartUp_loaded (State.takeLoad { s with freeSerial := n } r (s.readPage r.page failed).1).portDone
      exact ends _ ((((taken.kept (StoreKept.refl _).portDone)).loaded locked power).kept completed)

/-! ### The completion of a write (R130, R131, R133, R135, R180) -/

theorem runningWrite_eq_some {st : Store} {w : WriteRecord} :
    st.runningWrite = some w ↔ st.write = some w ∧ w.phase = .running := by
  unfold Store.runningWrite
  rw [Option.filter_eq_some_iff, decide_eq_true_iff]

/-- A write that ends completes the write record, and an entry phase that waited for it ends in STANDBY (R185). -/
theorem writeDone_step {w : WriteRecord} {st : Store} {act : State → State} (running : s.running = true)
    (write : s.store.runningWrite = some w) (finished : s.store.finished w = some st.writeEnds)
    (ha : ∀ u, StoreKept u (act u)) : StoreStep s (s.writeDone st act) := by
  obtain ⟨write, runs⟩ := runningWrite_eq_some.1 write
  have completes := StoreAct.finishes w st.writeEnds running write runs finished
  have ended := (ha { s with store := st.writeEnds }).endEvent
  unfold State.writeDone State.afterWrite
  split
  · exact .abandons completes (ended.abandons (enterStandby_abandons _))
  · exact .runs completes ended

end
end Sys2Proof.Machine
end

section
/-! SUPPORT. What each command does to what the store's invariant reads (07). -/

namespace Sys2Proof.Machine

theorem mem_setAdd {l : List Nat} {x y : Nat} : y ∈ setAdd l x ↔ y ∈ l ∨ y = x := by
  induction l with
  | nil => simp [setAdd]
  | cons z rest ih =>
    unfold setAdd
    split
    · simp only [List.mem_cons]; tauto
    · split
      · next same => subst same; simp only [List.mem_cons]; tauto
      · simp only [List.mem_cons, ih]; tauto

theorem mem_setRemove {l : List Nat} {x y : Nat} : y ∈ setRemove l x ↔ y ∈ l ∧ y ≠ x := by
  unfold setRemove
  rw [List.mem_filter, decide_eq_true_iff]

/-! ### The record of the settings (12 section 12.6) -/

/-- The record's length does not depend on the settings: every value has the width of Table 12-9. -/
theorem tables_length {α : Type} {n k : Nat} (t : Table α n) (f : α → List Byte) (h : ∀ a, (f a).length = k) :
    (t.list.flatMap f).length = n * k := by
  rw [List.length_flatMap, List.map_congr_left fun a _ => h a, List.map_const', List.sum_replicate, t.size, smul_eq_mul]

/-- Every value is read in the width of Table 12-9. -/
theorem read_length (g : Settings) {id : Nat} (h : id ∈ settingIds) : (g.read id).length = (settingWidth id).getD 0 := by
  have tags : ∀ t, (tagBytes t).length = 2 := fun t => by cases t <;> rfl
  have tagged := tables_length g.languageTags tagBytes tags
  have modes := tables_length g.driverModes (fun m => beBytes 1 m.code) fun m => beBytes_length 1 m.code
  have residents := tables_length g.residentList (beBytes 2) fun n => beBytes_length 2 n
  unfold Settings.read
  split
  case h_9 => exact tagged
  case h_26 => exact modes
  case h_29 => exact residents
  case h_30 others =>
    obtain ⟨i, inside, rfl⟩ := List.mem_map.1 h
    rw [List.mem_range] at inside
    interval_cases i <;> exact absurd rfl (by assumption)
  all_goals rfl

/-- The values of all settings, one after another. -/
def Settings.values (g : Settings) : List Byte := settingIds.flatMap g.read

theorem values_length (g : Settings) : g.values.length = 105 := by
  unfold Settings.values
  rw [List.length_flatMap, List.map_congr_left fun id member => read_length g member]
  decide

/-- The record's marker and values, filled with zeros to its check. -/
def Settings.recordBody (g : Settings) : List Byte := beBytes 2 0x5E11 ++ (g.values ++ List.replicate 403 0)

theorem recordBody_length (g : Settings) : g.recordBody.length = 510 := by
  unfold Settings.recordBody
  rw [List.length_append, List.length_append, values_length, beBytes_length, List.length_replicate]

theorem record_eq (g : Settings) : g.record = g.recordBody ++ beBytes 2 (crc16 g.recordBody).toNat := by
  have fields : (beBytes 2 0x5E11 ++ settingIds.flatMap g.read).length = 107 := by
    rw [List.length_append, beBytes_length]
    exact congrArg (2 + ·) (values_length g)
  unfold Settings.record
  simp only [fields, Settings.recordBody, Settings.values, List.append_assoc]

/-- The record has the length of a page, whatever the settings. -/
theorem record_length (g : Settings) : g.record.length = 512 := by
  rw [record_eq, List.length_append, recordBody_length, beBytes_length]

end Sys2Proof.Machine
end

section
/-! SUPPORT. What each command does to what the store's invariant reads (07). -/

namespace Sys2Proof.Machine

section
variable {s t u : State}

/-! ### Writes accepted, locks set (R128 to R136) -/

theorem writeCheck_none {n top sector : Nat} (h : s.writeCheck n top sector = none) :
    n ≤ top ∧ reserved sector = false ∧ s.store.isLocked sector = false := by
  unfold State.writeCheck at h
  split at h
  · cases h
  · split at h
    · cases h
    · next within =>
      split at h
      · cases h
      · split at h
        · cases h
        · next free =>
          rw [Bool.or_eq_true, not_or, Bool.not_eq_true, Bool.not_eq_true] at free
          exact ⟨Nat.not_lt.1 within, free⟩

theorem lockCheck_none {sector : Nat} (h : lockCheck sector = none) : sector ≤ 2047 ∧ sector ≠ 0 ∧ sector ≠ 2047 := by
  unfold lockCheck at h
  split at h
  · cases h
  · next within =>
    split at h
    · cases h
    · next free => exact ⟨Nat.not_lt.1 within, not_or.1 (mt (reserved_iff sector).2 free)⟩

theorem acceptWrite_step (h : StoreKept s t) (running : s.running = true) {kind : WriteKind} {sector : Nat} {page : Option Nat}
    (sound : WriteRecord.sound s.store { kind := kind, sector := sector, page := page, phase := .waiting }) :
    StoreStep s (t.acceptWrite kind sector page) :=
  .runs (.accepts _ running sound)
    ⟨congrArg (fun g : StoreGuard => { g with target := some (kind, sector, page) }) h.guarded, h.checks⟩

/-- A blank check that passes its checks again is of a page of data for a page that no lock protects (R129). -/
theorem blankChecked_step (h : StoreKept s t) (running : s.running = true) {tag : Byte} {page : Nat} {bytes : List Byte}
    (inside : pageOk page) (whole : bytes.length = 512) (data : Option (List Byte)) :
    StoreStep s (t.blankChecked tag page bytes data) := by
  unfold State.blankChecked
  split
  · exact (h.reply _ _ _ _).step
  · next passed =>
    obtain ⟨-, free, unlocked⟩ := writeCheck_none passed
    split
    · exact (h.reply _ _ _ _).step
    · split
      · exact (h.reply _ _ _ _).step
      · refine acceptWrite_step h running ⟨whole, ⟨page, rfl, inside, rfl⟩, free, ?_⟩
        unfold Store.isLocked at *
        rw [← h.locked, ← h.volatileLocks]
        exact unlocked

/-! ### Requests -/

/-- The requests that post a read of one page, that form a write, or that set volatile locks and the freeze. -/
def asksStore : Instr → Bool
  | .storeRead _ _ | .storeProgram _ _ _ | .storeErase _ _ | .lockPersistent _ _ _ | .unlockAll _ | .saveSettings _
  | .volatileOn _ _ | .volatileOff _ _ | .freezeLocks _ => true
  | _ => false

theorem storeRequest_step {c : Instr} (hc : asksStore c = true) (he : exec c s = .next t) : StoreStep s t := by
  cases c
  case storeRead tag page =>
    simp only [exec, execStoreRead] at he
    refine .ofCommand (fun u _ => ?_) he
    split
    · exact .same rfl rfl
    · exact ((StoreKept.refl u).postRead (r := { page := page, use := .storeRead tag }) rfl).step
  case storeProgram tag page data =>
    simp only [exec, execStoreProgram] at he
    refine .ofCommand (fun u _ => ?_) he
    split
    · exact .same rfl rfl
    · next whole =>
      split
      · exact .same rfl rfl
      · next passed =>
        obtain ⟨inside, -⟩ := writeCheck_none passed
        exact .runs (.checks page tag data inside (not_not.1 whole)) (.refl _)
  case storeErase tag sector =>
    simp only [exec, execStoreErase] at he
    refine .ofCommand (fun u running => ?_) he
    split
    · exact .same rfl rfl
    · next passed =>
      unfold State.eraseCheck at passed
      split at passed
      · cases passed
      · next checked =>
        refine .reply (acceptWrite_step (.refl u) running ?_) _ _ _ _
        exact (writeCheck_none checked)
  case lockPersistent tag known sector =>
    simp only [exec, execLockPersistent] at he
    refine .ofCommand (fun u running => ?_) he
    split
    · exact .same rfl rfl
    · split
      · exact .same rfl rfl
      · next passed =>
        split
        · exact .same rfl rfl
        · next thawed =>
          split
          · exact .same rfl rfl
          · split
            · exact .same rfl rfl
            · exact acceptWrite_step (.refl u) running ⟨rfl, (lockCheck_none passed).1, Bool.eq_false_iff.2 thawed⟩
  case unlockAll tag =>
    simp only [exec, execUnlockAll] at he
    refine .ofCommand (fun u running => ?_) he
    split
    · exact .same rfl rfl
    · next thawed =>
      split
      · exact .same rfl rfl
      · refine .reply (acceptWrite_step (.refl u) running ?_) _ _ _ _
        exact ⟨rfl, Bool.eq_false_iff.2 thawed⟩
  case saveSettings tag =>
    simp only [exec, execSaveSettings] at he
    refine .ofCommand (fun u running => ?_) he
    split
    · exact .same rfl rfl
    · refine .reply (acceptWrite_step (.refl u) running ?_) _ _ _ _
      exact ⟨rfl, record_length u.settings⟩
  case volatileOn tag sector =>
    simp only [exec, execVolatileOn] at he
    refine .ofQuery (fun u _ => ?_) he
    split
    · exact .same rfl rfl
    · split
      · exact .same rfl rfl
      · split
        · exact .same rfl rfl
        · next apart =>
          refine .runs (.holds (setAdd u.store.volatileLocks sector) fun w write member => ?_)
            ((StoreKept.refl _).reply _ _ _ _)
          refine (mem_setAdd.1 member).resolve_right fun same => apart ?_
          rw [write]
          exact decide_eq_true same
  case volatileOff tag sector =>
    simp only [exec, execVolatileOff] at he
    refine .ofQuery (fun u _ => ?_) he
    split
    · exact .same rfl rfl
    · split
      · exact .same rfl rfl
      · exact .runs (.holds (setRemove u.store.volatileLocks sector) fun w _ member => (mem_setRemove.1 member).1)
          ((StoreKept.refl _).reply _ _ _ _)
  case freezeLocks tag =>
    simp only [exec, execFreezeLocks] at he
    refine .ofQuery (fun u _ => ?_) he
    split
    · exact .same rfl rfl
    · next apart =>
      refine .runs (.freezes fun w write => ?_) ((StoreKept.refl _).reply _ _ _ _)
      rw [write] at apart
      exact Bool.eq_false_iff.2 apart
  all_goals cases hc

/-- Every request of the other blocks leaves alone what the store's invariant reads, but for the reads of a route or a
directory. -/
theorem request_step {c : Instr} (hr : (requestOf c).isSome = true) (he : exec c s = .next t) : StoreStep s t := by
  cases c
  case getPosition | getCues | getSeats | getStreams | getAnnouncements | setPrecedence | clearStoreFaults | lockdown
      | getStoreState | setLight | applyScene | clearScene | setMaster | getLights | getStatus | restart | getSetting
      | fixSoft | detourBegin =>
    simp only [exec, execGetPosition, execGetCues, execGetSeats, execGetStreams, execGetAnnouncements, execSetPrecedence,
      execClearStoreFaults, execLockdown, execGetStoreState, execSetLight, execApplyScene,
      execClearScene, execSetMaster, execGetLights, execGetStatus, execRestart, execGetSetting, execFixSoft,
      execDetourBegin] at he
    exact .ofQuery (fun u _ => by (repeat' split) <;> exact .same rfl rfl) he
  case storeRead | storeProgram | storeErase | lockPersistent | unlockAll | saveSettings | volatileOn | volatileOff
      | freezeLocks => exact storeRequest_step rfl he
  case standby tag =>
    simp only [exec, execStandby] at he
    refine .ofQuery (fun u running => ?_) he
    split
    · exact .same rfl rfl
    · split
      · exact .same rfl rfl
      · split
        · exact .same rfl rfl
        · exact (((StoreKept.refl u).beginEntry running _).reply _ _ _ _).step
  case reloadDirectory tag =>
    simp only [exec, execReloadDirectory] at he
    refine .ofCommand (fun u _ => ?_) he
    split
    · exact .same rfl rfl
    · split
      · exact .same rfl rfl
      · split
        · exact .same rfl rfl
        · exact ((StoreKept.refl u).beginReload.reply _ _ _ _).step
  -- Announcements and seats.
  case announce tag cls clipSet maxWait =>
    simp only [exec, execAnnounce] at he
    refine .ofCommand (fun u _ => ?_) he
    split
    · exact .same rfl rfl
    · split
      · exact .same rfl rfl
      · split
        · exact .same rfl rfl
        · have replied : ∀ (x : State) o, StoreKept x (x.replyAdmission tag o) := fun x o => by
            cases o <;> exact (StoreKept.refl x).reply _ _ _ _
          exact (((StoreKept.refl u).acts (admitEntry_acts (.refl u) _)).trans (replied _ _)).step
  case cancelAnnounce tag ticket =>
    simp only [exec, execCancelAnnounce] at he
    refine .ofCommand (fun u _ => ?_) he
    split
    · exact .same rfl rfl
    · split
      · exact .same rfl rfl
      · exact (((StoreKept.refl u).reply _ _ _ _).engines (cancelEntry_engines (.refl _) _)).step
  case setSeat tag seat f =>
    simp only [exec, execSetSeat] at he
    refine .ofCommand (fun u _ => ?_) he
    split
    · exact .same rfl rfl
    · split
      · exact .same rfl rfl
      · split
        · exact .same rfl rfl
        · exact (((StoreKept.refl u).seatsTaken _).reply _ _ _ _).step
  case seatApply tag f =>
    simp only [exec, execSeatApply] at he
    refine .ofCommand (fun u _ => ?_) he
    split
    · exact .same rfl rfl
    · split
      · exact .same rfl rfl
      · exact (((StoreKept.refl u).seatsTaken _).reply _ _ _ _).step
  -- Fixes, modes and cues.
  case fixHard =>
    simp only [exec, execFixHard] at he
    refine .ofCommand (fun u _ => ?_) he
    split
    · exact .same rfl rfl
    · exact (((StoreKept.refl u).reply _ _ _ _).hardFix _).step
  case detourEnd =>
    simp only [exec, execDetourEnd] at he
    refine .ofCommand (fun u _ => ?_) he
    split
    · exact (StoreKept.advance ((StoreKept.refl u).leaf (by rfl) (by rfl))).step
    · exact .same rfl rfl
  case forceCue =>
    simp only [exec, execForceCue] at he
    refine .ofCommand (fun u _ => ?_) he
    split
    · exact .same rfl rfl
    · split
      · exact .same rfl rfl
      · split
        · exact (((StoreKept.refl u).reply _ _ _ _).acts (fireCue_acts (.refl _) _ _)).step
        · exact .same rfl rfl
  case enterService tag =>
    simp only [exec, execEnterService] at he
    refine .ofCommand (fun u _ => ?_) he
    split
    · exact .same rfl rfl
    · split
      · exact (StoreKept.engines ((StoreKept.refl u).leaf (by rfl) (by rfl)) (stopCommentary_engines (.refl _))).step
      · exact .same rfl rfl
  case leaveService =>
    simp only [exec, execLeaveService] at he
    refine .ofCommand (fun u _ => ?_) he
    split
    · exact .same rfl rfl
    · split
      · exact .same rfl rfl
      · exact (StoreKept.advance ((StoreKept.refl u).leaf (by rfl) (by rfl))).step
  -- Routes, settings and zones.
  case selectRoute tag route =>
    simp only [exec, execSelectRoute] at he
    refine .ofCommand (fun u _ => ?_) he
    split
    · exact .same rfl rfl
    · split
      · exact ((StoreKept.refl u).reply _ _ _ _).routeChange.step
      · split
        · exact .same rfl rfl
        · exact (((StoreKept.refl u).reply _ _ _ _).routeChange.beginLoad _ _).step
  case setSetting tag id value =>
    simp only [exec, execSetSetting] at he
    refine .ofCommand (fun u _ => ?_) he
    split
    · exact .same rfl rfl
    · split
      · exact .same rfl rfl
      · split
        · exact .same rfl rfl
        · next g _ =>
          have written : StoreKept u { u with settings := g } := (StoreKept.refl u).leaf rfl rfl
          exact ((written.settingWritten id).reply _ _ _ _).step
  case setZone tag zone gain commentary =>
    simp only [exec, execSetZone] at he
    refine .ofCommand (fun u _ => ?_) he
    split
    · exact .same rfl rfl
    · exact ((StoreKept.deriveNeed ((StoreKept.refl u).leaf (by rfl) (by rfl))).reply _ _ _ _).step
  all_goals cases hr

/-! ### Events -/

/-- An event that acts when it is due, and changes nothing before (log 19). -/
theorem StoreStep.ofDue {due : State → Bool} {act : State → State} (ha : ∀ u, StoreKept u (act u))
    (he : s.event (fun u => if due u then act u else u) = .next t) : StoreStep s t := by
  refine .ofEvent (fun _ => ?_) he
  split
  · exact (ha s).step
  · exact (StoreKept.refl s).step

/-- The commands that hand the data of the served read to its owner, the loading sequence apart. -/
def handsPage : Instr → Bool
  | .voicePageArrival _ _ | .residentPageArrival _ | .storeReadData _ | .blankCheckData _ | .routePageArrival _
  | .directoryPageArrival _ => true
  | _ => false

/-- The data of a blank check are those of its request (R129), and the others' owners leave the store alone (R112, R113). -/
theorem arrival_step (inv : StoreInv s) {c : Instr} (hc : handsPage c = true) (he : exec c s = .next t) : StoreStep s t := by
  cases c
  case voicePageArrival voice failed =>
    simp only [exec, execVoicePageArrival] at he
    refine .ofEvent (fun _ => ?_) he
    split
    · next page v serial index _ =>
      split
      · exact (((StoreKept.refl s).readPage page failed).portDone.voicePage _ _ _ _ _).step
      · exact (StoreKept.refl s).step
    · exact (StoreKept.refl s).step
  case residentPageArrival failed =>
    simp only [exec, execResidentPageArrival] at he
    refine .ofEvent (fun _ => ?_) he
    split
    · next page buffer index _ => exact (((StoreKept.refl s).readPage page failed).portDone.residentPage _ _ _ _ _).step
    · exact (StoreKept.refl s).step
  case storeReadData failed =>
    simp only [exec, execStoreReadData] at he
    refine .ofEvent (fun _ => ?_) he
    split
    · next page tag _ => exact (((StoreKept.refl s).readPage page failed).portDone.reply _ _ _ _).step
    · exact (StoreKept.refl s).step
  case blankCheckData failed =>
    simp only [exec, execBlankCheckData] at he
    refine .ofEvent (fun running => ?_) he
    split
    · next page tag bytes served =>
      have waits : { page := page, use := .blankCheck tag bytes } ∈ s.port.reads := by
        unfold Port.reads
        rw [served]
        exact List.mem_append_left _ (List.mem_append_left _ (List.mem_singleton_self _))
      obtain ⟨whole, inside⟩ := inv.checks _ waits tag bytes rfl
      exact blankChecked_step ((StoreKept.refl s).readPage page failed).portDone running inside whole _
    · exact (StoreKept.refl s).step
  case routePageArrival failed =>
    simp only [exec, execRoutePageArrival] at he
    refine .ofEvent (fun _ => ?_) he
    split
    · next page serial index _ => exact (((StoreKept.refl s).readRoutePage page failed).portDone.routePage _ _ _ _).step
    · exact (StoreKept.refl s).step
  case directoryPageArrival failed =>
    simp only [exec, execDirectoryPageArrival] at he
    refine .ofEvent (fun _ => ?_) he
    split
    · exact (StoreKept.refl s).step
    · next r _ =>
      split
      · exact (((StoreKept.refl s).readPage r.page failed).portDone.directoryPage _ _ _).step
      · exact (StoreKept.refl s).step
  all_goals cases hc

/-- The commands with which the store reports the write that runs complete. -/
def reportsWrite : Instr → Bool
  | .pageProgramComplete | .sectorEraseComplete | .lockProgramComplete | .lockEraseComplete | .settingsEraseComplete
  | .settingsSaved => true
  | _ => false

theorem completion_step {c : Instr} (hc : reportsWrite c = true) (he : exec c s = .next t) : StoreStep s t := by
  cases c
  case settingsEraseComplete =>
    simp only [exec, execSettingsEraseComplete] at he
    refine .ofEvent (fun running => ?_) he
    split
    · next _ _ _ _ held =>
      obtain ⟨write, runs⟩ := runningWrite_eq_some.1 held
      exact .runs (.finishes _ _ running write runs rfl) (.refl _)
    · exact (StoreKept.refl s).step
  case pageProgramComplete | lockProgramComplete | sectorEraseComplete | lockEraseComplete | settingsSaved =>
    simp only [exec, execPageProgramComplete, execLockProgramComplete, execSectorEraseComplete, execLockEraseComplete,
      execSettingsSaved] at he
    cases he
    split
    · next running =>
      split
      · next write => exact writeDone_step running write rfl fun u => (StoreKept.refl u).leaf rfl rfl
      · exact (StoreKept.refl s).step
    · exact (StoreKept.refl s).step
  all_goals cases hc

/-- The start-ups, the wake inputs and lines, the end of an entry phase, the receiver and the transmitter. -/
def movesPower : Instr → Bool
  | .powerOn | .startupPageArrival _ | .pttPress | .pttRelease | .ignitionRise | .ignitionFall | .entryPhaseEnd
  | .linkByte _ | .lineErrorByte | .frameTimeout | .badKind _ _ | .frameSent => true
  | _ => false

theorem power_step {c : Instr} (hc : movesPower c = true) (he : exec c s = .next t) : StoreStep s t := by
  cases c
  -- The receiver and the transmitter.
  case lineErrorByte | frameTimeout | badKind =>
    simp only [exec, execLineErrorByte, execFrameTimeout, execBadKind] at he
    cases he
    split <;> exact .same rfl rfl
  case linkByte byte =>
    simp only [exec, execLinkByte] at he
    cases he
    split
    · exact (receive_step s byte).kept (StoreKept.refl _).kick
    · split
      · exact wakeInput_step (.refl s) .link
      · exact (StoreKept.refl s).step
  case frameSent =>
    simp only [exec, execFrameSent] at he
    cases he
    split
    · exact (StoreKept.refl s).step
    · split
      · exact (StoreKept.abandons ((StoreKept.refl s).leaf (by rfl) (by rfl)) (beginStartUp_abandons _ _ _)).step
      · exact .same rfl rfl
    · exact .same rfl rfl
  -- Start-ups and the input lines.
  case powerOn => cases he; exact (beginStartUp_abandons s _ _).step
  case startupPageArrival failed =>
    simp only [exec, execStartupPageArrival] at he
    cases he
    split
    · next starting => exact loadArrives_step starting failed
    · exact (StoreKept.refl s).step
  case pttPress =>
    simp only [exec, execPttPress] at he
    cases he
    split
    · exact (StoreKept.refl s).step
    · have woken : StoreStep s (State.wakeInput { s with power := { s.power with pttLine := true } } .ptt) :=
        wakeInput_step ((StoreKept.refl s).leaf (by rfl) (by rfl)) .ptt
      have pressed : ∀ u : State, StoreKept u u.livePress := fun u =>
        StoreKept.acts ((StoreKept.refl u).leaf (by rfl) (by rfl)) (livePress_acts u)
      split
      · exact (woken.kept (pressed _)).endEvent
      · exact woken
  case pttRelease =>
    simp only [exec, execPttRelease] at he
    cases he
    split
    · have released : ∀ u : State, StoreKept u u.liveRelease := fun u =>
        StoreKept.engines ((StoreKept.refl u).leaf (by rfl) (by rfl)) (liveRelease_engines u)
      have low : StoreStep s { s with power := { s.power with pttLine := false } } := .same rfl rfl
      split
      · exact (low.kept (released _)).endEvent
      · exact low
    · exact (StoreKept.refl s).step
  case ignitionRise =>
    simp only [exec, execIgnitionRise] at he
    cases he
    split
    · exact (StoreKept.refl s).step
    · have woken : StoreStep s (State.wakeInput { s with power := { s.power with ignition := true, offTimer := none } } .ignition) :=
        wakeInput_step ((StoreKept.refl s).leaf (by rfl) (by rfl)) .ignition
      split
      · exact woken.endEvent
      · exact woken
  case ignitionFall =>
    simp only [exec, execIgnitionFall] at he
    cases he
    split
    · split <;> exact .same rfl rfl
    · exact (StoreKept.refl s).step
  case entryPhaseEnd =>
    simp only [exec, execEntryPhaseEnd] at he
    cases he
    split
    · split
      · exact (enterStandby_abandons s).step
      · exact .same rfl rfl
    · exact (StoreKept.refl s).step
  all_goals cases hc

/-- The events of time in the blocks, the polls, and the begin of a write (R118). -/
def passesTime : Instr → Bool
  | .poll _ | .missedReply _ | .pollReply _ | .listenersHoldEnd | .lightRampAdvance _ | .flashPhaseEnd _ | .duckRampAdvance
  | .outputRampAdvance | .noticeMaxWait | .hangTimerExpiry | .streamDelayEnd _ | .segmentTimeEnd _ | .voicePageDue _
  | .fadeEnd _ | .odometerPulse _ | .speedWindow | .positionReport | .writeBegin | .ignitionOffTimer => true
  | _ => false

theorem timed_step {c : Instr} (hc : passesTime c = true) (he : exec c s = .next t) : StoreStep s t := by
  cases c
  case poll | lightRampAdvance | flashPhaseEnd | duckRampAdvance | outputRampAdvance =>
    simp only [exec, execPoll, execLightRampAdvance, execFlashPhaseEnd, execDuckRampAdvance, execOutputRampAdvance] at he
    exact .ofEvent (fun _ => by (repeat' split) <;> exact .same rfl rfl) he
  case noticeMaxWait | hangTimerExpiry =>
    simp only [exec, execNoticeMaxWait, execHangTimerExpiry] at he
    exact .ofDue (fun u => (StoreKept.refl u).engines (select_engines (endActive_engines (.refl u) _))) he
  case streamDelayEnd slot =>
    simp only [exec, execStreamDelayEnd] at he
    exact .ofDue (fun u => (StoreKept.refl u).engines (endDelay_engines (.refl u) slot)) he
  case segmentTimeEnd slot =>
    simp only [exec, execSegmentTimeEnd] at he
    exact .ofDue (fun u => (StoreKept.refl u).engines (finishSegment_engines (.refl u) slot)) he
  case voicePageDue v =>
    simp only [exec, execVoicePageDue] at he
    refine .ofDue (fun u => ?_) he
    split
    · exact (StoreKept.refl u).duePlaying v
    · exact (StoreKept.refl u).dueStopping v
  case fadeEnd v =>
    simp only [exec, execFadeEnd] at he
    exact .ofDue (fun u => (StoreKept.refl u).freed v) he
  case missedReply box =>
    simp only [exec, execMissedReply] at he
    exact .ofDue (fun u => (StoreKept.refl u).missReply box) he
  case pollReply r =>
    simp only [exec, execPollReply] at he
    exact .ofDue (fun u => (StoreKept.refl u).takeReply r) he
  case listenersHoldEnd =>
    simp only [exec, execListenersHoldEnd] at he
    exact .ofDue (fun u => (StoreKept.refl u).endListenersHold) he
  case odometerPulse micros =>
    simp only [exec, execOdometerPulse] at he
    exact .ofEvent (fun _ => ((StoreKept.refl s).pulse _).step) he
  case speedWindow =>
    simp only [exec, execSpeedWindow] at he
    exact .ofDue (fun u => (StoreKept.refl u).endWindow) he
  case positionReport =>
    simp only [exec, execPositionReport] at he
    refine .ofDue (fun u => ?_) he
    have timed : ∀ tr : Tracker, StoreKept u { u with tracker := tr } := fun _ => (StoreKept.refl u).leaf rfl rfl
    exact (timed _).report _
  case writeBegin =>
    simp only [exec, execWriteBegin] at he
    exact .ofDue (fun u => (StoreKept.refl u).shiftWrite _ _) he
  case ignitionOffTimer =>
    simp only [exec, execIgnitionOffTimer] at he
    refine .ofEvent (fun running => ?_) he
    split
    · split
      · exact .same rfl rfl
      · split
        · exact .same rfl rfl
        · exact ((StoreKept.refl s).beginEntry running _).step
    · exact .same rfl rfl
  all_goals cases hc

/-- Every command is a request or one of those above. -/
theorem command_kinds (c : Instr) :
    ((requestOf c).isSome || handsPage c || reportsWrite c || movesPower c || passesTime c) = true := by
  cases c <;> rfl

/-- Everything that a command can do to what the store's invariant reads. -/
theorem exec_storeStep (inv : StoreInv s) {c : Instr} (he : exec c s = .next t) : StoreStep s t := by
  have kinds := command_kinds c
  simp only [Bool.or_eq_true] at kinds
  obtain (((request | page) | write) | power) | timed := kinds
  · exact request_step request he
  · exact arrival_step inv page he
  · exact completion_step write he
  · exact power_step power he
  · exact timed_step timed he

/-- Everything that a step can do to what the store's invariant reads. -/
theorem step_storeStep (inv : StoreInv s) (h : step s = .next t) : StoreStep s t := by
  unfold step at h
  split at h
  · next c rest _ =>
    have inv : StoreInv { s with pending := rest } := ⟨inv.cells, inv.asleep, inv.write, inv.checks⟩
    refine StoreStep.outside (pending := rest) (link := s.link) ?_
    exact exec_storeStep inv h
  · cases h
    unfold State.idle
    split
    · split <;> exact .same rfl rfl
    · exact .same rfl rfl

end
end Sys2Proof.Machine
end

section
/-! OBLIGATION. The store's bytes stay in canonical form and its writes sound; a step changes bytes only in the sector of the
write that runs; the freeze keeps the lock map (R127 to R138, R180). -/

namespace Sys2Proof.Machine

/-! ### The write in flight -/

section
variable {st st' : Store} {w w' : WriteRecord}

theorem isLocked_congr (locked : st'.locked = st.locked) (held : st'.volatileLocks = st.volatileLocks) (sector : Nat) :
    st'.isLocked sector = st.isLocked sector := by
  unfold Store.isLocked
  rw [locked, held]

/-- A write stays sound while its sector is not locked, the lock map not frozen under a lock write, and its target the same. -/
theorem WriteRecord.sound_of (h : w.sound st) (target : w'.target = w.target)
    (unlocked : st.isLocked w.sector = false → st'.isLocked w.sector = false)
    (thawed : w.kind.locks = true → st.freeze = false → st'.freeze = false) : w'.sound st' := by
  obtain ⟨kind, sector, page, phase⟩ := w
  obtain ⟨kind', sector', page', phase'⟩ := w'
  obtain ⟨rfl, rfl, rfl⟩ : kind' = kind ∧ sector' = sector ∧ page' = page := by simpa [WriteRecord.target] using target
  cases kind' with
  | pageProgram data tag =>
    obtain ⟨whole, inside, free, clear⟩ := h
    exact ⟨whole, inside, free, unlocked clear⟩
  | sectorErase =>
    obtain ⟨inside, free, clear⟩ := h
    exact ⟨inside, free, unlocked clear⟩
  | lockProgram target tag =>
    obtain ⟨sector, inside, free⟩ := h
    exact ⟨sector, inside, thawed rfl free⟩
  | lockErase =>
    obtain ⟨sector, free⟩ := h
    exact ⟨sector, thawed rfl free⟩
  | settingsSave record erased => exact h

/-- A sound write that can change the sector of a page or of a clip is none of a locked sector (R128). -/
theorem WriteRecord.unlocked_of_sound (h : w.sound st) (lower : 1 ≤ w.sector) (upper : w.sector ≤ 2046) :
    st.isLocked w.sector = false := by
  unfold WriteRecord.sound at h
  split at h
  · exact h.2.2.2
  · exact h.2.2
  · omega
  · omega
  · omega

/-- What the completion of a write in a sector makes of the store: a run of bytes of the sector is programmed, or the sector is
erased; a lock map under the freeze stays; and the write that follows, if one does, is sound. -/
structure Completed (st st' : Store) (sector : Nat) : Prop where
  cells :
    (∃ a data, sector ≤ 2047 ∧ sector * 262144 ≤ a ∧ a + data.length ≤ (sector + 1) * 262144 ∧
      st'.cells = st.cells.program a data) ∨ st'.cells = st.cells.eraseSector sector
  freeze : st'.freeze = st.freeze
  locked : st.freeze = true → st'.locked = st.locked
  write : ∀ w, st'.write = some w → w.sound st'

/-- The bytes of a page lie in its sector. -/
theorem page_inside {page : Nat} (inside : pageOk page) :
    sectorOf page ≤ 2047 ∧ sectorOf page * 262144 ≤ page * 512 ∧ page * 512 + 512 ≤ (sectorOf page + 1) * 262144 := by
  unfold pageOk at inside
  unfold sectorOf
  omega

/-- The byte of a sector in the lock sector (R133). -/
theorem lockByte_inside {target : Nat} (inside : target ≤ 2047) :
    2047 * 262144 ≤ lastSector * sectorBytes + target ∧ lastSector * sectorBytes + target + 1 ≤ (2047 + 1) * 262144 := by
  unfold lastSector sectorBytes
  omega

theorem finished_completed {kind : WriteKind} {sector : Nat} {page : Option Nat} {phase : WritePhase}
    (h : WriteRecord.sound st ⟨kind, sector, page, phase⟩) (finished : st.finished ⟨kind, sector, page, phase⟩ = some st') :
    Completed st st' sector := by
  cases kind with
  | pageProgram data tag =>
    obtain ⟨whole, ⟨p, rfl, inside, rfl⟩, -⟩ := h
    obtain rfl := Option.some.inj finished
    obtain ⟨top, lower, upper⟩ := page_inside inside
    exact ⟨.inl ⟨p * 512, data, top, lower, whole ▸ upper, rfl⟩, rfl, fun _ => rfl, nofun⟩
  | sectorErase =>
    obtain rfl := Option.some.inj finished
    exact ⟨.inr rfl, rfl, fun _ => rfl, nofun⟩
  | lockProgram target tag =>
    obtain ⟨rfl, inside, thawed⟩ := h
    obtain rfl := Option.some.inj finished
    obtain ⟨lower, upper⟩ := lockByte_inside inside
    exact ⟨.inl ⟨lastSector * sectorBytes + target, [0], Nat.le_refl _, lower, upper, rfl⟩, rfl,
      fun frozen => absurd (thawed.symm.trans frozen) Bool.false_ne_true, nofun⟩
  | lockErase =>
    obtain ⟨rfl, thawed⟩ := h
    obtain rfl := Option.some.inj finished
    exact ⟨.inr rfl, rfl, fun frozen => absurd (thawed.symm.trans frozen) Bool.false_ne_true, nofun⟩
  | settingsSave record erased =>
    obtain ⟨rfl, whole⟩ := h
    cases erased with
    | true =>
      obtain rfl := Option.some.inj finished
      exact ⟨.inl ⟨0 * 512, record, Nat.zero_le _, Nat.zero_le _, by omega, rfl⟩, rfl, fun _ => rfl, nofun⟩
    | false =>
      obtain rfl := Option.some.inj finished
      exact ⟨.inr rfl, rfl, fun _ => rfl, fun w same => by obtain rfl := Option.some.inj same; exact ⟨rfl, whole⟩⟩

theorem Completed.wf {sector : Nat} (h : Completed st st' sector) (wf : st.cells.wf = true) : st'.cells.wf = true := by
  obtain ⟨a, data, inside, -, upper, programmed⟩ | erased := h.cells
  · rw [programmed]
    exact program_wf wf data (by omega)
  · rw [erased]
    exact eraseSector_wf wf sector

/-- A byte outside the sector stays. -/
theorem Completed.reads {sector a : Nat} (h : Completed st st' sector) (wf : st.cells.wf = true) (outside : a / 262144 ≠ sector) :
    st'.cells.read a = st.cells.read a := by
  obtain ⟨b, data, inside, lower, upper, programmed⟩ | erased := h.cells
  · rw [programmed, read_program wf _ _ _ (by omega), if_neg (by omega)]
  · rw [erased, read_eraseSector, show sectorBytes = 262144 from rfl, if_neg outside]

end

/-! ### The invariant (O50) -/

section
variable {s t u : State}

theorem StoreAct.inv (inv : StoreInv s) (act : StoreAct s u) : StoreInv u := by
  cases act with
  | rests => exact inv
  | accepts w running sound =>
    refine ⟨inv.cells, fun asleep => absurd (running.symm.trans asleep) Bool.false_ne_true.symm, fun v same => ?_, inv.checks⟩
    obtain rfl := Option.some.inj same
    exact WriteRecord.sound_of sound rfl id fun _ => id
  | checks page tag data inside whole =>
    refine ⟨inv.cells, inv.asleep, inv.write, fun r member tag' data' use => ?_⟩
    rcases List.mem_append.1 member with waits | posted
    · exact inv.checks r (List.mem_append_left _ waits) tag' data' use
    · rcases List.mem_append.1 posted with waits | new
      · exact inv.checks r (List.mem_append_right _ waits) tag' data' use
      · obtain rfl := List.mem_singleton.1 new
        cases use
        exact ⟨whole, inside⟩
  | holds sectors apart =>
    refine ⟨inv.cells, inv.asleep, fun w write => WriteRecord.sound_of (inv.write w write) rfl (fun free => ?_) fun _ => id, inv.checks⟩
    rw [Bool.eq_false_iff, ne_eq, isLocked_iff] at *
    exact fun held => free (held.imp_right (apart w write))
  | freezes apart =>
    exact ⟨inv.cells, inv.asleep, fun w write => WriteRecord.sound_of (inv.write w write) rfl id fun locks =>
      absurd ((apart w write).symm.trans locks) Bool.false_ne_true, inv.checks⟩
  | finishes w st running write runs finished =>
    have completed := finished_completed (inv.write w write) finished
    exact ⟨completed.wf inv.cells, fun asleep => absurd (running.symm.trans asleep) Bool.false_ne_true.symm, completed.write,
      inv.checks⟩
  | loads locked power starting =>
    have idle : s.store.write = none := inv.asleep (by unfold State.running; rw [starting])
    exact ⟨inv.cells, fun _ => idle, fun w write => absurd (idle.symm.trans write) nofun, inv.checks⟩

theorem StoreKept.inv (inv : StoreInv s) (h : StoreKept s t) : StoreInv t := by
  refine ⟨h.cells ▸ inv.cells, fun asleep => ?_, fun w write => ?_, fun r member tag data use => ?_⟩
  · have idle := inv.asleep (h.running ▸ asleep)
    exact Option.map_eq_none_iff.1 (h.target.trans (Option.map_eq_none_iff.2 idle))
  · have target := h.target
    rw [write] at target
    obtain ⟨v, held, same⟩ := Option.map_eq_some_iff.1 target.symm
    exact WriteRecord.sound_of (inv.write v held) same.symm (fun free => (isLocked_congr h.locked h.volatileLocks _).trans free)
      fun _ thawed => h.freeze.trans thawed
  · exact inv.checks r (h.checks r member (by rw [use]; rfl)) tag data use

theorem Abandoned.inv (inv : StoreInv s) (h : Abandoned s t) : StoreInv t := by
  refine ⟨h.cells ▸ inv.cells, fun _ => h.write, fun w write => absurd (h.write.symm.trans write) nofun,
    fun r member tag data use => ?_⟩
  have plain := h.plain r member
  rw [use] at plain
  cases plain

/-- Settles O50: every step is one of `StoreStep`, whose parts each keep the invariant. -/
theorem storeStaysSound : Obligations.StoreStaysSound := by
  intro s t inv h
  cases step_storeStep inv h with
  | runs act rest => exact rest.inv (act.inv inv)
  | abandons act rest => exact rest.inv (act.inv inv)

/-! ### The bytes (O51) -/

/-- A step that changes a byte completes the write that runs, in its sector. -/
theorem StoreAct.changes {a : Nat} (inv : StoreInv s) (act : StoreAct s u)
    (changed : u.store.cells.read a ≠ s.store.cells.read a) :
    ∃ w, s.store.write = some w ∧ w.phase = .running ∧ a / 262144 = w.sector := by
  cases act with
  | finishes w st running write runs finished =>
    have completed := finished_completed (inv.write w write) finished
    exact ⟨w, write, runs, not_not.1 fun outside => changed (completed.reads inv.cells outside)⟩
  | _ => exact absurd rfl changed

theorem step_changes {a : Nat} (inv : StoreInv s) (h : step s = .next t)
    (changed : t.store.cells.read a ≠ s.store.cells.read a) :
    ∃ w, s.store.write = some w ∧ w.phase = .running ∧ a / 262144 = w.sector := by
  cases step_storeStep inv h with
  | runs act rest => exact act.changes inv (rest.cells ▸ changed)
  | abandons act rest => exact act.changes inv (rest.cells ▸ changed)

/-- Settles O51: bytes change by the write that runs alone (`step_changes`), and that write is none of a locked sector. -/
theorem lockedSectorsKeepTheirBytes : Obligations.LockedSectorsKeepTheirBytes := by
  refine ⟨fun s t a inv h lower upper held => not_not.1 fun changed => ?_, fun s t a => step_changes⟩
  obtain ⟨w, write, -, same⟩ := step_changes inv h changed
  rw [same] at lower upper held
  have free := WriteRecord.unlocked_of_sound (inv.write w write) lower upper
  exact Bool.false_ne_true (free.symm.trans ((isLocked_iff _ _).2 held))

/-! ### The freeze (O52) -/

theorem StoreAct.frozen (inv : StoreInv s) (running : s.running = true) (frozen : s.store.freeze = true) (act : StoreAct s u) :
    u.store.freeze = true ∧ u.store.locked = s.store.locked := by
  cases act with
  | freezes apart => exact ⟨rfl, rfl⟩
  | finishes w st _ write runs finished =>
    have completed := finished_completed (inv.write w write) finished
    exact ⟨completed.freeze.trans frozen, completed.locked frozen⟩
  | loads locked power starting =>
    unfold State.running at running
    rw [starting] at running
    cases running
  | _ => exact ⟨frozen, rfl⟩

/-- Settles O52: in a part that runs the lock map changes by a lock write alone, and none is sound under the freeze. -/
theorem frozenLockMapStays : Obligations.FrozenLockMapStays := by
  intro s t inv running frozen h
  cases step_storeStep inv h with
  | runs act rest =>
    obtain ⟨freeze, locked⟩ := act.frozen inv running frozen
    exact .inl ⟨rest.freeze.trans freeze, rest.locked.trans locked⟩
  | abandons act rest =>
    have asleep := rest.asleep
    unfold State.running at asleep
    split at asleep
    · cases asleep
    · cases asleep
    · next standby => exact .inr (.inr standby)
    · next starting => exact .inr (.inl starting)

end
end Sys2Proof.Machine
end

section
/-! OBLIGATION. POWER_ON (R138, R181). -/

namespace Sys2Proof.Machine

/-- A write that has begun leaves its sector interrupted, and no other write does (R138). -/
theorem mem_cutOff_interrupted {st : Store} {x : Nat} :
    x ∈ st.cutOff.interrupted ↔ x ∈ st.interrupted ∨ ∃ w, st.write = some w ∧ w.begun = true ∧ x = w.sector := by
  unfold Store.cutOff
  cases st.write with
  | none => simp
  | some w => by_cases begun : w.begun = true <;> simp [begun, mem_setAdd]

section
variable {st : Store} {failed : Bool}

/-- A first page that passes its check in a readable sector gives the settings, unless the store reports it unreadable. -/
theorem storedSettings_readable {g : Settings} (readable : 0 ∉ st.interrupted)
    (good : Settings.ofRecord (st.cells.readRun 0 512) = some g) :
    st.storedSettings failed = if failed then none else some g := by
  have clear : st.interrupted.contains 0 = false := by
    rw [Bool.eq_false_iff, ne_eq, List.contains_iff_mem]
    exact readable
  unfold Store.storedSettings
  simp only [good, clear, Bool.or_false]

theorem storedSettings_none (h : 0 ∈ st.interrupted ∨ Settings.ofRecord (st.cells.readRun 0 512) = none) :
    st.storedSettings failed = none := by
  unfold Store.storedSettings
  split
  · next g good =>
    have interrupted := h.resolve_right (good ▸ nofun)
    rw [if_pos (by rw [List.contains_iff_mem.2 interrupted, Bool.or_true])]
  · rfl

end

/-- A POWER_ON start-up takes the settings that the cut-off store holds, or the defaults, and says which (R181). -/
theorem powerOn_settles {s : State} {stored : Option Settings}
    (h : s.store.cutOff.storedSettings (Config.settingsReadFails s.freeSerial) = stored) :
    (s.beginStartUp .powerOn {}).settings = stored.getD {} ∧
      (s.beginStartUp .powerOn {}).power.defaulted = stored.isNone := by
  have settled : State.settleSettings { s with store := s.store.cutOff } .powerOn = (stored.getD {}, stored.isNone) := by
    unfold State.settleSettings
    simp only [h]
    cases stored <;> rfl
  exact ⟨congrArg Prod.fst settled, congrArg Prod.snd settled⟩

/-- Settles O7: what a start-up abandons by `State.abandon`, the interrupted sectors by `mem_cutOff_interrupted`, the settings by
what the cut-off store holds of them. -/
theorem powerOnBeginsStartUp : Obligations.PowerOnBeginsStartUp := by
  intro s
  have cells := cutOff_cells s.store
  refine ⟨_, rfl, rfl, rfl, rfl, rfl, rfl, cells, rfl, fun x => mem_cutOff_interrupted, fun readable g good => ?_,
    fun lost => ?_, rfl, rfl, rfl, rfl, rfl, rfl, rfl, rfl, rfl⟩
  · have stored := powerOn_settles (storedSettings_readable (failed := Config.settingsReadFails s.freeSerial)
      (st := s.store.cutOff) readable (cells ▸ good))
    cases fails : Config.settingsReadFails s.freeSerial <;> rwa [fails] at stored
  · exact powerOn_settles (storedSettings_none (st := s.store.cutOff) (cells ▸ lost))

end Sys2Proof.Machine
end

section
/-! SUPPORT. The completion of an erase, and the end of a write that sends a report (R131, R135, R175). -/

namespace Sys2Proof.Machine

section
variable {s : State} {w : WriteRecord}

theorem runningWrite_of (write : s.store.write = some w) (runs : w.phase = .running) : s.store.runningWrite = some w :=
  runningWrite_eq_some.2 ⟨write, runs⟩

/-- While the entry phase is not over, the end of a write that reports is the end of its event, with the report in the queue if
there is room. -/
theorem writeDone_report {store : Store} {r : Clock → Report} (before : s.power.phaseOver = false)
    (told : (r s.clock).isPosition = false) :
    EventFrame { s with store := store.writeEnds } (s.writeDone store fun u => u.report (r u.clock)) ∧
      (s.link.reports.length < 16 → (s.writeDone store fun u => u.report (r u.clock)).holdsReport (r s.clock)) := by
  have frame := report_frame_end { s with store := store.writeEnds } (r s.clock)
  have ends : (s.writeDone store fun u => u.report (r u.clock)) =
      (State.report { s with store := store.writeEnds } (r s.clock)).endEvent :=
    afterWrite_before (by rw [frame.power]; exact before)
  rw [ends]
  exact ⟨frame, fun room => (endEvent_frame _).reports _ told (report_holds { s with store := store.writeEnds } _ room)⟩

/-- Every byte of the erased sector reads 0xFF, and no other byte changes (07, opening). -/
theorem read_eraseDone {st : Store} (sector a : Nat) :
    (st.eraseDone sector).cells.read a = if a / 262144 = sector then 0xFF else st.cells.read a :=
  read_eraseSector st.cells sector a

end
end Sys2Proof.Machine
end

section
/-! OBLIGATION. STORE_ERASE (R131, R138). -/

namespace Sys2Proof.Machine

section
variable {s : State} {tag : Byte} {sector : Nat}

/-! ### The request -/

theorem eraseCheck_refused {code : ResultCode} (h : s.writeCheck sector 2047 sector = some code) :
    s.eraseCheck sector = some code := by
  unfold State.eraseCheck
  rw [show s.writeCheck sector lastSector sector = some code from h]

theorem eraseCheck_passed (h : s.writeCheck sector 2047 sector = none) :
    s.eraseCheck sector = if s.store.write.isSome then some .storeBusy else none := by
  unfold State.eraseCheck
  rw [show s.writeCheck sector lastSector sector = none from h]

theorem storeErase_checked (h : s.takes 0x34 tag) :
    ∃ t, exec (.storeErase tag sector) s = .next t ∧
      (∀ code, s.eraseCheck sector = some code → EventFrame s t ∧ s.answered t 0x34 tag code) ∧
      (s.eraseCheck sector = none →
        EventFrame (s.acceptWrite .sectorErase sector none) t ∧ s.answered t 0x34 tag .accepted) := by
  refine ⟨_, command_next h _, fun code refused => ?_, fun passed => ?_⟩
  · rw [show (s.taken 0x34 tag).eraseCheck sector = some code from refused]
    exact command_answered rfl rfl
  · rw [show (s.taken 0x34 tag).eraseCheck sector = none from passed]
    exact command_answered rfl rfl

/-! ### The erase ends -/

theorem sectorEraseComplete_next {w : WriteRecord} (running : s.running = true) (write : s.store.write = some w)
    (runs : w.phase = .running) (erase : w.kind = .sectorErase) :
    exec .sectorEraseComplete s =
      .next (s.writeDone (s.store.eraseDone w.sector) fun u => u.report (.storeDone false w.sector u.clock)) := by
  have held := runningWrite_of write runs
  obtain ⟨kind, sector, page, phase⟩ := w
  subst erase
  simp only [exec, execSectorEraseComplete, running, if_true, held]

end

/-- Settles O47: the request by the checks of R129 and the write in flight, the end by what an erased sector reads as. -/
theorem sectorErased : Obligations.SectorErased := by
  refine ⟨fun tag sector s h => ?_, fun w s running before write runs erase => ?_⟩
  · obtain ⟨t, next, refused, accepted⟩ := storeErase_checked (sector := sector) h
    have checked : ∀ code, s.writeCheck sector 2047 sector = some code → EventFrame s t ∧ s.answered t 0x34 tag code :=
      fun code check => refused code (eraseCheck_refused check)
    refine ⟨t, next, fun run => checked _ (writeCheck_run run), fun service beyond => checked _ (writeCheck_range service beyond),
      fun service within reloading => checked _ (writeCheck_busy service within reloading), fun service within settled =>
      ⟨fun held => checked _ (writeCheck_protected service within settled held), fun lower upper unlocked unheld => ?_⟩⟩
    have check := writeCheck_unprotected service within settled lower upper unlocked unheld
    have passed : s.inUse sector = false → s.writeCheck sector 2047 sector = none := fun unused =>
      check.trans (if_neg (Bool.eq_false_iff.1 unused))
    refine ⟨fun used => checked _ (check.trans (if_pos used)), fun unused busy => refused _ ?_, fun unused idle => ?_⟩
    · rw [eraseCheck_passed (passed unused), if_pos (Option.isSome_iff_ne_none.2 busy)]
    · exact (accepted (by rw [eraseCheck_passed (passed unused), idle]; rfl)).symm
  · obtain ⟨frame, told⟩ := writeDone_report (store := s.store.eraseDone w.sector) (r := .storeDone false w.sector) before rfl
    have cells := frame.cells
    refine ⟨_, sectorEraseComplete_next running write runs erase, ?_, told, fun a => ?_⟩
    · rw [cells]; exact frame
    · rw [cells]; exact read_eraseDone w.sector a

end Sys2Proof.Machine
end

section
/-! OBLIGATION. Sector locks (R132 to R136). -/

namespace Sys2Proof.Machine

@[simp] theorem taken_store (s : State) (kind : Nat) (tag : Byte) : (s.taken kind tag).store = s.store := rfl

/-! ### The checks of every SECTOR_LOCK (R133, R134) -/

section
variable {sector : Nat}

theorem lockCheck_range (h : 2047 < sector) : lockCheck sector = some .range := if_pos h

theorem lockCheck_protected (h : sector = 0 ∨ sector = 2047) : lockCheck sector = some .sectorProtected := by
  unfold lockCheck
  rw [if_neg (show ¬lastSector < sector by unfold lastSector; omega), if_pos ((reserved_iff sector).2 h)]

theorem lockCheck_passes (lower : 0 < sector) (upper : sector < 2047) : lockCheck sector = none := by
  unfold lockCheck
  rw [if_neg (show ¬lastSector < sector by unfold lastSector; omega),
    if_neg (mt (reserved_iff sector).1 (by omega))]

end

/-! ### Persistent locks (R133) -/

section
variable {s : State} {tag : Byte} {sector : Nat}

theorem contains_eq_false {l : List Nat} {x : Nat} (h : x ∉ l) : l.contains x = false := by
  rw [Bool.eq_false_iff, ne_eq, List.contains_iff_mem]
  exact h

/-- A LOCK_PERSISTENT by its checks. -/
theorem lockPersistent_answers (h : s.takes 0x36 tag) (known : Bool) :
    ∃ t, exec (.lockPersistent tag known sector) s = .next t ∧
      (known = false → EventFrame s t ∧ s.answered t 0x36 tag .range) ∧
      (known = true → ∀ code, lockCheck sector = some code → EventFrame s t ∧ s.answered t 0x36 tag code) ∧
      (known = true → lockCheck sector = none →
        (s.store.freeze = true → EventFrame s t ∧ s.answered t 0x36 tag .frozen) ∧
        (s.store.freeze = false →
          (sector ∈ s.store.locked → EventFrame s t ∧ s.answered t 0x36 tag .ok) ∧
          (sector ∉ s.store.locked → s.store.write ≠ none → EventFrame s t ∧ s.answered t 0x36 tag .storeBusy) ∧
          (sector ∉ s.store.locked → s.store.write = none →
            EventFrame (s.acceptWrite (.lockProgram sector tag) 2047 (some (1048064 + sector / 512))) t))) := by
  refine ⟨_, command_next h _, fun unknown => ?_, fun known code refused => ?_, fun known passed =>
    ⟨fun frozen => ?_, fun thawed => ⟨fun held => ?_, fun free busy => ?_, fun free idle => ?_⟩⟩⟩
  · rw [if_pos unknown]
    exact command_answered rfl rfl
  · simp only [known, refused, reduceCtorEq, if_false]
    exact command_answered rfl rfl
  · simp only [known, passed, taken_store, frozen, reduceCtorEq, if_false, if_true]
    exact command_answered rfl rfl
  · simp only [known, passed, taken_store, thawed, List.contains_iff_mem.2 held, reduceCtorEq, if_false, if_true]
    exact command_answered rfl rfl
  · simp only [known, passed, taken_store, thawed, contains_eq_false free, Option.isSome_iff_ne_none.2 busy, reduceCtorEq,
      if_false, if_true]
    exact command_answered rfl rfl
  · simp only [known, passed, taken_store, thawed, contains_eq_false free, idle, Option.isSome_none, reduceCtorEq, if_false]
    exact command_frame rfl rfl

theorem lockProgramComplete_next {w : WriteRecord} {target : Nat} (running : s.running = true)
    (write : s.store.write = some w) (runs : w.phase = .running) (locks : w.kind = .lockProgram target tag) :
    exec .lockProgramComplete s = .next (s.writeDone (s.store.lockDone target) fun u => u.reply 0x36 tag .ok) := by
  have held := runningWrite_of write runs
  obtain ⟨kind, sector, page, phase⟩ := w
  subst locks
  simp only [exec, execLockProgramComplete, running, if_true, held]

/-- The byte of the locked sector reads 0x00, and no other byte changes. -/
theorem read_lockDone {target a : Nat} (wf : s.store.cells.wf = true) (inside : target ≤ 2047) :
    (s.store.lockDone target).cells.read a = if a = 2047 * 262144 + target then 0 else s.store.cells.read a := by
  have address : lastSector * sectorBytes + target = 2047 * 262144 + target := rfl
  unfold Store.lockDone
  rw [address, read_program wf _ _ _ (by simp only [List.length_singleton]; omega), List.length_singleton]
  by_cases same : a = 2047 * 262144 + target
  · rw [if_pos (by omega), if_pos same, same, Nat.sub_self]
    exact BitVec.and_zero
  · rw [if_neg (by omega), if_neg same]

/-! ### The lock sector erased (R135) -/

theorem unlockAll_answers (h : s.takes 0x37 tag) :
    ∃ t, exec (.unlockAll tag) s = .next t ∧
      (s.store.freeze = true → EventFrame s t ∧ s.answered t 0x37 tag .frozen) ∧
      (s.store.freeze = false → s.store.write ≠ none → EventFrame s t ∧ s.answered t 0x37 tag .storeBusy) ∧
      (s.store.freeze = false → s.store.write = none →
        EventFrame (s.acceptWrite .lockErase 2047 none) t ∧ s.answered t 0x37 tag .accepted) := by
  refine ⟨_, command_next h _, fun frozen => ?_, fun thawed busy => ?_, fun thawed idle => ?_⟩
  · simp only [taken_store, frozen, if_true]
    exact command_answered rfl rfl
  · simp only [taken_store, thawed, Option.isSome_iff_ne_none.2 busy, reduceCtorEq, if_false, if_true]
    exact command_answered rfl rfl
  · simp only [taken_store, thawed, idle, Option.isSome_none, reduceCtorEq, if_false]
    exact command_answered rfl rfl

theorem lockEraseComplete_next {w : WriteRecord} (running : s.running = true) (write : s.store.write = some w)
    (runs : w.phase = .running) (erase : w.kind = .lockErase) :
    exec .lockEraseComplete s =
      .next (s.writeDone s.store.unlockDone fun u => u.report (.storeDone true lastSector u.clock)) := by
  have held := runningWrite_of write runs
  obtain ⟨kind, sector, page, phase⟩ := w
  subst erase
  simp only [exec, execLockEraseComplete, running, if_true, held]

/-! ### Volatile locks, lockdowns and the freeze (R134, R136) -/

/-- A request that changes one list of the store leads to a store with that list. -/
theorem onlyRepliesBut_store {u t : State} (h : s.onlyRepliesBut u t) : t.store = u.store := by
  rw [h.1]

theorem volatileOn_answers (h : s.takes 0x36 tag) :
    ∃ t, exec (.volatileOn tag sector) s = .next t ∧
      (∀ code, lockCheck sector = some code → s.onlyReplies t ∧ s.answered t 0x36 tag code) ∧
      (lockCheck sector = none → sector ∈ s.store.lockdowns → s.onlyReplies t ∧ s.answered t 0x36 tag .lockedDown) ∧
      (lockCheck sector = none → sector ∉ s.store.lockdowns →
        ((∃ w, s.store.write = some w ∧ w.sector = sector) → s.onlyReplies t ∧ s.answered t 0x36 tag .storeBusy) ∧
        ((∀ w, s.store.write = some w → w.sector ≠ sector) →
          s.onlyRepliesBut
            { s with store := { s.store with volatileLocks := setAdd s.store.volatileLocks sector } } t ∧
            s.answered t 0x36 tag .ok)) := by
  refine ⟨_, query_next h _, fun code refused => ?_, fun passed down => ?_, fun passed up =>
    ⟨fun ⟨w, write, same⟩ => ?_, fun apart => ?_⟩⟩
  · simp only [refused]
    exact query_answered rfl
  · simp only [passed, taken_store, List.contains_iff_mem.2 down, if_true]
    exact query_answered rfl
  · simp only [passed, taken_store, contains_eq_false up, write, Option.any_some, same, decide_true, reduceCtorEq, if_false,
      if_true]
    exact query_answered rfl
  · have idle : (s.store.write.any fun w : WriteRecord => decide (w.sector = sector)) = false :=
      (Option.any_eq_false _ _).2 fun w held => decide_eq_false (apart w held)
    simp only [passed, taken_store, contains_eq_false up, idle, reduceCtorEq, if_false]
    exact query_answered rfl

theorem volatileOff_answers (h : s.takes 0x36 tag) :
    ∃ t, exec (.volatileOff tag sector) s = .next t ∧
      (∀ code, lockCheck sector = some code → s.onlyReplies t ∧ s.answered t 0x36 tag code) ∧
      (lockCheck sector = none → sector ∈ s.store.lockdowns → s.onlyReplies t ∧ s.answered t 0x36 tag .lockedDown) ∧
      (lockCheck sector = none → sector ∉ s.store.lockdowns →
        s.onlyRepliesBut
          { s with store := { s.store with volatileLocks := setRemove s.store.volatileLocks sector } } t ∧
          s.answered t 0x36 tag .ok) := by
  refine ⟨_, query_next h _, fun code refused => ?_, fun passed down => ?_, fun passed up => ?_⟩
  · simp only [refused]
    exact query_answered rfl
  · simp only [passed, taken_store, List.contains_iff_mem.2 down, if_true]
    exact query_answered rfl
  · simp only [passed, taken_store, contains_eq_false up, reduceCtorEq, if_false]
    exact query_answered rfl

theorem lockdown_answers (h : s.takes 0x36 tag) :
    ∃ t, exec (.lockdown tag sector) s = .next t ∧
      (∀ code, lockCheck sector = some code → s.onlyReplies t ∧ s.answered t 0x36 tag code) ∧
      (lockCheck sector = none →
        s.onlyRepliesBut { s with store := { s.store with lockdowns := setAdd s.store.lockdowns sector } } t ∧
          s.answered t 0x36 tag .ok) := by
  refine ⟨_, query_next h _, fun code refused => ?_, fun passed => ?_⟩
  · simp only [refused]
    exact query_answered rfl
  · simp only [passed]
    exact query_answered rfl

theorem locks_iff (kind : WriteKind) : kind.locks = true ↔ kind = .lockErase ∨ ∃ x y, kind = .lockProgram x y := by
  cases kind <;> simp [WriteKind.locks]

theorem freezeLocks_answers (h : s.takes 0x38 tag) :
    ∃ t, exec (.freezeLocks tag) s = .next t ∧
      ((∃ w, s.store.write = some w ∧ w.kind.locks = true) → s.onlyReplies t ∧ s.answered t 0x38 tag .storeBusy) ∧
      ((∀ w, s.store.write = some w → w.kind.locks = false) →
        s.onlyRepliesBut { s with store := { s.store with freeze := true } } t ∧ s.answered t 0x38 tag .ok) := by
  refine ⟨_, query_next h _, fun ⟨w, write, locks⟩ => ?_, fun apart => ?_⟩
  · simp only [taken_store, write, Option.any_some, locks, if_true]
    exact query_answered rfl
  · have idle : (s.store.write.any fun w : WriteRecord => w.kind.locks) = false := (Option.any_eq_false _ _).2 apart
    simp only [taken_store, idle, reduceCtorEq, if_false]
    exact query_answered rfl

end

/-! ### The clauses of the statement -/

section
variable {s : State} {tag : Byte} {sector : Nat}

/-- The bytes and the map after a lock program. -/
theorem lockProgram_settles {w : WriteRecord} {target : Nat} (running : s.running = true) (before : s.power.phaseOver = false)
    (inv : StoreInv s) (write : s.store.write = some w) (runs : w.phase = .running)
    (locks : w.kind = .lockProgram target tag) :
    ∃ t, exec .lockProgramComplete s = .next t ∧
      EventFrame { s with store := { s.store with write := none, cells := t.store.cells, locked := t.store.locked } } t ∧
      s.answered t 0x36 tag .ok ∧ (∀ x, x ∈ t.store.locked ↔ x ∈ s.store.locked ∨ x = target) ∧
      ∀ a, t.store.cells.read a = if a = 2047 * 262144 + target then 0 else s.store.cells.read a := by
  have sound := inv.write w write
  unfold WriteRecord.sound at sound
  rw [locks] at sound
  obtain ⟨_, inside, _⟩ := sound
  obtain ⟨frame, answered⟩ :=
    writeDone_reply (store := s.store.lockDone target) (kind := 0x36) (tag := tag) (code := .ok) (data := .none) before
  have cells := frame.cells
  have map := congrArg Store.locked frame.store
  refine ⟨_, lockProgramComplete_next running write runs locks, ?_, answered, fun x => ?_, fun a => ?_⟩
  · rw [cells, map]; exact frame
  · rw [map]; exact mem_setAdd
  · rw [cells]; exact read_lockDone inv.cells inside

/-- The bytes and the map after the erase of the lock sector. -/
theorem lockErase_settles {w : WriteRecord} (running : s.running = true) (before : s.power.phaseOver = false)
    (write : s.store.write = some w) (runs : w.phase = .running) (erase : w.kind = .lockErase) :
    ∃ t, exec .lockEraseComplete s = .next t ∧
      EventFrame
        { s with
          store := { s.store with
            write := none, cells := t.store.cells, locked := [], lockFaults := Table.fill 4 false
            interrupted := s.store.interrupted.filter (· ≠ 2047) } } t ∧
      (s.link.reports.length < 16 → t.holdsReport (.storeDone true 2047 s.clock)) ∧
      ∀ a, t.store.cells.read a = if a / 262144 = 2047 then 0xFF else s.store.cells.read a := by
  obtain ⟨frame, told⟩ := writeDone_report (store := s.store.unlockDone) (r := .storeDone true lastSector) before rfl
  have cells := frame.cells
  refine ⟨_, lockEraseComplete_next running write runs erase, ?_, told, fun a => ?_⟩
  · rw [cells]; exact frame
  · rw [cells]; exact read_eraseDone 2047 a

/-- The checks of R134 come before everything else, whatever the kind of lock. -/
theorem lockRequest_checked (h : s.takes 0x36 tag) :
    ∀ c ∈ [Instr.volatileOn tag sector, Instr.volatileOff tag sector, Instr.lockdown tag sector],
      ∃ t, exec c s = .next t ∧
        ∀ code, lockCheck sector = some code → s.onlyReplies t ∧ s.answered t 0x36 tag code := by
  have on := volatileOn_answers (sector := sector) h
  have off := volatileOff_answers (sector := sector) h
  have down := lockdown_answers (sector := sector) h
  intro c kind
  simp only [List.mem_cons, List.not_mem_nil, or_false] at kind
  obtain rfl | rfl | rfl := kind
  · exact on.imp fun t ⟨next, checked, _⟩ => ⟨next, checked⟩
  · exact off.imp fun t ⟨next, checked, _⟩ => ⟨next, checked⟩
  · exact down.imp fun t ⟨next, checked, _⟩ => ⟨next, checked⟩

/-- A lockdown refuses both kinds of volatile request. -/
theorem volatile_lockedDown (h : s.takes 0x36 tag) (passed : lockCheck sector = none) (down : sector ∈ s.store.lockdowns) :
    ∀ c ∈ [Instr.volatileOn tag sector, Instr.volatileOff tag sector],
      ∃ t, exec c s = .next t ∧ s.onlyReplies t ∧ s.answered t 0x36 tag .lockedDown := by
  have on := volatileOn_answers (sector := sector) h
  have off := volatileOff_answers (sector := sector) h
  intro c kind
  simp only [List.mem_cons, List.not_mem_nil, or_false] at kind
  obtain rfl | rfl := kind
  · exact on.imp fun t ⟨next, _, refused, _⟩ => ⟨next, refused passed down⟩
  · exact off.imp fun t ⟨next, _, refused, _⟩ => ⟨next, refused passed down⟩

theorem volatileOn_settles (h : s.takes 0x36 tag) (passed : lockCheck sector = none) (up : sector ∉ s.store.lockdowns) :
    ∃ t, exec (.volatileOn tag sector) s = .next t ∧
      ((∃ w, s.store.write = some w ∧ w.sector = sector) → s.onlyReplies t ∧ s.answered t 0x36 tag .storeBusy) ∧
      ((∀ w, s.store.write = some w → w.sector ≠ sector) →
        s.answered t 0x36 tag .ok ∧
        s.onlyRepliesBut { s with store := { s.store with volatileLocks := t.store.volatileLocks } } t ∧
        ∀ x, x ∈ t.store.volatileLocks ↔ x ∈ s.store.volatileLocks ∨ x = sector) := by
  obtain ⟨t, next, _, _, rest⟩ := volatileOn_answers (sector := sector) h
  obtain ⟨busy, set⟩ := rest passed up
  refine ⟨t, next, busy, fun apart => ?_⟩
  obtain ⟨only, answered⟩ := set apart
  have locks := congrArg Store.volatileLocks (onlyRepliesBut_store only)
  refine ⟨answered, ?_, fun x => ?_⟩
  · rw [locks]; exact only
  · rw [locks]; exact mem_setAdd

theorem volatileOff_settles (h : s.takes 0x36 tag) (passed : lockCheck sector = none) (up : sector ∉ s.store.lockdowns) :
    ∃ t, exec (.volatileOff tag sector) s = .next t ∧ s.answered t 0x36 tag .ok ∧
      s.onlyRepliesBut { s with store := { s.store with volatileLocks := t.store.volatileLocks } } t ∧
      ∀ x, x ∈ t.store.volatileLocks ↔ x ∈ s.store.volatileLocks ∧ x ≠ sector := by
  obtain ⟨t, next, _, _, cleared⟩ := volatileOff_answers (sector := sector) h
  obtain ⟨only, answered⟩ := cleared passed up
  have locks := congrArg Store.volatileLocks (onlyRepliesBut_store only)
  refine ⟨t, next, answered, ?_, fun x => ?_⟩
  · rw [locks]; exact only
  · rw [locks]; exact mem_setRemove

theorem lockdown_settles (h : s.takes 0x36 tag) (passed : lockCheck sector = none) :
    ∃ t, exec (.lockdown tag sector) s = .next t ∧ s.answered t 0x36 tag .ok ∧
      s.onlyRepliesBut { s with store := { s.store with lockdowns := t.store.lockdowns } } t ∧
      ∀ x, x ∈ t.store.lockdowns ↔ x ∈ s.store.lockdowns ∨ x = sector := by
  obtain ⟨t, next, _, set⟩ := lockdown_answers (sector := sector) h
  obtain ⟨only, answered⟩ := set passed
  have downs := congrArg Store.lockdowns (onlyRepliesBut_store only)
  refine ⟨t, next, answered, ?_, fun x => ?_⟩
  · rw [downs]; exact only
  · rw [downs]; exact mem_setAdd

end

/-- Settles O48: each request by its checks, each completion by what the lock sector's bytes then read as. -/
theorem sectorLocks : Obligations.SectorLocks := by
  refine ⟨⟨fun tag known sector s h => ?_, fun w target tag s => lockProgram_settles, fun tag s h => ?_,
    fun w s => lockErase_settles⟩, fun tag sector s h => ⟨fun c kind => ?_, fun lower upper => ?_⟩, fun tag s h => ?_⟩
  · obtain ⟨t, next, unknown, refused, passed⟩ := lockPersistent_answers (sector := sector) h known
    refine ⟨t, next, fun beyond => ?_, fun known edge => refused known _ (lockCheck_protected edge),
      fun known lower upper => passed known (lockCheck_passes lower upper)⟩
    cases known with
    | false => exact unknown rfl
    | true => exact refused rfl _ (lockCheck_range (beyond.resolve_left nofun))
  · obtain ⟨t, next, frozen, busy, accepted⟩ := unlockAll_answers h
    exact ⟨t, next, frozen, busy, fun thawed idle => (accepted thawed idle).symm⟩
  · obtain ⟨t, next, refused⟩ := lockRequest_checked h c kind
    exact ⟨t, next, fun beyond => refused _ (lockCheck_range beyond), fun edge => refused _ (lockCheck_protected edge)⟩
  · have passed := lockCheck_passes lower upper
    exact ⟨volatile_lockedDown h passed, fun up => ⟨volatileOn_settles h passed up, volatileOff_settles h passed up⟩,
      lockdown_settles h passed⟩
  · obtain ⟨t, next, busy, free⟩ := freezeLocks_answers h
    refine ⟨t, next, fun ⟨w, write, locks⟩ => busy ⟨w, write, (locks_iff _).2 locks⟩, fun apart => (free fun w write => ?_).symm⟩
    rw [Bool.eq_false_iff, ne_eq, locks_iff]
    rintro (erase | ⟨x, y, program⟩)
    · exact (apart w write).1 erase
    · exact (apart w write).2 x y program

end Sys2Proof.Machine
end

section
/-! SUPPORT. The record of the settings reads back as the settings (12 sections 12.4 and 12.6). -/

namespace Sys2Proof.Machine

/-! ### Numbers and blocks of bytes -/

/-- A number written after others is their continuation in base 256. -/
theorem foldl_beBytes (w n start : Nat) :
    (beBytes w n).foldl (fun m b => m * 256 + b.toNat) start = start * 256 ^ w + n % 256 ^ w := by
  induction w generalizing start with
  | zero => simp [beBytes, Nat.mod_one]
  | succ w ih =>
    rw [beBytes, List.foldl_cons, ih, BitVec.toNat_ofNat, Nat.mod_pow_succ (x := n), show 2 ^ 8 = 256 from rfl]
    generalize n / 256 ^ w % 256 = digit
    ring

theorem beNat_beBytes {w n : Nat} (small : n < 256 ^ w) : beNat (beBytes w n) = n := by
  unfold beNat
  rw [foldl_beBytes, Nat.zero_mul, Nat.zero_add, Nat.mod_eq_of_lt small]

/-- A block of a list of equal blocks. -/
theorem take_drop_flatMap {α : Type} {f : α → List Byte} {w : Nat} (width : ∀ a, (f a).length = w) (l : List α) {i : Nat}
    (inside : i < l.length) : ((l.flatMap f).drop (w * i)).take w = f l[i] := by
  induction l generalizing i with
  | nil => exact absurd inside (Nat.not_lt_zero i)
  | cons a rest ih =>
    rw [List.flatMap_cons]
    cases i with
    | zero => exact List.take_left' (width a)
    | succ i =>
      have past : w * (i + 1) = (f a).length + w * i := by rw [width]; ring
      rw [past, List.drop_length_add_append]
      exact ih (Nat.lt_of_succ_lt_succ inside)

/-- A field within a block. -/
theorem field_of_block {bytes block : List Byte} {start w offset size : Nat} (held : (bytes.drop start).take w = block)
    (inside : offset + size ≤ w) : field bytes (start + offset) size = field block offset size := by
  unfold field
  rw [← held, List.drop_take, List.take_take, List.drop_drop, Nat.min_eq_left (by omega)]

/-- Numbers written in one width are read back one by one. -/
theorem field_numbers {w : Nat} (l : List Nat) (small : ∀ n ∈ l, n < 256 ^ w) {i : Nat} (inside : i < l.length) :
    field (l.flatMap (beBytes w)) (w * i) w = l[i] := by
  unfold field
  rw [take_drop_flatMap (beBytes_length w) l inside, beNat_beBytes (small _ (List.getElem_mem inside))]

/-! ### The parts of values -/

theorem inRange_beBytes {w n lo hi : Nat} (fits : hi < 256 ^ w) (range : lo ≤ n ∧ n ≤ hi) :
    inRange (beNat (beBytes w n)) lo hi = some n := by
  rw [beNat_beBytes (range.2.trans_lt fits)]
  exact if_pos range

theorem asFin_beBytes {w k : Nat} (fits : k ≤ 256 ^ w) (x : Fin k) : asFin k (beNat (beBytes w x)) = some x := by
  rw [beNat_beBytes (x.isLt.trans_le fits), asFin_val]

theorem boolOfCode_toNat (b : Bool) : boolOfCode b.toNat = some b := by cases b <;> rfl

theorem bankRate_ofCode_code (r : BankRate) : BankRate.ofCode r.code = some r := by cases r <;> rfl

theorem driverMode_ofCode_code (m : DriverMode) : DriverMode.ofCode m.code = some m := by cases m <;> rfl

theorem linkRate_ofCode_code (r : LinkRate) : LinkRate.ofCode r.code = some r := by cases r <;> rfl

/-- Two numbers of one byte each. -/
theorem field_pair {m n : Nat} (first : m < 256) (second : n < 256) :
    field (beBytes 1 m ++ beBytes 1 n) 0 1 = m ∧ field (beBytes 1 m ++ beBytes 1 n) 1 1 = n := by
  have small : ∀ x ∈ [m, n], x < 256 ^ 1 := by simp [first, second]
  exact ⟨field_numbers (i := 0) [m, n] small (by simp), field_numbers (i := 1) [m, n] small (by simp)⟩

section
variable {α : Type} {n : Nat}

/-- Record `i` of a table of numbers stands in block `i`. -/
theorem field_table (t : Table α n) (f : α → Nat) {w : Nat} (small : ∀ i, f (t.get i) < 256 ^ w) (i : Fin n) :
    field (t.list.flatMap fun a => beBytes w (f a)) (w * i) w = f (t.get i) := by
  have inside : i.val < (t.list.map f).length := by rw [List.length_map, t.size]; exact i.isLt
  have all : ∀ x ∈ t.list.map f, x < 256 ^ w := by
    intro x member
    obtain ⟨j, bound, rfl⟩ := List.getElem_of_mem member
    rw [List.getElem_map]
    exact small ⟨j, by rw [List.length_map, t.size] at bound; exact bound⟩
  have read := field_numbers (t.list.map f) all inside
  rwa [List.flatMap_map, List.getElem_map] at read

theorem ofFn_eq {t : Table α n} {f : Fin n → α} (h : ∀ i, f i = t.get i) : Table.ofFn f = t :=
  Table.ext_get fun i => (Table.get_ofFn f i).trans (h i)

end

theorem readTag_self (tag : Option LanguageTag) : readTag (tagBytes tag) 0 = some tag := by
  rcases tag with _ | ⟨a, b⟩
  · rfl
  · obtain ⟨first, second⟩ := field_pair (m := a.val + 65) (n := b.val + 65) (by omega) (by omega)
    have letters : tagBytes (some ⟨a, b⟩) = beBytes 1 (a.val + 65) ++ beBytes 1 (b.val + 65) := by simp [tagBytes, beBytes]
    unfold readTag
    simp only [letters, Nat.mul_zero, Nat.zero_add, first, second]
    rw [if_neg (by omega), dif_pos (by omega)]
    rfl

/-- A tag is read back from its place in the list of tags. -/
theorem readTag_tagBytes (t : Table (Option LanguageTag) 12) (i : Fin 12) :
    readTag (t.list.flatMap tagBytes) i = some (t.get i) := by
  have width : ∀ tag, (tagBytes tag).length = 2 := fun tag => by cases tag <;> rfl
  have block := take_drop_flatMap width t.list (i := i) (by rw [t.size]; exact i.isLt)
  have first := field_of_block (offset := 0) (size := 1) block (by decide)
  have second := field_of_block (offset := 1) (size := 1) block (by decide)
  change field _ (2 * i) 1 = field (tagBytes (t.get i)) (2 * 0) 1 at first
  change field _ (2 * i + 1) 1 = field (tagBytes (t.get i)) (2 * 0 + 1) 1 at second
  rw [← readTag_self (t.get i)]
  unfold readTag
  simp only [first, second]

/-! ### Each setting -/

/-- The settings with setting `id` taken from others (11 Table 11-2). -/
def Settings.adopt (g h : Settings) : Nat → Settings
  | 1 => { g with pulseLength := h.pulseLength }
  | 2 => { g with pulseSpacing := h.pulseSpacing }
  | 3 => { g with slewLimit := h.slewLimit }
  | 4 => { g with rearmDistance := h.rearmDistance }
  | 5 => { g with maxLead := h.maxLead }
  | 6 => { g with crawlSpeed := h.crawlSpeed }
  | 7 => { g with resumeLimit := h.resumeLimit }
  | 8 => { g with resumeRewind := h.resumeRewind }
  | 9 => { g with languageTags := h.languageTags }
  | 10 => { g with defaultSlot := h.defaultSlot }
  | 11 => { g with speakerSlot := h.speakerSlot }
  | 12 => { g with defaultVolume := h.defaultVolume }
  | 13 => { g with warningFloor := h.warningFloor }
  | 14 => { g with duckDepth := h.duckDepth }
  | 15 => { g with precedenceCode := h.precedenceCode }
  | 16 => { g with stopChime := h.stopChime, noticeChime := h.noticeChime, warningChime := h.warningChime }
  | 17 => { g with liveHang := h.liveHang }
  | 18 => { g with positionPeriod := h.positionPeriod }
  | 19 => { g with standbyDelay := h.standbyDelay }
  | 20 => { g with upperGain := h.upperGain, lowerGain := h.lowerGain }
  | 21 => { g with upperCommentary := h.upperCommentary, lowerCommentary := h.lowerCommentary }
  | 22 => { g with warningGroup := h.warningGroup }
  | 23 => { g with stopGroup := h.stopGroup }
  | 24 => { g with masterLevel := h.masterLevel }
  | 25 => { g with bankA := h.bankA, bankB := h.bankB }
  | 26 => { g with driverModes := h.driverModes }
  | 27 => { g with partition := h.partition }
  | 28 => { g with linkRate := h.linkRate }
  | 29 => { g with residentList := h.residentList }
  | _ => g

section
variable (g : Settings) {h : Settings}

theorem write_tags : g.write 9 (h.read 9) = some (g.adopt h 9) := by
  have tags := readTag_tagBytes h.languageTags
  have all : ((List.range 12).all fun i => (readTag (h.languageTags.list.flatMap tagBytes) i).isSome) = true :=
    List.all_eq_true.2 fun i member => by
      have tag := tags ⟨i, List.mem_range.1 member⟩
      simp only at tag
      rw [tag]; rfl
  simp only [Settings.write, Settings.read, all, if_true, Settings.adopt]
  rw [ofFn_eq fun i => by rw [tags i]; rfl]

theorem write_driverModes : g.write 26 (h.read 26) = some (g.adopt h 26) := by
  have modes : ∀ i : Fin 16, DriverMode.ofCode (field (h.driverModes.list.flatMap fun m => beBytes 1 m.code) i 1) =
      some (h.driverModes.get i) := fun i => by
    have code := field_table h.driverModes DriverMode.code (w := 1)
      (fun i => by rcases h.driverModes.get i with _ | _ | _ <;> decide) i
    rw [Nat.one_mul] at code
    rw [code, driverMode_ofCode_code]
  have all : ((List.range 16).all fun i =>
      (DriverMode.ofCode (field (h.driverModes.list.flatMap fun m => beBytes 1 m.code) i 1)).isSome) = true :=
    List.all_eq_true.2 fun i member => by
      have mode := modes ⟨i, List.mem_range.1 member⟩
      simp only at mode
      rw [mode]; rfl
  simp only [Settings.write, Settings.read, all, if_true, Settings.adopt]
  rw [ofFn_eq fun i => by rw [modes i]; rfl]

variable (valid : h.Valid)
include valid

theorem write_residentList : g.write 29 (h.read 29) = some (g.adopt h 29) := by
  have clips := field_table h.residentList id (w := 2) fun i => (valid.residentList i).trans_lt (by decide)
  change ∀ i : Fin 4, field (h.residentList.list.flatMap (beBytes 2)) (2 * i) 2 = h.residentList.get i at clips
  have all : ((List.range 4).all fun i => decide (field (h.residentList.list.flatMap (beBytes 2)) (2 * i) 2 ≤ 4095)) = true :=
    List.all_eq_true.2 fun i member => by
      have clip := clips ⟨i, List.mem_range.1 member⟩
      simp only at clip
      rw [clip]
      exact decide_eq_true (valid.residentList _)
  simp only [Settings.write, Settings.read, all, if_true, Settings.adopt]
  rw [ofFn_eq clips]

theorem write_chimes : g.write 16 (h.read 16) = some (g.adopt h 16) := by
  obtain ⟨stop, notice, warning⟩ := valid.chimes
  have small : ∀ x ∈ [h.stopChime, h.noticeChime, h.warningChime], x < 256 ^ 2 := by
    simp only [List.mem_cons, List.not_mem_nil, or_false]
    rintro x (rfl | rfl | rfl) <;> omega
  have first := field_numbers (i := 0) _ small (by simp)
  have second := field_numbers (i := 1) _ small (by simp)
  have third := field_numbers (i := 2) _ small (by simp)
  change field (h.read 16) 0 2 = h.stopChime at first
  change field (h.read 16) 2 2 = h.noticeChime at second
  change field (h.read 16) 4 2 = h.warningChime at third
  simp only [Settings.write, first, second, third, stop, notice, warning, and_self, if_true, Settings.adopt]

theorem write_positionPeriod : g.write 18 (h.read 18) = some (g.adopt h 18) := by
  have range := valid.positionPeriod
  have period := beNat_beBytes (w := 2) (n := h.positionPeriod) (by omega)
  simp only [Settings.write, Settings.read, period, range, if_true, Settings.adopt]

/-- A setting written from the bytes that it is read as is the setting itself (12 section 12.4). -/
theorem write_read : ∀ id ∈ settingIds, g.write id (h.read id) = some (g.adopt h id)
  | 0, member => absurd member (by decide)
  | 1, _ => congrArg (Option.map _) (inRange_beBytes (w := 4) (by decide) valid.pulseLength)
  | 2, _ => congrArg (Option.map _) (inRange_beBytes (w := 2) (by decide) valid.pulseSpacing)
  | 3, _ => congrArg (Option.map _) (inRange_beBytes (w := 4) (by decide) ⟨Nat.zero_le _, valid.slewLimit⟩)
  | 4, _ => congrArg (Option.map _) (inRange_beBytes (w := 4) (by decide) valid.rearmDistance)
  | 5, _ => congrArg (Option.map _) (inRange_beBytes (w := 4) (by decide) ⟨Nat.zero_le _, valid.maxLead⟩)
  | 6, _ => congrArg (Option.map _) (inRange_beBytes (w := 2) (by decide) ⟨Nat.zero_le _, valid.crawlSpeed⟩)
  | 7, _ => congrArg (Option.map _) (inRange_beBytes (w := 4) (by decide) ⟨Nat.zero_le _, valid.resumeLimit⟩)
  | 8, _ => congrArg (Option.map _) (inRange_beBytes (w := 1) (by decide) ⟨Nat.zero_le _, valid.resumeRewind⟩)
  | 9, _ => write_tags g
  | 10, _ => congrArg (Option.map _) (asFin_beBytes (w := 1) (by decide) h.defaultSlot)
  | 11, _ => congrArg (Option.map _) (asFin_beBytes (w := 1) (by decide) h.speakerSlot)
  | 12, _ => congrArg (Option.map _) (inRange_beBytes (w := 1) (by decide) ⟨Nat.zero_le _, valid.defaultVolume⟩)
  | 13, _ => congrArg (Option.map _) (inRange_beBytes (w := 1) (by decide) ⟨Nat.zero_le _, valid.warningFloor⟩)
  | 14, _ => congrArg (Option.map _) (asFin_beBytes (w := 1) (by decide) h.duckDepth)
  | 15, _ => congrArg (Option.map _) (asFin_beBytes (w := 1) (by decide) h.precedenceCode)
  | 16, _ => write_chimes g valid
  | 17, _ => congrArg (Option.map _) (inRange_beBytes (w := 2) (by decide) ⟨Nat.zero_le _, valid.liveHang⟩)
  | 18, _ => write_positionPeriod g valid
  | 19, _ => congrArg (Option.map _) (inRange_beBytes (w := 2) (by decide) ⟨Nat.zero_le _, valid.standbyDelay⟩)
  | 20, _ => by
    obtain ⟨upper, lower⟩ := field_pair (m := h.upperGain) (n := h.lowerGain) (by omega) (by omega)
    simp only [Settings.write, Settings.read, upper, lower, asFin_val, Settings.adopt]
  | 21, _ => by
    obtain ⟨upper, lower⟩ := field_pair (m := h.upperCommentary.toNat) (n := h.lowerCommentary.toNat)
      ((Bool.toNat_le _).trans_lt (by decide)) ((Bool.toNat_le _).trans_lt (by decide))
    simp only [Settings.write, Settings.read, upper, lower, boolOfCode_toNat, Settings.adopt]
  | 22, _ => by
    simp only [Settings.write, Settings.read, beNat_beBytes (w := 2) h.warningGroup.isLt, BitVec.ofNat_toNat,
      BitVec.setWidth_eq, Settings.adopt]
  | 23, _ => by
    simp only [Settings.write, Settings.read, beNat_beBytes (w := 2) h.stopGroup.isLt, BitVec.ofNat_toNat,
      BitVec.setWidth_eq, Settings.adopt]
  | 24, _ => congrArg (Option.map _) (inRange_beBytes (w := 2) (by decide) ⟨Nat.zero_le _, valid.masterLevel⟩)
  | 25, _ => by
    have small : ∀ r : BankRate, r.code < 256 := fun r => by cases r <;> decide
    obtain ⟨a, b⟩ := field_pair (small h.bankA) (small h.bankB)
    simp only [Settings.write, Settings.read, a, b, bankRate_ofCode_code, Settings.adopt]
  | 26, _ => write_driverModes g
  | 27, _ => congrArg (Option.map _) (asFin_beBytes (w := 1) (by decide) h.partition)
  | 28, _ => by
    have code := beNat_beBytes (w := 1) (n := h.linkRate.code) (by rcases h.linkRate with _ | _ | _ <;> decide)
    simp only [Settings.write, Settings.read, code, linkRate_ofCode_code, Option.map_some, Settings.adopt]
  | 29, _ => write_residentList g valid
  | n + 30, member => by
    obtain ⟨i, inside, same⟩ := List.mem_map.1 member
    rw [List.mem_range] at inside
    omega

/-- Values written one after another from consecutive bytes. -/
theorem writeAll_reads (rest : List Byte) (ids : List Nat) (known : ∀ id ∈ ids, id ∈ settingIds) :
    g.writeAll ids (ids.flatMap h.read ++ rest) = some (ids.foldl (fun u id => u.adopt h id) g) := by
  induction ids generalizing g with
  | nil => rfl
  | cons id ids ih =>
    have member := known id List.mem_cons_self
    have width := read_length h member
    unfold Settings.writeAll
    simp only [List.flatMap_cons, List.append_assoc, List.foldl_cons]
    rw [← width, List.take_left, List.drop_left, write_read g valid id member]
    exact ih (g.adopt h id) fun other later => known other (List.mem_cons_of_mem id later)

end

/-- Every setting taken from `g` gives `g`, whatever stood before. -/
theorem adopt_all (u g : Settings) : settingIds.foldl (fun u id => u.adopt g id) u = g := by
  cases u; cases g; rfl

/-- A start-up that reads the record takes the settings it was written from (R181). -/
theorem ofRecord_record {g : Settings} (valid : g.Valid) : Settings.ofRecord g.record = some g := by
  have marker : field g.record 0 2 = 0x5E11 := rfl
  have body : g.record.take 510 = g.recordBody := by
    rw [record_eq]
    exact List.take_left' (recordBody_length g)
  have stored : field g.record 510 2 = (crc16 g.recordBody).toNat := by
    unfold field
    rw [record_eq, List.drop_left' (recordBody_length g), List.take_of_length_le (beBytes_length 2 _).le,
      beNat_beBytes (crc16 g.recordBody).isLt]
  have values : g.record.drop 2 =
      settingIds.flatMap g.read ++ (List.replicate 403 0 ++ beBytes 2 (crc16 g.recordBody).toNat) := by
    rw [record_eq]
    unfold Settings.recordBody Settings.values
    rw [List.append_assoc, List.append_assoc]
    exact List.drop_left' (beBytes_length 2 _)
  unfold Settings.ofRecord
  rw [if_pos ⟨marker, by rw [stored, body]⟩, values, writeAll_reads {} valid _ settingIds fun _ member => member, adopt_all]

end Sys2Proof.Machine
end

section
/-! OBLIGATION. SAVE_SETTINGS (R138, R180). -/

namespace Sys2Proof.Machine

section
variable {s : State} {tag : Byte} {record : List Byte}

/-! ### The request -/

theorem saveSettings_answers (h : s.takes 0x06 tag) :
    ∃ t, exec (.saveSettings tag) s = .next t ∧
      (s.store.write ≠ none → EventFrame s t ∧ s.answered t 0x06 tag .storeBusy) ∧
      (s.store.write = none →
        EventFrame (s.acceptWrite (.settingsSave s.settings.record false) 0 none) t ∧ s.answered t 0x06 tag .accepted) := by
  refine ⟨_, command_next h _, fun busy => ?_, fun idle => ?_⟩
  · simp only [taken_store, Option.isSome_iff_ne_none.2 busy, if_true]
    exact command_answered rfl rfl
  · simp only [taken_store, idle, Option.isSome_none, reduceCtorEq, if_false]
    exact command_answered rfl rfl

/-! ### The completions -/

section
variable {w : WriteRecord} (running : s.running = true) (write : s.store.write = some w) (runs : w.phase = .running)
include running write runs

theorem settingsEraseComplete_next (erases : w.kind = .settingsSave record false) :
    exec .settingsEraseComplete s =
      .next (({ s with store := s.store.eraseDone 0 } : State).acceptWrite (.settingsSave record true) 0 (some 0)).endEvent := by
  have held := runningWrite_of write runs
  obtain ⟨kind, sector, page, phase⟩ := w
  subst erases
  simp only [exec, execSettingsEraseComplete, event_next s _ running, held]

theorem settingsSaved_next (programs : w.kind = .settingsSave record true) :
    exec .settingsSaved s =
      .next (s.writeDone (s.store.programDone 0 record) fun u => u.report (.settingsSaved u.clock)) := by
  have held := runningWrite_of write runs
  obtain ⟨kind, sector, page, phase⟩ := w
  subst programs
  simp only [exec, execSettingsSaved, running, if_true, held]

end

/-- STANDBY keeps the settings and the store's bytes, and begins no write (R185). -/
theorem afterWrite_keeps (s : State) :
    s.afterWrite.settings = s.settings ∧ s.afterWrite.store.cells = s.store.cells ∧
      (s.store.write = none → s.afterWrite.store.write = none) := by
  unfold State.afterWrite
  split
  · exact ⟨rfl, rfl, fun _ => rfl⟩
  · exact ⟨rfl, rfl, id⟩

/-- The end of a write that reports, also where STANDBY follows at once. -/
theorem writeDone_keeps {store : Store} {r : Clock → Report} :
    (s.writeDone store fun u => u.report (r u.clock)).settings = s.settings ∧
      (s.writeDone store fun u => u.report (r u.clock)).store.cells = store.cells ∧
      (s.writeDone store fun u => u.report (r u.clock)).store.write = none := by
  have frame := report_frame_end { s with store := store.writeEnds } (r s.clock)
  obtain ⟨settings, cells, write⟩ :=
    afterWrite_keeps (State.report { s with store := store.writeEnds } (r s.clock)).endEvent
  exact ⟨settings.trans frame.settings, cells.trans frame.cells, write (Option.map_eq_none_iff.1 frame.write)⟩

/-- Each byte of the programmed page is the and of its old value and the record's (07, opening). -/
theorem read_recordProgrammed {st : Store} (wf : st.cells.wf = true) (whole : record.length = 512) (a : Nat) :
    (st.programDone 0 record).cells.read a =
      if a < 512 then st.cells.read a &&& record.getD a 0 else st.cells.read a := by
  have programmed := read_program wf (0 * 512) a record (by omega)
  rw [Nat.zero_mul, whole, Nat.sub_zero] at programmed
  have bounds : (0 ≤ a ∧ a < 0 + 512) ↔ a < 512 := by omega
  rw [if_congr bounds rfl rfl] at programmed
  exact programmed

end

/-- Settles O12: the record by its round trip, the save by its request and its two completions. -/
theorem settingsSave : Obligations.SettingsSave := by
  refine ⟨fun g valid => ⟨record_length g, ofRecord_record valid⟩, fun tag s h => ?_,
    fun s w record running write runs erases => ?_, fun s w record running inv write runs programs => ?_⟩
  · obtain ⟨t, next, busy, accepted⟩ := saveSettings_answers h
    exact ⟨t, next, busy, fun idle => (accepted idle).symm⟩
  · have frame := endEvent_frame
      (({ s with store := s.store.eraseDone 0 } : State).acceptWrite (.settingsSave record true) 0 (some 0))
    have cells := frame.cells
    have interrupted := congrArg Store.interrupted frame.store
    refine ⟨_, settingsEraseComplete_next running write runs erases, frame.settings, frame.tracker, fun a => ?_, fun x => ?_,
      frame.write⟩
    · rw [cells]; exact read_eraseDone 0 a
    · rw [interrupted]; exact mem_setRemove
  · have sound := inv.write w write
    unfold WriteRecord.sound at sound
    rw [programs] at sound
    obtain ⟨_, whole⟩ := sound
    obtain ⟨settings, cells, ended⟩ := writeDone_keeps (s := s) (store := s.store.programDone 0 record) (r := .settingsSaved)
    refine ⟨_, settingsSaved_next running write runs programs, ended, settings, fun a => ?_, fun before room => ?_⟩
    · rw [cells]; exact read_recordProgrammed inv.cells whole a
    · exact (writeDone_report (r := .settingsSaved) before rfl).2 room

end Sys2Proof.Machine
end
